-- ==== Sys2Proof/Word.lean ====
section
/-!
DEFINITION. The plain word types of the model. Bytes and the words the spec treats as bits are bit vectors;
counts, indexes and times are natural numbers.
-/
namespace Sys2Proof

/-- A byte of a descriptor buffer, a record or a memory. -/
abbrev Byte := BitVec 8

/-- A 32-bit word: an object id, a register, a data word of a signal engine. -/
abbrev Word := BitVec 32

/-- A SHA-384 digest: a structure hash (R63) or the digest of the owner key (R67). -/
abbrev Digest := BitVec 384

end Sys2Proof
end

