-- ==== Sys2Proof/Syntax.lean ====
section
/-!
DEFINITION. The commands of the block: one constructor of `Instr` for each row of spec/opcode_table.json, and the
plain data their operands are made of. The table gives no row any bits, so operands are written as data: a host
command carries its 64-byte descriptor (R91), an event of the board, the network or an engine carries the values the
rules name, and work whose bits the model does not hold (images, packets, pictures) enters with the verdicts the
rules ask for (assumptions 3 and 4).
-/
namespace Sys2Proof

/-! ## The syntax image (chapter 03) -/

/-- A signal engine firmware blob (R338): header fields, program words, X and Y images. -/
structure Blob where
  id : Nat
  wide : Bool
  service : Bool
  /-- reserved parts of the header: flags [7:2], bytes 6 and 7 of the function entries, bytes 144 to 191 -/
  reserved : List Nat
  /-- code, inputs, cost in slots per ms, delay in windows -/
  functions : List (Nat × Nat × Nat × Nat)
  prog : List (BitVec 64)
  x : List Word
  y : List Word
deriving DecidableEq, Repr

/-- Queues granted to one function by the QUEUES section of die 0. -/
structure FnGrant where
  sub : Nat
  cmp : Nat
  evq : Nat
  exp : Nat
deriving DecidableEq, Repr

/-- The contents of a section by its type (Table 03-3). -/
inductive SecBody where
  /-- VF count; per function the quotas of leg, stream, codec, bus, compositor, forwarding entry (Table 04-4b);
  I3C owner; Fold arbitration mode; Stem debug unlock permitted -/
  | part (vfs : Nat) (quotas : List (List Nat)) (i3cOwner foldArb stemDebug : Nat)
  /-- codec roles; codec pairs, compositor pair and signal engine pairs as (first, second); C3 bit per signal
  engine; cipher structure code -/
  | dieUnits (roles : List Nat) (codPairs cmpPairs dspPairs : List (Nat × Nat)) (c3 : List Nat) (cipher : Nat)
  /-- personality per lane; modem channel enables -/
  | lanes (pers : List Nat) (modem : List Bool)
  /-- die 0: queues per function -/
  | hubQueues (fns : List FnGrant)
  /-- media die: egress queues per function -/
  | dieQueues (egress : List Nat)
  /-- leg count of media dies 1, 2, … -/
  | legs (counts : List Nat)
  /-- audio window code, X, L, guard ceiling in µs -/
  | mixer (window x l ceilingUs : Nat)
  /-- minimum media dies; per die minimum channels and lanes; minimum hub channels -/
  | floors (minDies : Nat) (channels lanes : List Nat) (hubChannels : Nat)
  /-- blob id per signal engine, 0 for none -/
  | placement (blobs : List Nat)
  | coreFw
  | dspFw (blobs : List Blob)
  /-- contents of a type Table 03-3 does not list -/
  | unknown
deriving DecidableEq, Repr

/-- A section table entry (Table 03-2) with the bytes of its contents and what they say, whose encoding the spec does not
give (assumption 3). -/
structure Sect where
  typ : Nat
  die : Nat
  cls : Nat
  offset : Nat
  length : Nat
  crc32 : Nat
  data : List Byte
  body : SecBody
deriving DecidableEq, Repr

/-- A public key as an uncompressed point of P-384: its form byte and its coordinates, all zero when absent. -/
structure EcKey where
  form : Nat
  x : Nat
  y : Nat
deriving DecidableEq, Repr

/-- An ECDSA signature. -/
structure EcSig where
  r : Nat
  s : Nat
deriving DecidableEq, Repr

/-- The signature block (Table 03-4); `rsv1` is bytes 1 to 7, `rsv2` 201 to 207, `rsv3` 401 to 511. -/
structure SigBlock where
  keyIndex : Nat
  rsv1 : Nat
  svetKey : EcKey
  svetSig : EcSig
  rsv2 : Nat
  ownerKey : EcKey
  ownerSig : EcSig
  rsv3 : Nat
deriving DecidableEq, Repr

/-- A syntax image: the header (Table 03-1), the section table with its sections, and the signature block. `rsv1` is header
bytes 24 to 31 and `rsv2` 80 to 127. `size` is the count of bytes from the start to the end of the signature block. -/
structure Image where
  magic : Nat
  version : Nat
  target : Nat
  length : Nat
  count : Nat
  flags : Nat
  serial : Nat
  rsv1 : Nat
  hash : Digest
  rsv2 : Nat
  sections : List Sect
  size : Nat
  sign : SigBlock
deriving DecidableEq, Repr

/-! ## Command descriptors (chapter 04) -/

/-- The path a command arrives by (Table 05-4): a function and its ring (0x3FF the direct port) with the completion
ring bound to it when the command was taken, the I3C port, or the Conjunction link. -/
inductive Path where
  | host (fn ring cq : Nat)
  | i3c
  | peer
deriving DecidableEq, Repr

/-- A command descriptor (Table 04-3) with the path it came by and, for a pointer-form command, the buffer the
host memory holds (`bufFail`: the read fails), and the image a SYN_STAGE buffer spells after its 16 header bytes. -/
structure Desc where
  path : Path
  opcode : Nat
  flags : Nat
  obj : Word
  tag : Word
  commitSec : Nat
  commitNs : Nat
  rsvd : Nat
  payload : BitVec 320
  buf : List Byte
  bufFail : Bool
  image : Option Image
deriving DecidableEq, Repr

/-! ## The board and the start (chapters 16, 19, 20, 21) -/

/-- What the training of one GDDR6 channel finds (R371, R372): fails at every rate with a cause (1 open, 2 short,
3 stuck, 4 margin) and pin, or passes at a rate code. -/
structure ChanResult where
  present : Bool
  density16 : Bool
  mirrored : Bool
  byteSwap : Bool
  swizzle : Nat
  cause : Nat
  pin : Nat
  /-- highest rate code at or below the target at which the channel passes -/
  bestRate : Nat
deriving DecidableEq, Repr

/-- What the self-test, training and lane bring-up of one media die find at steps 8 to 12 (R424). -/
structure DieResult where
  selfTestOk : Bool
  hubLinkOk : Bool
  chans : List ChanResult
  /-- per lane: SerDes calibrated and no transmit fault of causes 1 to 4 -/
  lanesOk : List Bool
  /-- Tj in 0.1 °C -/
  temp : Int
deriving DecidableEq, Repr

/-- What PCIe training finds (R454): lanes inverted, their order reversed, lanes left out. -/
structure PcieTrain where
  inverted : Nat
  reversed : Bool
  failed : Nat
deriving DecidableEq, Repr

/-- Sync of a JESD lane, and the sense in which its sync headers were found (R452). -/
structure JesdSync where
  sync : Bool
  inverted : Bool
deriving DecidableEq, Repr

/-- What the board answers to one start attempt (Table 19-1). -/
structure StartResult where
  /-- last step that this command runs; a later one goes on from there -/
  upTo : Nat
  /-- flash answers at step 2, and at step 5 -/
  flash2Ok : Bool
  flash5Ok : Bool
  bootWriteOk : Bool
  linkSpeed : Nat
  linkWidth : Nat
  flit : Bool
  pcie : PcieTrain
  keyStoreOk : Bool
  hubTemp : Int
  hubChans : List ChanResult
  dies : List DieResult
  /-- ring links that train, by link index 7 to 13 -/
  ringOk : List Nat
  /-- alarm sources whose condition is present when step 4 arms them -/
  alarms : Nat
  /-- value of the hub lanes' bring-up -/
  hubLanesOk : List Bool
deriving DecidableEq, Repr

/-- A BAR write by a function, by the port or register it goes to. -/
inductive BarWrite where
  | direct (d : Desc)
  | directPop
  | doorbell (ring count : Nat) (fetched : List Desc)
  | headDoorbell (ring count : Nat)
  | evqPop (q : Nat)
  | evqClear (q value : Nat)
  | intMask (f value : Nat)
  | msixMask (vector : Nat) (masked : Bool)
  /-- any other register or reserved offset -/
  | other (bar offset value : Nat)
deriving DecidableEq, Repr

/-- What an uncorrectable read was of (Table 16-3). -/
inductive MemData where
  /-- a tile of a pool buffer: of its luma plane or of its plane of Cb and Cr, by column and row of tiles (R202) -/
  | pool (desc : Nat) (chroma : Bool) (tx ty : Nat)
  /-- a received packet of a stream, by its extended sequence number; a packet of an egress queue or its flow, by its send
  stream and extended sequence number -/
  | rxPacket (idx seq : Nat)
  | txPacket (queue send seq : Nat)
  /-- a saved decode or encode context -/
  | decodeCtx (idx : Nat)
  | encodeCtx (idx : Nat)
  | dieArea
  /-- journal ring, staging area, blob copy of the hub -/
  | ring
  | staging
  | blob
deriving DecidableEq, Repr

/-- A row that an activation crosses the threshold of, and the activations of its bank that the hardware's random source
sampled since the last step that told of them, oldest first, in runs of (row, samples); the crossing one is the last (R378,
R379). -/
structure RowAct where
  row : Nat
  sampled : List (Nat × Nat)
deriving DecidableEq, Repr

/-! ## Registers a row reads (chapter 22) -/

/-- The read-to-clear registers of the part, each counting up to its own top (R12, R466). `i` and `j` of `CntId` are
the indexes its table gives. -/
inductive CntReg where
  | fnDirectDrop | fnBadWrite | fnBadDoorbell | fnFetchFault
  | evqLost
  | ignoredWrites | badAccess
  | foldIntegrity | foldDown
  | refDisagree | timLate
  | jrnMirrorGaps | exportGaps | i3cRefused
  | netStream | netPort
  | cipLeg
  | modCnt
  | codCnt
  | mixCnt | mixBus | mixLeg | mixXp
  | cmpCnt
  | encCnt
  | netSend | trfQueue | trfMax | trfHist | fwdPli
  | tskCnt
  | dspCnt
  | memCh
  | laneDropped | lanePrbs
  | pairCnt | pairCrc
  | pinTxFaults | pinGpioFaults | pinLsFaults | i3cRecoveries
  | pwrDropped
deriving DecidableEq, Repr

/-- A counter: its register and up to three indexes. For a register of a media die's block, `i` is the die. -/
structure CntId where
  reg : CntReg
  i : Nat
  j : Nat
  k : Nat
deriving DecidableEq, Repr

/-- The 64-bit registers (bits above 31 in their tables), which may be read in halves (R463). -/
inductive WideReg where
  | jrnHead | jrnTail | jrnMirror
  | exportNext (q : Nat)
  | timNowSec | timNowMono
  | keySlot (s : Nat)
  | hifSerial | imageSerial | globalStatus | globalLast
  | evqIntMask (f : Nat)
  | stmHistory (h : Nat)
  | pwrLastWake | pwrLastMono | pwrSleep
  | wakeCfg (i : Nat)
  | memSwizzle (die ch : Nat)
  | poolMem (die : Nat)
  | encLayerStatus (die i s : Nat)
  | legLine (die i : Nat)
  | delayStatus (die : Nat)
deriving DecidableEq, Repr

/-! ## Frames and packets (chapters 06 and 13) -/

/-- What a media packet says to its consumer (assumption 4): samples by channel as the packet carries them, the marker
of the last packet of a frame or access unit, its layers, whether a decoder can start or switch up there, and the
verdict of its depacketiser. -/
structure Payload where
  samples : List (List Int)
  marker : Bool
  spatial : Nat
  temporal : Nat
  /-- a random access point of its layer starts here -/
  key : Bool
  /-- a layer switching point starts here -/
  switchPt : Bool
  /-- serial number of the frame, access unit or PES packet the packet belongs to -/
  unit : Nat
  /-- of a transport-stream packet: transport_error_indicator and PID -/
  tei : Bool
  pid : Nat
deriving DecidableEq, Repr

/-- A frame on an Ethernet lane (R134), with the fields its stages look at. `etype`: 0 IPv4, 1 IPv6, 2 PTP, 3 ARP,
4 Neighbour Solicitation, 5 MACsec, 6 other. `hdrOk`: IP version and header checksum; `second`: second byte of the UDP
payload. -/
structure Frame where
  die : Nat
  lane : Nat
  length : Nat
  fcsOk : Bool
  etype : Nat
  vlan : Option Nat
  hdrOk : Bool
  fragment : Bool
  dst : Nat
  src : Nat
  srcPort : Nat
  dstPort : Nat
  second : Nat
  pt : Nat
  ssrc : Nat
  seq : Nat
  ts : Nat
  media : Payload
deriving DecidableEq, Repr

/-- What the audio control packet of an embedded channel says (R142): group, channel, asynchronous, sampling rate in Hz. -/
structure SdiControl where
  group : Nat
  chan : Nat
  async : Bool
  rate : Nat
deriving DecidableEq, Repr

/-- An embedded sample whose packet fails its ECC: group, channel, position in the frame. -/
structure SdiBad where
  group : Nat
  chan : Nat
  at_ : Nat
deriving DecidableEq, Repr

/-- Control packets and ECC failures of an SDI frame. -/
structure SdiMarks where
  control : List SdiControl
  ecc : List SdiBad
deriving DecidableEq, Repr

/-! ## The modem (chapter 08) -/

/-- What a receiving channel's synchronisers find (assumption 4): FFT size, guard and spectrum inversion, carrier offset in
Hz, TPS parameters and hierarchy, and the modulation error ratio in 0.1 dB. -/
structure ModSync where
  fft : Nat
  guard : Nat
  inverted : Bool
  freq : Int
  /-- sample-clock offset in ppm -/
  clock : Int
  constellation : Nat
  codeRate : Nat
  hierarchy : Nat
  mer : Nat
deriving DecidableEq, Repr

/-! ## Access units and pictures (chapter 09) -/

/-- A spatial layer of an access unit: its id and cropped output size (R203). -/
structure AuLayer where
  s : Nat
  width : Nat
  height : Nat
deriving DecidableEq, Repr

/-- What the bitstream of an access unit says before it is decoded (assumption 4): a random access point; whether it uses a
tool that Table 09-1 excludes; its spatial layers, base first, and its temporal id; whether a rise to a layer may happen here;
the DPB size it needs and whether it is 4:2:2; packets of modes not accepted (STAP-B, MTAP, FU-B); whether losses before its
first packet are of this unit; whether it is incomplete. -/
structure AuInfo where
  rap : Bool
  tool : Bool
  layers : List AuLayer
  t : Nat
  switchS : Bool
  switchT : Bool
  dpb : Nat
  yuv422 : Bool
  badNal : Nat
  headLost : Bool
  lost : Bool
deriving DecidableEq, Repr

/-- A rectangle of a picture, in luma samples. -/
structure Area where
  x : Nat
  y : Nat
  w : Nat
  h : Nat
deriving DecidableEq, Repr

/-- What the decode of a picture finds (assumption 4): the references of its active set by descriptor, the picture's first
reference first, `none` for one the bitstream names and no picture answers; whether it is an intra picture; damaged areas and
syntax errors; the reference mark it takes (0 none, 1 short-term, 2 long-term); whether it waits for output order; marks the
codec's marking process clears or turns to long-term; pictures that output order releases, in order (`none` itself); its
colour description. -/
structure PicInfo where
  refs : List (Option Nat)
  intra : Bool
  damaged : List Area
  syntaxErr : Nat
  keep : Nat
  waits : Bool
  drop : List Nat
  toLong : List Nat
  outputs : List (Option Nat)
  colour : Nat
deriving DecidableEq, Repr

/-! ## Encoded frames (chapter 12) -/

/-- One block row as coded (assumption 4): its complexity, its bits when coded at the QP the row procedure gives, its
bits when frozen, device time and busy time of the frame when the row is reached. -/
structure RowIn where
  c : Nat
  bits : Nat
  skip : Nat
  now : Nat
  busy : Nat
deriving DecidableEq, Repr

/-! ## Pairing, RTCP and hub requests (chapters 13, 14 and 18) -/

/-- A heartbeat (R398): `lane` is the lane it arrived on, `laneId` the identity it carries, `hash` the first 8 bytes of the
structure hash. `carrying` and `restr`: the peer has a leg ARMED or LIVE, which R400 compares, and a re-structure in
progress, which R394 asks; no field of R398 says either (assumption 60). -/
structure Heartbeat where
  claim : Nat
  role : Nat
  part : Nat
  hash : Nat
  serial : Nat
  lane : Nat
  laneId : Nat
  crcOk : Bool
  carrying : Bool
  restr : Bool
deriving DecidableEq, Repr

/-- A decision of Table 18-2. Keys name objects by die and index. -/
inductive Outcome where
  /-- playout anchor of a receive stream -/
  | anchor (stream : Nat) (value : Int)
  /-- ordered release handed on everything up to a sequence number; or declared it lost -/
  | released (stream seq : Nat)
  | lost (stream seq : Nat)
  | lateDrop (stream seq : Nat)
  /-- decode pictures -/
  | decodeLate (ctx : Nat)
  | presented (ctx desc : Nat)
  | superseded (ctx desc : Nat)
  | compAborted (comp : Nat)
  /-- encode: source taken, late, request served -/
  | encSource (enc die desc : Nat)
  | encLate (enc : Nat)
  | encKey (enc scope s : Nat)
  | encFreeze (enc layer row : Nat)
  /-- inclusion mask of a bus for an exchange window -/
  | busMask (bus window mask : Nat)
  /-- a die lacked the total of a bus for an exchange window -/
  | totalLate (bus die window : Nat)
  /-- a signal engine block was ready or not -/
  | block (engine port window : Nat) (ready : Bool)
  | void (die flow token : Nat)
  | notMade (die : Nat)
  | estimate (leg value : Nat)
  | point (send s t : Nat)
  | refresh (source scope s : Nat)
  /-- packets an egress queue discarded: send stream and RTP number of each -/
  | queueDrop (die queue cause : Nat) (packets : List (Nat × Nat))
  | resent (send seq : Nat)
  | learned (leg addr port : Nat)
  | throttleLate (die unit : Nat)
  | streamReset (send : Nat)
  | resync (send : Nat)
deriving DecidableEq, Repr

/-- A decision record (R404) with the mended packets it carries and, for each output, whether its digest of the window
before agrees with the leader's (assumption 4: the model holds no payload bytes). Outputs: send stream keys; SDI outputs
are 2^28 and above. -/
structure DecRecord where
  window : Nat
  outcomes : List Outcome
  mended : List (Nat × Frame)
  agree : List (Nat × Bool)
deriving DecidableEq, Repr

/-- Holdings of a follower (R405): per stream its highest accepted extended sequence number and those it lacks. -/
structure Holdings where
  window : Nat
  streams : List (Nat × Nat × List Nat)
deriving DecidableEq, Repr

/-- A report block of an RTCP report (R307): the SSRC it names, fraction lost, LSR and DLSR. -/
structure ReportBlock where
  ssrc : Nat
  lost : Nat
  lsr : Nat
  dlsr : Nat
deriving DecidableEq, Repr

/-- A compound RTCP packet accepted at ingress (R304, R305, R307): blocks of its reports, generic NACKs, PLIs and other
feedback by media SSRC; whether SRTCP authenticates it under the current generation, and under the previous one. -/
structure Rtcp where
  leg : Nat
  src : Nat
  srcPort : Nat
  authOk : Bool
  prevOk : Bool
  hasReport : Bool
  blocks : List ReportBlock
  nacks : List (Nat × List Nat)
  plis : List Nat
  others : List Nat
deriving DecidableEq, Repr

/-- The requests that wait at one die's lower arbiter (R330): per requester its unit code and the bytes of its requests,
oldest first. -/
structure ArbReq where
  die : Nat
  units : List (Nat × List Nat)
deriving DecidableEq, Repr

/-! ## Fold transfers (chapter 01) -/

/-- The transfer whose integrity check failed on a link: its direction and what tells it from other transfers (R22). -/
structure FoldCheck where
  dir : Nat
  transfer : Nat
deriving DecidableEq, Repr

/-- The retry of a transfer, by the link on which its first check failed. -/
structure FoldRetry where
  link : Nat
  transfer : Nat
deriving DecidableEq, Repr

/-- The meters of a millisecond: of units (die, unit, work units completed, busy ns), and of Fold links (link, per mille of
the bandwidth used, the larger direction). -/
structure PaceMeters where
  units : List (Nat × Nat × Nat × Nat)
  loads : List (Nat × Nat)
deriving DecidableEq, Repr

/-! ## The rows of the table -/

/-- The commands, one constructor per row of spec/opcode_table.json in its order. -/
inductive Instr where
  /-- TIM_SOURCE_SET (R39). Sets the time-base source mode, PTP ports, REF enables and correction limits, and adjusts time quality when the source changes. -/
  | timSourceSet (d : Desc)
  /-- TIM_SET (R59). Sets device time: at once as a step in FREE mode, or held pending until the next REF_FRAME edge in REF mode. -/
  | timSet (d : Desc)
  /-- TIM_GUARD_SET (R46). Sets the output guard of one job kind for windows that start after execution. -/
  | timGuardSet (d : Desc)
  /-- TIM_SLACK_ALARM_SET (R53). Arms or disarms the slack alarm threshold of a unit class on one die. -/
  | timSlackAlarmSet (d : Desc)
  /-- PWR_AVS_SET (R55). Sets the voltage-loop target, hysteresis, cap and enable. -/
  | pwrAvsSet (d : Desc)
  /-- SYN_STAGE (R73). Checks an image against the rule set and writes it to a flash slot or to the RAM staging area. -/
  | synStage (d : Desc)
  /-- SYN_STAGE_WRITE_DONE (R73). Ends the erase, program and read-back of a staged slot, writes its slot_hash, raises EV_SYN_STAGED, or completes with TIMEOUT. -/
  | synStageWriteDone (ok : Bool)
  /-- SYN_ACTIVATE (R74). Activates an image for the whole part, or starts a live re-structure of one media die. -/
  | synActivate (d : Desc)
  /-- ACTIVATE_RESTART_DUE (R74). Restarts the part from ROM 10 ms after a part-scope SYN_ACTIVATE with restart now has completed. -/
  | activateRestartDue
  /-- RESTRUCTURE_STEP_DONE (R76). Completes a step of the re-structure of a media die and runs the next one, up to Run and phase-1 completion. -/
  | restructureStepDone (ok : Bool) (res : DieResult)
  /-- RESTRUCTURE_TIMEOUT (R77). Rolls the die back when step 7 has not been reached within 300 ms, and loses the die if the rollback also fails. -/
  | restructureTimeout
  /-- SYN_BOOT_SET (R423). Writes the attempt limit and the start watchdog into the boot record. -/
  | synBootSet (d : Desc)
  /-- KEY_OWNER_ENROL (R67). Enrols the owner key of the running image into one-time storage. -/
  | keyOwnerEnrol (d : Desc)
  /-- HIF_RING_CREATE (R103). Creates a submission or completion ring of the issuing function. -/
  | hifRingCreate (d : Desc)
  /-- HIF_RING_DELETE (R103). Deletes a ring and discards the untaken descriptors of a submission ring. -/
  | hifRingDelete (d : Desc)
  /-- HIF_EVQ_CONFIG (R102). Sets the class mask, die mask, threshold, interrupt level and vector of an event queue. -/
  | hifEvqConfig (d : Desc)
  /-- HIF_NOP (R103). Completes OK with no effect, and serves as a barrier marker. -/
  | hifNop (d : Desc)
  /-- JRN_EXPORT_SET (R123). Configures, enables or disables a journal export queue in PF1 memory. -/
  | jrnExportSet (d : Desc)
  /-- JRN_MARK (R122). Records a host value in the journal. -/
  | jrnMark (d : Desc)
  /-- JRN_VERIFY (R124). Starts a recomputation of the hash chain over a range of the ring. -/
  | jrnVerify (d : Desc)
  /-- JRN_VERIFY_DONE (R124). Completes a chain verification with its mismatch result, raising EV_JRN_CHAIN_FAULT on a mismatch. -/
  | jrnVerifyDone (damaged : List Nat)
  /-- KEY_WRITE (R152). Writes key material to a slot and gives it a new generation at the boundary. -/
  | keyWrite (d : Desc)
  /-- KEY_CLEAR (R152). Removes the current generation of a slot at the boundary; the slot goes to CLEARING or EMPTY. -/
  | keyClear (d : Desc)
  /-- KEY_ERASE (R156). Destroys every generation of one slot, or of all slots, at once and aborts the bound operations. -/
  | keyErase (d : Desc)
  /-- KEY_ALARM_SET (R160). Enables or disables the light, electromagnetic and lid alarm sources. -/
  | keyAlarmSet (d : Desc)
  /-- KEY_ALARM_CLEAR (R162). Reopens the key store to Operator writes and releases ALARM_N. -/
  | keyAlarmClear (d : Desc)
  /-- CIP_AUTH_SET (R159). Sets the authentication failure threshold F within T of a leg. -/
  | cipAuthSet (d : Desc)
  /-- CIP_ROC_SET (R146). Sets the rollover counter of a stream in one direction. -/
  | cipRocSet (d : Desc)
  /-- LEG_DEFINE (R126). Creates a leg from a leg record and places it on a die. -/
  | legDefine (d : Desc)
  /-- LEG_MODIFY (R127). Changes a leg record, restricted while the leg is ARMED or LIVE. -/
  | legModify (d : Desc)
  /-- LEG_ARM (R127). Arms a leg and allocates its egress queue. -/
  | legArm (d : Desc)
  /-- LEG_DISARM (R143). Returns an ARMED leg to DEFINED and releases its egress queue. -/
  | legDisarm (d : Desc)
  /-- LEG_DRAIN (R129). Closes ingress at the boundary and drains the leg toward ABSENT. -/
  | legDrain (d : Desc)
  /-- LEG_DELETE (R130). Deletes a DEFINED leg and removes every reference to it. -/
  | legDelete (d : Desc)
  /-- LEG_MOVE (R131). Moves a leg to another home die at the boundary, keeping its state and rewriting references. -/
  | legMove (d : Desc)
  /-- NET_PORT_SET (R133). Configures the addresses and MTU of an Ethernet media lane. -/
  | netPortSet (d : Desc)
  /-- NET_STREAM_DEFINE (R132). Defines a receive stream in a slot of a DEFINED leg. -/
  | netStreamDefine (d : Desc)
  /-- NET_STREAM_MODIFY (R132). Changes the policing, playout and stall settings of a receive stream, and other fields only while its leg is DEFINED. -/
  | netStreamModify (d : Desc)
  /-- NET_STREAM_DELETE (R132). Deletes a receive stream of a DEFINED leg. -/
  | netStreamDelete (d : Desc)
  /-- MOD_CONFIG (R171). Sets the profile, direction and modulation of a modem channel. -/
  | modConfig (d : Desc)
  /-- MOD_START (R170). Starts a modem channel receiving or transmitting. -/
  | modStart (d : Desc)
  /-- MOD_STOP (R170). Returns a modem channel to IDLE. -/
  | modStop (d : Desc)
  /-- MOD_FE_SET (R180). Sets the SPI mode, clock and frame length of a channel's front end. -/
  | modFeSet (d : Desc)
  /-- MOD_GAIN_SET (R180). Queues a front-end SPI frame word, or only keeps it when the part does not hold the claim. -/
  | modGainSet (d : Desc)
  /-- MOD_FIR_SET (R183). Loads the 127 coefficients of the transmit FIR filter. -/
  | modFirSet (d : Desc)
  /-- MOD_MASK_SET (R184). Loads the spectral mask breakpoints and restarts the violation count. -/
  | modMaskSet (d : Desc)
  /-- MOD_TX_UNMUTE (R184). Returns a MUTED channel to TRANSMIT at the next symbol start. -/
  | modTxUnmute (d : Desc)
  /-- COD_CONTEXT_OPEN (R193). Opens a decode context on an engine after the admission and reservation checks. -/
  | codContextOpen (d : Desc)
  /-- COD_CONTEXT_MODIFY (R195). Changes a decode context, restricted while it is RUNNING. -/
  | codContextModify (d : Desc)
  /-- COD_START (R198). Starts decoding from the first random access point. -/
  | codStart (d : Desc)
  /-- COD_STOP (R197). Stops a decode context at its boundary and clears its reference marks. -/
  | codStop (d : Desc)
  /-- COD_CONTEXT_CLOSE (R197). Closes a decode context, which becomes ABSENT when the picture in progress completes. -/
  | codContextClose (d : Desc)
  /-- COD_LAYER_SELECT (R212). Sets the target spatial and temporal layer of a decode context. -/
  | codLayerSelect (d : Desc)
  /-- COD_REFRESH (R211). Sends a PLI under the interval limit, or at once with force. -/
  | codRefresh (d : Desc)
  /-- FBP_SNAPSHOT (R214). Starts copying a presented picture into the BAR4 aperture. -/
  | fbpSnapshot (d : Desc)
  /-- FBP_SNAPSHOT_DONE (R214). Completes a snapshot copy and clears its compositor-hold mark. -/
  | fbpSnapshotDone (die : Nat)
  /-- COD_PAIR (R387). Joins or splits a codec engine pair. -/
  | codPair (d : Desc)
  /-- MIX_BUS_DEFINE (R217). Defines a mix bus with its exchange window. -/
  | mixBusDefine (d : Desc)
  /-- MIX_BUS_DELETE (R216). Deletes a mix bus that no crosspoint or leg output names. -/
  | mixBusDelete (d : Desc)
  /-- MIX_XP_SET (R219). Writes or removes a crosspoint in the inactive bank. -/
  | mixXpSet (d : Desc)
  /-- MIX_LEG_SET (R225). Writes a leg output's bus, gain, limiter and width in the inactive bank. -/
  | mixLegSet (d : Desc)
  /-- MIX_OVERLAY_SET (R227). Writes an overlay slot of a leg in the inactive bank. -/
  | mixOverlaySet (d : Desc)
  /-- MIX_COMMIT (R231). Swaps the mixer banks of a die at a sample boundary, or reverts the inactive bank. -/
  | mixCommit (d : Desc)
  /-- MIX_METER_SET (R236). Sets the meter period of a die's mixer. -/
  | mixMeterSet (d : Desc)
  /-- CMP_DEFINE (R244). Sets a compositor's format, feed and background and reserves its output buffers. -/
  | cmpDefine (d : Desc)
  /-- CMP_START (R245). Starts composition at a window start. -/
  | cmpStart (d : Desc)
  /-- CMP_STOP (R245). Stops composition at a window start and discards any job in progress. -/
  | cmpStop (d : Desc)
  /-- CMP_DELETE (R244). Deletes a compositor and returns its reservations. -/
  | cmpDelete (d : Desc)
  /-- CMP_OUTPUT_SET (R262). Stages the binding of a direct output to an SDI lane or an ST 2110-20 send stream. -/
  | cmpOutputSet (d : Desc)
  /-- CMP_LAYER_SET (R246). Stages a layer's kind, source, crop, destination and alpha. -/
  | cmpLayerSet (d : Desc)
  /-- CMP_LAYER_COLOUR (R251). Stages a picture layer's LUTs and matrix. -/
  | cmpLayerColour (d : Desc)
  /-- CMP_LAYER_STYLE (R253). Stages the items of a text, meter or border layer. -/
  | cmpLayerStyle (d : Desc)
  /-- CMP_ZLIST_SET (R254). Stages the blending order of the layers. -/
  | cmpZlistSet (d : Desc)
  /-- CMP_LUT3D_SET (R252). Stages the output 3D LUT and the encoding matrix. -/
  | cmpLut3dSet (d : Desc)
  /-- CMP_COMMIT (R257). Checks the staged set and applies it at a window start, or discards it. -/
  | cmpCommit (d : Desc)
  /-- CMP_CURSOR_SET (R256). Sets the cursor position and visibility. -/
  | cmpCursorSet (d : Desc)
  /-- CMP_CURSOR_IMAGE (R256). Loads the 64 × 64 cursor image. -/
  | cmpCursorImage (d : Desc)
  /-- CMP_GLYPH_LOAD (R253). Loads the die's glyph atlas. -/
  | cmpGlyphLoad (d : Desc)
  /-- CMP_GUARD_SET (R258). Sets the Compliance guarded layer, computes its reference CRC and starts denying the protected Operator commands. -/
  | cmpGuardSet (d : Desc)
  /-- CMP_GUARD_CLEAR (R258). Removes the guarded layer at a window start. -/
  | cmpGuardClear (d : Desc)
  /-- CMP_PAIR (R388). Joins or splits compositors 0 and 1. -/
  | cmpPair (d : Desc)
  /-- ENC_CONTEXT_OPEN (R271). Opens an encode context bound to a source and a send stream after admission and reservation. -/
  | encContextOpen (d : Desc)
  /-- ENC_CONTEXT_MODIFY (R273). Changes an encode context, restricted while it is RUNNING. -/
  | encContextModify (d : Desc)
  /-- ENC_START (R274). Starts encoding with a key frame. -/
  | encStart (d : Desc)
  /-- ENC_STOP (R274). Stops an encode context at its boundary. -/
  | encStop (d : Desc)
  /-- ENC_CONTEXT_CLOSE (R274). Closes an encode context and discards the frame in progress. -/
  | encContextClose (d : Desc)
  /-- ENC_RATE_SET (R283). Sets layer targets, QP limits and rate-control settings. -/
  | encRateSet (d : Desc)
  /-- ENC_KEYFRAME (R282). Requests a key frame or a switching point, merged under merge_ms. -/
  | encKeyframe (d : Desc)
  /-- FWD_SET (R299). Creates or changes a forwarding entry for a source and a layer. -/
  | fwdSet (d : Desc)
  /-- FWD_DELETE (R299). Deletes a forwarding entry and releases its memberships. -/
  | fwdDelete (d : Desc)
  /-- FWD_MEMBER_ADD (R299). Makes a kind 1 send stream a member of a forwarding entry. -/
  | fwdMemberAdd (d : Desc)
  /-- FWD_MEMBER_REMOVE (R300). Removes a member from a forwarding entry. -/
  | fwdMemberRemove (d : Desc)
  /-- NET_SEND_DEFINE (R295). Defines a send stream of a leg. -/
  | netSendDefine (d : Desc)
  /-- NET_SEND_MODIFY (R294). Changes a send stream, restricted while it is BOUND. -/
  | netSendModify (d : Desc)
  /-- NET_SEND_DELETE (R294). Deletes a send stream and releases its binding. -/
  | netSendDelete (d : Desc)
  /-- TRF_PORT_SET (R309). Sets a port's rate and next-hop MAC. -/
  | trfPortSet (d : Desc)
  /-- TRF_CLASS_SET (R311). Sets the weight and shaper of a traffic class of a port. -/
  | trfClassSet (d : Desc)
  /-- TRF_QUEUE_SET (R312). Sets a leg queue's class, weight, shaper and limits. -/
  | trfQueueSet (d : Desc)
  /-- TRF_PROFILE_SET (R306). Rewrites one line profile. -/
  | trfProfileSet (d : Desc)
  /-- TRF_LINE_SET (R308). Sets the line-estimate mode and value of a leg. -/
  | trfLineSet (d : Desc)
  /-- TRF_SAMPLE_SET (R315). Sets the latency sample period of a die. -/
  | trfSampleSet (d : Desc)
  /-- TSK_ARB_SET (R332). Selects flat-fair or die-equal arbitration for every upper arbiter. -/
  | tskArbSet (d : Desc)
  /-- TSK_PRIO_SET (R322). Sets the task level of one stream. -/
  | tskPrioSet (d : Desc)
  /-- TSK_CANCEL (R329). Cancels a pending timed command of the issuing function by host tag. -/
  | tskCancel (d : Desc)
  /-- DSP_PORT_SET (R362). Activates or replaces a signal engine port with a function and its inputs. -/
  | dspPortSet (d : Desc)
  /-- DSP_PORT_CLEAR (R365). Frees a signal engine port that nothing names. -/
  | dspPortClear (d : Desc)
  /-- DSP_PARAM_SET (R363). Writes parameter words of a port, applied by a parameter-half swap. -/
  | dspParamSet (d : Desc)
  /-- DSP_HALT (R365). Halts a signal engine with fault code 7. -/
  | dspHalt (d : Desc)
  /-- DSP_RESTART (R337). Reloads an engine's blob and restores its ports and parameters. -/
  | dspRestart (d : Desc)
  /-- DSP_PAIR (R389). Joins a signal engine pair with a wide blob, or splits it. -/
  | dspPair (d : Desc)
  /-- MEM_RATE_SET (R382). Sets the GDDR6 target rate for the next full training. -/
  | memRateSet (d : Desc)
  /-- MEM_ECC_SET (R375). Turns inline ECC of a media die's pool on or off. -/
  | memEccSet (d : Desc)
  /-- MEM_ACT_SET (R382). Sets the activation threshold of a die. -/
  | memActSet (d : Desc)
  /-- PWR_ENTER (R441). Runs the arm-then-check entry into Comma state, or abandons it with WOKE_DURING_ENTRY. -/
  | pwrEnter (d : Desc)
  /-- PWR_WAKE_SET (R436). Configures one wake source slot. -/
  | pwrWakeSet (d : Desc)
  /-- PAIR_CONFIG (R412). Enables or disables pairing and sets the configured claim C. -/
  | pairConfig (d : Desc)
  /-- PAIR_CLAIM (R413). Releases or takes the claim. -/
  | pairClaim (d : Desc)
  /-- PAIR_CLAIM_RELEASE_TIMEOUT (R413). Restores E to C and completes TIMEOUT when the peer has not reported LEADING within 10 ms. -/
  | pairClaimReleaseTimeout
  /-- PAIR_WAKE (R412). Sends the wake pattern or message to the peer. -/
  | pairWake (d : Desc)
  /-- PIN_LOOPBACK_SET (R392). Sets a lane's test mode. -/
  | pinLoopbackSet (d : Desc)
  /-- PIN_GPIO_SET (R455). Configures a hub GPIO pin as an input or an output with its level and open test. -/
  | pinGpioSet (d : Desc)
  /-- PIN_RESTORE (R460). Re-enables a transmitter or GPIO driver disabled for a fault. -/
  | pinRestore (d : Desc)
  /-- PIN_REFOUT_SET (R483). Configures REF_OUT and LTC_OUT. -/
  | pinRefoutSet (d : Desc)
  /-- TIMED_COMMAND_APPLY (R99). Repeats steps 7 to 9 of the checks for a pending command at its boundary, then applies or refuses it and writes its completion and journal record. -/
  | timedCommandApply
  /-- DIRECT_SUBMIT_WRITE (R85). Takes a descriptor written to the direct submission port, or discards it beyond 16 outstanding. -/
  | directSubmitWrite (f : Nat) (d : Desc)
  /-- DIRECT_COMPLETION_POP (R85). Removes the oldest direct completion and shows the next one. -/
  | directCompletionPop (f : Nat)
  /-- SUBMISSION_DOORBELL (R86). Fetches the descriptors up to the new count, or ignores a bad doorbell and raises EV_RING_FAULT. -/
  | submissionDoorbell (f ring cnt : Nat) (fetched : List Desc)
  /-- COMPLETION_HEAD_DOORBELL (R86). Returns completion slots to the ring, or ignores a bad count. -/
  | completionHeadDoorbell (f ring cnt : Nat)
  /-- DESCRIPTOR_FETCH_FAULT (R87). Sets the ring to FAULT when a descriptor fetch fails. -/
  | descriptorFetchFault (f ring : Nat)
  /-- COMPLETION_COALESCE_TIMEOUT (R90). Raises a completion ring's vector when the coalescing time has passed. -/
  | completionCoalesceTimeout (f ring : Nat)
  /-- MSIX_VECTOR_UNMASK (R90). Fires a vector whose pending bit is set when its mask bit is cleared. -/
  | msixVectorUnmask (f vector : Nat)
  /-- EVQ_POP (R101). Pops the oldest record of the highest-priority level into the head window, or sets underrun. -/
  | evqPop (f q : Nat)
  /-- EVQ_UNDERRUN_CLEAR (R101). Clears the sticky underrun bit by a write of 1. -/
  | evqUnderrunClear (f q value : Nat)
  /-- HIF_EVQ_INT_MASK_WRITE (R473). Writes event-queue interrupt masks and raises a vector once for a waiting record when a bit clears. -/
  | hifEvqIntMaskWrite (fn f value : Nat)
  /-- TIM_NOW_NS_READ (R471). Returns the nanoseconds of device time and latches TIM_NOW_SEC and TIM_NOW_MONO. -/
  | timNowNsRead
  /-- WIDE_REGISTER_LOW_READ (R463). A 4-byte read of the low half of a 64-bit register latches the high half for the function. -/
  | wideRegisterLowRead (fn : Nat) (reg : WideReg)
  /-- RC_FIELD_READ (R466). Returns an RC field and clears it in the same access. -/
  | rcFieldRead (id : CntId)
  /-- BAR_ACCESS_BAD (R463). Refuses an access of bad size or alignment, or any BAR4 write, and counts it in bad_access. -/
  | barAccessBad (fn bar offset : Nat) (write : Bool)
  /-- BAR_WRITE_IGNORED (R464). Handles a write to a register without behaviour of its own: reserved, read-only, RC, CMD or unpermitted targets are ignored and counted, and permitted RW targets are written. -/
  | barWriteIgnored (fn bar offset value : Nat)
  /-- COMMA_BAR_WRITE (R442). Keeps a BAR write made during Comma state, drops it when 64 are kept, and wakes the part when the host source is armed. -/
  | commaBarWrite (fn : Nat) (write : BarWrite) (wellFormed : Bool)
  /-- I3C_PRIVATE_WRITE (R106). Takes a 64-byte I3C private write as a command descriptor of the owner domain, or NACKs it. -/
  | i3cPrivateWrite (d : Desc) (len : Nat)
  /-- I3C_PRIVATE_READ (R106). Returns the port status byte and the last completion. -/
  | i3cPrivateRead
  /-- I3C_SDA_STUCK (R458). Releases SDA, resets the port to idle and raises cause 8. -/
  | i3cSdaStuck
  /-- I3C_SCL_HELD (R458). Resets the port when SCL is held low beyond 1 ms and raises cause 9. -/
  | i3cSclHeld (ns : Nat)
  /-- I3C_TARGET_RESET (R458). Obeys the I3C target reset pattern or the HDR exit pattern. -/
  | i3cTargetReset (exit : Bool)
  /-- STM_FLASH_ERASE (R427). Erases one 64 KiB sector of a slot and makes the slot invalid. -/
  | stmFlashErase
  /-- STM_FLASH_PROGRAM (R427). Programs bytes from the window into a slot and makes the slot invalid. -/
  | stmFlashProgram (len : Nat)
  /-- STM_FLASH_READ (R427). Reads flash into the window. -/
  | stmFlashRead (len : Nat)
  /-- STM_FLASH_VERIFY (R427). Verifies a slot under the rule set and writes its slot_hash on a pass. -/
  | stmFlashVerify
  /-- STM_BOOT_RECORD_WRITE (R427). Writes a valid boot record copy from the window. -/
  | stmBootRecordWrite
  /-- STM_FLASH_OP_DONE (R427). Ends a Stem flash operation with its outcome, raises the vector and journals action 0x02C2. -/
  | stmFlashOpDone (flashOk : Bool) (image : Option Image) (data : List Byte)
  /-- STM_DEBUG_UNLOCK (R428). Accepts or refuses the Stem debug unlock. -/
  | stmDebugUnlock
  /-- STM_RESTART (R429). Resets the part out of Stem mode and starts attempt 1. -/
  | stmRestart
  /-- JTAG_CORE_ACCESS (R14). Refuses a JTAG access that would load host code into a control core unless debug is unlocked in Stem mode. -/
  | jtagCoreAccess
  /-- FLR (R83). Resets one function's rings and event-queue settings while keeping its objects. -/
  | flr (f : Nat)
  /-- LINK_LOSS (R83). Acts as an FLR of every function when the link is lost without PERST#. -/
  | linkLoss
  /-- PORST_N_RELEASE (R416). Begins a start when PORST_N is released. -/
  | porstNRelease
  /-- PERST_RELEASE (R416). Begins a start when PERST# is released with PORST_N high. -/
  | perstRelease
  /-- RESET_ASSERT (R420). Holds the part in reset on PORST_N or PERST# low, failing any start in progress with HOST_ABORT. -/
  | resetAssert (perst : Bool)
  /-- SUPPLY_MONITOR_CHANGE (R480). Holds or releases everything but the always-on domain as rails enter or leave their ranges. -/
  | supplyMonitorChange (rail : Nat) (inRange : Bool)
  /-- START_ATTEMPT (R417). Runs the start sequence from ROM up to Ready or a fatal failure. -/
  | startAttempt (result : StartResult)
  /-- START_WATCHDOG_EXPIRY (R420). Fails the attempt with WATCHDOG when the watchdog expires before Ready. -/
  | startWatchdogExpiry
  /-- ATTEMPT_RESTART (R421). Restarts the part from ROM within 1 ms of a failed attempt below N. -/
  | attemptRestart
  /-- WINDOW_START (R46). Starts the jobs of a window of one kind at a boundary of device time. -/
  | windowStart (kind die idx : Nat)
  /-- DEADLINE_STROBE (R47). Makes a job not yet complete late and applies its outcome by kind. -/
  | deadlineStrobe (kind die idx : Nat)
  /-- PACE_METER_INTERVAL (R51). Records each unit's pace and busy share over 1 ms. -/
  | paceMeterInterval (meters : PaceMeters)
  /-- SLACK_INTERVAL (R53). Evaluates least slack over 10 ms and raises EV_SLACK_LOW. -/
  | slackInterval
  /-- AVS_LOOP_TICK (R54). Raises, lowers or holds the VDD_CORE request every 10 ms. -/
  | avsLoopTick
  /-- AVS_ACK_TIMEOUT (R56). Counts an unacknowledged AVSBus transaction and stops the loop at the third in a row. -/
  | avsAckTimeout
  /-- PTP_SYNC_RECEIVED (R40). Takes a PTP Sync message and corrects the offset by slewing or by a step. -/
  | ptpSyncReceived (port : Nat) (diff : Int)
  /-- PTP_DELAY_RESP_RECEIVED (R38). Takes a PTP Delay_Resp message into the delay measurement. -/
  | ptpDelayRespReceived (port : Nat) (delay : Int)
  /-- PTP_ANNOUNCE_RECEIVED (R38). Takes an Announce message and selects the master and port. -/
  | ptpAnnounceReceived (port : Nat) (attrs : List Nat) (sender : Nat) (qualified : Bool) (interval : Nat)
  /-- PTP_ANNOUNCE_TIMEOUT (R38). Moves to the second candidate port, or to holdover, after announceReceiptTimeout. -/
  | ptpAnnounceTimeout (port : Nat)
  /-- REF_FRAME_EDGE (R41). Takes a REF_FRAME edge for presence, polarity, phase, lock, and any waiting TIM_SET. -/
  | refFrameEdge (falling : Bool)
  /-- REF_FRAME_MISSED (R41). Declares REF_FRAME absent after 4 missed pulses. -/
  | refFrameMissed
  /-- REF_10M_CHANGE (R41). Declares REF_10M present or absent by its measured frequency. -/
  | ref10mChange (ppb : Int)
  /-- TIM_SET_TIMEOUT (R59). Completes a waiting TIM_SET with TIMEOUT when no edge comes within 10 s. -/
  | timSetTimeout
  /-- FOLD_ACK_TIMEOUT (R21). Declares a Fold link DOWN when a request stays unacknowledged for 4 µs. -/
  | foldAckTimeout (link : Nat)
  /-- FOLD_INTEGRITY_FAIL (R22). Discards a transfer that fails its check, raises the Fold alarm and retries once. -/
  | foldIntegrityFail (link : Nat) (check : FoldCheck)
  /-- FOLD_RETRY_DONE (R22). Raises EV_FOLD_INTEGRITY with the outcome of the retry. -/
  | foldRetryDone (retry : FoldRetry) (ok : Bool)
  /-- FOLD_RETRAIN_START (R21). Starts the single retraining attempt 100 ms after a link goes DOWN. -/
  | foldRetrainStart (link : Nat)
  /-- FOLD_RETRAIN_END (R21). Ends a retraining attempt with the link UP or DOWN. -/
  | foldRetrainEnd (link : Nat) (ok : Bool)
  /-- KEY_ALARM_DETECT (R161). Erases every key slot and cache and drives ALARM_N on detection by an enabled source. -/
  | keyAlarmDetect (source : Nat)
  /-- JRN_ANCHOR_TIMER (R117). Writes an anchor record when 3,600 s of MONO have passed since the last one. -/
  | jrnAnchorTimer
  /-- JRN_MIRROR_PROGRAM_DONE (R120). Ends a flash program of the mirror, retrying once and stopping mirroring on a second failure. -/
  | jrnMirrorProgramDone (ok : Bool)
  /-- EXPORT_CONSUMED_POLL (R123). Rereads the host consumed count of a full export queue, at most every 10 µs. -/
  | exportConsumedPoll (q consumed : Nat)
  /-- EXPORT_INTERRUPT_TIMEOUT (R123). Raises an export queue's vector 1 ms after the first unsignalled record. -/
  | exportInterruptTimeout (q : Nat)
  /-- ETH_FRAME_RECEIVE (R134). Passes a received frame through ingress stages 1 to 8. -/
  | ethFrameReceive (f : Frame)
  /-- POLICER_REFILL (R136). Refills the policing token buckets each 1 µs of device time. -/
  | policerRefill
  /-- CIPHER_OP_COMPLETE (R149). Completes the cipher work of one packet in the fabric. -/
  | cipherOpComplete (id : Nat)
  /-- KEY_CACHE_LOADED (R154). Loads a wrapped generation into a die cache and lets waiting operations proceed. -/
  | keyCacheLoaded (die slot gen : Nat)
  /-- AUTH_RESULT (R158). Releases a provisional packet when it authenticates, or retries under grace and retracts it. -/
  | authResult (id : Nat) (ok prevOk : Bool)
  /-- GRACE_END (R153). Ends a receive grace and destroys the previous generation once unbound. -/
  | graceEnd (slot : Nat)
  /-- PLAYOUT_TIME_REACHED (R139). Releases a held packet, or declares missing sequences lost, at its playout time. -/
  | playoutTimeReached (die idx : Nat)
  /-- PLAYOUT_ANCHOR_ADJUST (R138). Moves the playout anchor of a kind 0 or 1 stream each second. -/
  | playoutAnchorAdjust (die idx : Nat)
  /-- NET_PATH_TIMEOUT (R137). Declares a path down after 100 ms without an accepted or duplicate packet. -/
  | netPathTimeout (die idx : Nat)
  /-- STREAM_STALL_TIMEOUT (R140). Sets a stream STALLED after stall_ms without a release. -/
  | streamStallTimeout (die idx : Nat)
  /-- LEG_SILENCE_TIMEOUT (R128). Raises EV_LEG_SILENT after silence_s without a release. -/
  | legSilenceTimeout (die idx : Nat)
  /-- NACK_DELAY_EXPIRY (R139). Sends a NACK after the 2 ms wait of a leg with a secondary path. -/
  | nackDelayExpiry (die idx : Nat)
  /-- NACK_REPEAT_EXPIRY (R139). Sends the repeat NACK after 20 ms if the packet is still missing. -/
  | nackRepeatExpiry (die idx : Nat)
  /-- RTCP_REPORT_TIMER (R139). Sends RTCP receiver reports every rtcp_ms. -/
  | rtcpReportTimer (die idx : Nat)
  /-- RTCP_SENDER_REPORT_TIMER (R297). Sends RTCP sender reports of a send stream every rtcp_ms. -/
  | rtcpSenderReportTimer (die idx : Nat)
  /-- RTCP_RECEIVED (R307). Takes a received RTCP packet: evaluates the line estimate and handles NACK and PLI feedback. -/
  | rtcpReceived (r : Rtcp)
  /-- LEG_DRAIN_COMPLETE (R129). Makes a draining leg ABSENT when its streams and queue are empty. -/
  | legDrainComplete (die idx : Nat)
  /-- LEG_DRAIN_LIMIT (R129). Discards what remains and makes the leg ABSENT drain_ms after the boundary. -/
  | legDrainLimit (die idx : Nat)
  /-- SDI_LOCK_CHANGE (R141). Locks an SDI lane or loses lock, stalling its streams. -/
  | sdiLockChange (die lane : Nat) (lock : Option (Nat × Bool)) (st352 : Option Nat) (inverted : Bool)
  /-- SDI_FRAME_COMPLETE (R141). Takes a completed SDI frame as the input of the next window, checking its format. -/
  | sdiFrameComplete (die lane format st352 : Nat) (groups : List (Nat × List (List Int))) (marks : SdiMarks)
  /-- JESD_SYNC_CHANGE (R168). Gains or loses JESD sync on a lane and raises EV_MOD_JESD. -/
  | jesdSyncChange (die c : Nat) (sync : JesdSync)
  /-- IQ_OVERRUN (R168). Counts a lane FIFO overflow and returns the channel to stage 0. -/
  | iqOverrun (die c : Nat)
  /-- MOD_STAGE_CHANGE (R173). Moves a receiving channel up or down the receive stages. -/
  | modStageChange (die c new : Nat) (p : ModSync)
  /-- MOD_LOCK_TIMEOUT (R174). Returns a channel to stage 0 when stage 5 is not reached within lock_timeout. -/
  | modLockTimeout (die c : Nat)
  /-- MOD_TS_PACKET (R179). Hands a decoded TS packet to the leg's kind 8 stream, or drops it. -/
  | modTsPacket (die c corrected : Nat) (bad : Bool) (media : Payload)
  /-- MOD_IQ_INTERVAL (R182). Records mean and peak received power over 1 ms. -/
  | modIqInterval (die c : Nat) (power peak : Int) (clipped : Nat)
  /-- MOD_TX_SYMBOL (R184). Builds and sends a transmit symbol and checks it against the mask. -/
  | modTxSymbol (die c : Nat) (bins : List (Int × Nat))
  /-- FE_SPI_FRAME_DONE (R180). Ends a front-end SPI frame, captures MISO and starts the next queued frame. -/
  | feSpiFrameDone (die c miso : Nat)
  /-- ACCESS_UNIT_COMPLETE (R191). Completes an access unit for the decoder, marking it incomplete when a packet was lost. -/
  | accessUnitComplete (die idx : Nat) (info : AuInfo)
  /-- DECODE_PICTURE_COMPLETE (R200). Completes a decoded picture and places it in output order and presentation. -/
  | decodePictureComplete (die idx : Nat) (pic : PicInfo)
  /-- PLI_INTERVAL_EXPIRY (R211). Sends a further PLI when pli_ms passes with refresh still needed. -/
  | pliIntervalExpiry (die idx : Nat)
  /-- MIX_PARTIAL_ARRIVAL (R224). Takes a partial sum at the home die, or discards it when late. -/
  | mixPartialArrival (bus die : Nat)
  /-- MIX_ADDITION_POINT (R223). Adds the arrived partial sums, sets the inclusion mask and sends the total. -/
  | mixAdditionPoint (bus : Nat)
  /-- MIX_TOTAL_ARRIVAL (R223). Takes a bus total at a die with leg outputs on the bus. -/
  | mixTotalArrival (bus die : Nat)
  /-- OVERLAY_HOLD_EXPIRY (R227). Ramps an overlay and the duck back once a key has stayed inactive for the hold time. -/
  | overlayHoldExpiry (die idx : Nat)
  /-- METER_PERIOD_END (R236). Latches the peak and RMS values of a meter period. -/
  | meterPeriodEnd (die : Nat)
  /-- COMPOSITION_COMPLETE (R261). Completes a composed frame, checks the guard CRC and publishes the frame. -/
  | compositionComplete (die idx : Nat) (crc : Option Nat)
  /-- ENCODE_FRAME_COMPLETE (R279). Hands a frame's access units to the send stream and updates the debt. -/
  | encodeFrameComplete (die idx : Nat) (rows : List (List RowIn))
  /-- UP_WAIT_EXPIRY (R304). Makes a refresh request after up_wait_ms of waiting for a spatial up-switch. -/
  | upWaitExpiry (die idx : Nat)
  /-- RTX_HOLD_EXPIRY (R305). Ends the retransmission hold of a sent packet. -/
  | rtxHoldExpiry (die idx : Nat)
  /-- SOURCE_PACKET_FORWARD (R300). Looks up a source packet and replicates it to the dies and members of its entry. -/
  | sourcePacketForward (die idx : Nat)
  /-- SHAPER_REFILL (R311). Refills egress shapers each 1 µs of device time. -/
  | shaperRefill
  /-- EGRESS_FRAME_SENT (R310). Ends the sending of a frame on a port and serves the next eligible flow. -/
  | egressFrameSent (die lane : Nat)
  /-- SOJOURN_LIMIT (R312). Discards a head packet whose sojourn reaches max_sojourn on a path. -/
  | sojournLimit (die queue : Nat)
  /-- PACED_PACKET_DUE (R313). Sends an ST 2110-21 packet at its scheduled time. -/
  | pacedPacketDue (die idx : Nat)
  /-- LATENCY_SAMPLE_TICK (R315). Records each queue's depth and sojourn into its histograms. -/
  | latencySampleTick (die : Nat)
  /-- PARKED_TASK_DUE (R323). Moves a parked task onto the delay list when it comes within the horizon. -/
  | parkedTaskDue
  /-- FLOW_ITEM_COMPLETE (R326). Hands on completed items of an ordered flow in token order. -/
  | flowItemComplete (die flow : Nat) (tokens : List Nat)
  /-- REORDER_TIMEOUT (R327). Voids an item that has held the lowest token for 1 ms. -/
  | reorderTimeout (die flow : Nat)
  /-- ARBITER_ROUND (R331). Runs one deficit round robin round of an upper arbiter. -/
  | arbiterRound (r : Nat) (reqs : List ArbReq)
  /-- DSP_INTERRUPT_ENTRY (R353). Takes a window or parameter interrupt, pushing PC and ST and jumping to the vector. -/
  | dspInterruptEntry (die n : Nat)
  /-- DSP_FAULT (R357). Halts an engine on a fault and raises EV_DSP_FAULT. -/
  | dspFault (die n : Nat)
  /-- PAR (R361). Performs only the parallel moves; the all-zero word is NOP. -/
  | par (die n : Nat)
  /-- MPY (R346). Loads an accumulator with the exact product of two data registers. -/
  | mpy (die n : Nat)
  /-- MAC (R347). Adds the product to an accumulator. -/
  | mac (die n : Nat)
  /-- MSU (R347). Subtracts the product from an accumulator. -/
  | msu (die n : Nat)
  /-- ADD (R347). Adds a data register scaled by 2^32 to an accumulator. -/
  | add (die n : Nat)
  /-- SUB (R347). Subtracts a data register scaled by 2^32 from an accumulator. -/
  | sub (die n : Nat)
  /-- ADDA (R347). Adds one accumulator to another. -/
  | adda (die n : Nat)
  /-- CLR (R361). Clears an accumulator. -/
  | clr (die n : Nat)
  /-- NEG (R347). Negates an accumulator. -/
  | neg (die n : Nat)
  /-- ABS (R347). Takes the absolute value of an accumulator. -/
  | abs (die n : Nat)
  /-- ASR (R348). Shifts an accumulator right, truncating. -/
  | asr (die n : Nat)
  /-- ASL (R347). Shifts an accumulator left. -/
  | asl (die n : Nat)
  /-- EXT (R348). Extracts 32 bits of an accumulator into a data register. -/
  | ext (die n : Nat)
  /-- TST (R361). Sets n and z from an accumulator. -/
  | tst (die n : Nat)
  /-- CMP (R361). Sets n and z by comparing two data registers. -/
  | cmp (die n : Nat)
  /-- ADDD (R348). Adds two data registers at 32 bits. -/
  | addd (die n : Nat)
  /-- SUBD (R348). Subtracts two data registers at 32 bits. -/
  | subd (die n : Nat)
  /-- AND (R361). Bitwise AND of two data registers. -/
  | and (die n : Nat)
  /-- OR (R361). Bitwise OR of two data registers. -/
  | or (die n : Nat)
  /-- XOR (R361). Bitwise XOR of two data registers. -/
  | xor (die n : Nat)
  /-- LDI (R361). Loads a register with an immediate. -/
  | ldi (die n : Nat)
  /-- MOV (R361). Copies one register to another. -/
  | mov (die n : Nat)
  /-- LDX (R361). Loads a register directly from X memory. -/
  | ldx (die n : Nat)
  /-- STX (R361). Stores a register directly to X memory. -/
  | stx (die n : Nat)
  /-- LDY (R361). Loads a register directly from Y memory. -/
  | ldy (die n : Nat)
  /-- STY (R361). Stores a register directly to Y memory. -/
  | sty (die n : Nat)
  /-- BR (R352). Branches on a condition after one delay slot. -/
  | br (die n : Nat)
  /-- CALL (R352). Pushes the return address and ST and branches after one delay slot. -/
  | call (die n : Nat)
  /-- RET (R352). Pops PC after one delay slot. -/
  | ret (die n : Nat)
  /-- RTI (R353). Returns from an interrupt, popping PC and ST and swapping back a C3 shadow set. -/
  | rti (die n : Nat)
  /-- REP (R349). Starts a hardware loop over the following body. -/
  | rep (die n : Nat)
  /-- ENDL (R349). Ends the active loop and pops the loop stack. -/
  | endl (die n : Nat)
  /-- PUSHL (R354). Stores the loop state to X memory and clears it. -/
  | pushl (die n : Nat)
  /-- POPL (R354). Restores the loop state from X memory. -/
  | popl (die n : Nat)
  /-- IDLE (R361). Waits for an interrupt, not busy. -/
  | idle (die n : Nat)
  /-- GETT (R364). Takes the next task of the engine's instances, or waits for one. -/
  | gett (die n : Nat)
  /-- PUTT (R364). Completes a task and hands its item on. -/
  | putt (die n : Nat)
  /-- MEM_REFRESH (R377). Refreshes the next bank in rotation. -/
  | memRefresh (die ch : Nat)
  /-- MEM_TEMP_READ (R377). Reads each device's temperature every 10 ms and sets its refresh period. -/
  | memTempRead (die device : Nat) (celsius : Int)
  /-- ACT_WINDOW_END (R378). Clears a bank's activation tracker at the end of its window. -/
  | actWindowEnd (die ch bank : Nat)
  /-- ROW_ACTIVATION_THRESHOLD (R379). Refreshes the neighbour rows of a row whose estimate reaches the threshold and throttles the requester. -/
  | rowActivationThreshold (die ch bank : Nat) (row : RowAct) (reqDie reqUnit : Nat)
  /-- MEM_ECC_UNCORRECTABLE (R376). Applies the outcome of an uncorrectable read by the kind of data read. -/
  | memEccUncorrectable (die ch : Nat) (link : Bool) (what : MemData)
  /-- HEARTBEAT_SEND (R398). Sends a heartbeat on each path every 1 ms. -/
  | heartbeatSend
  /-- HEARTBEAT_RECEIVED (R400). Takes a valid heartbeat, updates path state and the last-heard claim, and decides roles. -/
  | heartbeatReceived (path : Nat) (hb : Heartbeat)
  /-- PAIR_PATH_TIMEOUT (R399). Declares a path DOWN after 3 ms without a valid heartbeat. -/
  | pairPathTimeout (path : Nat)
  /-- PAIR_TAKEOVER (R402). Makes a following part SOLE with the claim after 20 ms of silence on both paths. -/
  | pairTakeover
  /-- REPLAY_WINDOW_END (R404). Sends the decision record or holdings, and commits the window, deciding it alone when its record is missing. -/
  | replayWindowEnd
  /-- DECISION_RECORD_RECEIVED (R404). Applies the leader's decision record and compares digests, muting outputs that disagree. -/
  | decisionRecordReceived (rec : DecRecord)
  /-- HOLDINGS_RECEIVED (R405). Takes the follower's holdings for mending and clears peer-hold marks. -/
  | holdingsReceived (h : Holdings)
  /-- RESYNC_REQUEST_RECEIVED (R411). Replays a follower's resynchronisation request as a refresh request. -/
  | resyncRequestReceived (send : Nat)
  /-- WAKE_SAMPLE (R438). Powers and reads the sampled wake sources once per sample period. -/
  | wakeSample (vals : List (Nat × Int))
  /-- WAKE_DETECT (R437). Latches a continuous wake source at its detection. -/
  | wakeDetect (slot : Nat) (rising : Bool)
  /-- COMMA_EXIT (R443). Runs the exit from Comma state to Run after a wake. -/
  | commaExit (hubOk : Bool) (diesOk : List Nat)
  /-- THERMAL_READING (R486). Reads each die's hottest sensor and raises EV_PWR_THERMAL or the temperature alarm. -/
  | thermalReading (die : Nat) (temp : Int)
  /-- TX_RECEIVER_DETECT (R453). Tests a transmitter for a load at bring-up and every 1 s without link. -/
  | txReceiverDetect (die lane : Nat) (load : Bool)
  /-- TX_SHORT_DETECT (R453). Disables a transmitter whose common-mode monitor finds a short. -/
  | txShortDetect (die lane cause : Nat)
  /-- GPIO_READBACK_SAMPLE (R455). Reads back a GPIO output and raises a mismatch or contention. -/
  | gpioReadbackSample (pin : Nat) (level : Bool)
  /-- GPIO_OPEN_TEST (R456). Applies the pull-up and pull-down test to an input every 100 ms. -/
  | gpioOpenTest (pin : Nat) (up down : Bool)
  /-- LOW_SPEED_READBACK_SAMPLE (R457). Reads back a low-speed output and reports a mismatch without disabling it. -/
  | lowSpeedReadbackSample (die bit : Nat) (differs : Bool)
  /-- ALWAYS_ON_POWER_UP (R42). Powers up the always-on domain, starting MONO at zero, setting time quality free and returning MEM_RATE_SET to code 3. -/
  | alwaysOnPowerUp
  /-- ALARM_CONDITION_END (R475). Ends an alarm source's condition, for example a monitored rail back within range for 1 ms, so that KEY_ALARM_STATUS.present clears and KEY_ALARM_CLEAR can succeed. -/
  | alarmConditionEnd (source : Nat)
  /-- ETH_BLOCK_LOCK_CHANGE (R452). Gains or loses 64B/66B block lock or signal on an Ethernet or CONJ lane, setting link_up, keeping or re-searching the receive polarity and ETH100 lane order. -/
  | ethBlockLockChange (die lane : Nat) (lock signal inverted : Bool) (order : Nat)
  /-- MIX_JOB_COMPLETE (R237). Completes a die's mixer job for a window, reporting its slack against the mix deadline. -/
  | mixJobComplete (die : Nat)
  /-- COMMA_ENTRY_DONE (R441). Ends the entry into Comma state once memory is in self-refresh: writes the OK completion, gates the core domains and hands MONO to the always-on clock. -/
  | commaEntryDone
  /-- OTHER_SLOT_VERIFY_DONE (R69). Ends the verification, after Ready, of the slot not started from, writing its slot_hash into the boot record written at Ready. -/
  | otherSlotVerifyDone
  /-- PEER_COMMAND_RECEIVED (R107). Takes a command arriving over the Conjunction link under the Peer domain, journals it, and either executes it or completes it with DOMAIN_DENIED to the peer. -/
  | peerCommandReceived (d : Desc)
  /-- BAR4_RESIZE (R470). Sets the BAR4 size through the PCIe Resizable BAR capability, which changes the snapshot aperture and HIF_BAR4_STATUS. -/
  | bar4Resize (mib : Nat)
  /-- TS_PAT_PMT_TIMER (R298). Inserts PAT and PMT every 100 ms, and a PCR at least every 40 ms, into a kind 6 transport stream. -/
  | tsPatPmtTimer (die idx : Nat)
  /-- WAKE_N_RELEASE (R443). Releases WAKE# after it has been driven low for 1 ms following a wake. -/
  | wakeNRelease
deriving DecidableEq, Repr

end Sys2Proof
end

