-- ==== Sys2Proof/Decode.lean ====
section
/-!
DEFINITION. The reading of a command from a word of the opcode table. The table gives no row any bits, so no word spells a
command: commands reach the block as the operands of its rows.
-/
namespace Sys2Proof

/-- No row of the table has bits. -/
def decodeTableWord (_nbits _w : Nat) : Option Instr := none

end Sys2Proof
end

