-- ==== Sys2Proof/Machine/RegMap.lean ====
section
/-!
DEFINITION. Where the registers lie in BAR0 (R462, R467, R468): windows, blocks, and the one rule that places a block's
register definitions. Reads of plain registers have no row (assumption 26), so nothing steps by these addresses; they say
which register an offset of a BAR row names.
-/
namespace Sys2Proof.Machine

/-- A register definition: its name, its width in bytes and its array bounds. -/
structure RegDef where
  name : String
  width : Nat
  bounds : List Nat
deriving DecidableEq, Repr

def r4 (name : String) (bounds : List Nat) : RegDef := { name := name, width := 4, bounds := bounds }
def r8 (name : String) (bounds : List Nat) : RegDef := { name := name, width := 8, bounds := bounds }

/-- Blocks of the hub (Table 22-1): offset, and their definitions in the order of their tables. The HIF blocks and the
diagnostic view stand at the offsets that Tables 22-3, 22-5 and 22-6 give. -/
def hubBlocks : List (Nat × List RegDef) :=
  [(0x1000, [r4 "STM_STATUS" [], r4 "STM_BOOT" [], r8 "STM_HISTORY" [8], r4 "STM_FLASH_ADDR" [], r4 "STM_FLASH_CMD" [],
     r4 "STM_FLASH_RESULT" [], r4 "STM_CONTROL" []]),
   (0x100000, [r4 "TIM_STATUS" [], r4 "TIM_NOW_NS" [], r8 "TIM_NOW_SEC" [], r8 "TIM_NOW_MONO" [], r4 "TIM_OFFSET" [],
     r4 "TIM_ERR_EST" [], r4 "TIM_REF_STATUS" []]),
   (0x200000, [r4 "SYN_STATUS" [], r4 "SYN_HASH" [12], r4 "SYN_SLOT_STATUS" [2], r4 "SYN_DIE_STATE" [8],
     r4 "SYN_PAIR_STATUS" [8]]),
   (0x300000, [r4 "PWR_AVS_STATUS" [], r4 "PWR_STATUS" [], r8 "PWR_LAST_WAKE" [], r8 "PWR_LAST_MONO" [], r8 "PWR_SLEEP" [],
     r4 "PWR_SLEEP_U" [], r8 "PWR_WAKE_CFG" [16]]),
   (0x400000, [r8 "JRN_HEAD_SEQ" [], r8 "JRN_TAIL_SEQ" [], r8 "JRN_MIRROR_SEQ" [], r4 "JRN_STATUS" [],
     r4 "JRN_EXPORT_STATUS" [64], r8 "JRN_EXPORT_NEXT" [64]]),
   (0x500000, [r4 "DOM_I3C_STATUS" []]),
   (0x600000, [r8 "KEY_SLOT_STATUS" [16384], r4 "KEY_ALARM_STATUS" []]),
   (0x700000, [r4 "TSK_FOLD_LINK_STATUS" [14], r4 "TSK_FOLD_LINK_ERR" [14], r4 "TSK_ARB_MODE" [], r4 "TSK_PENDING_STATUS" [],
     r4 "TSK_ARB_STATUS" [11, 8]]),
   (0x800000, [r4 "PAIR_STATUS" [], r4 "PAIR_PEER" [], r4 "PAIR_PATH_STATUS" [2], r4 "PAIR_CNT" [8]]),
   (0x900000, [r4 "PIN_LANE_LOOP" [4], r4 "PIN_LANE_LOOP_CNT" [4], r4 "PIN_LANE_STATUS" [4], r4 "PIN_LS_STATUS" [],
     r4 "PIN_GPIO_STATUS" [32], r4 "PIN_PCIE_STATUS" [], r4 "PIN_I3C_STATUS" [], r4 "PIN_REFOUT_CFG" []]),
   (0xA00000, [r4 "MEM_CH_STATUS" [2], r8 "MEM_CH_SWIZZLE" [2], r4 "MEM_CH_CNT" [2, 6], r4 "MEM_STATUS" []]),
   (0xC00000, [r4 "FWD_STATUS" [], r4 "FWD_ENTRY_STATUS" [131072], r4 "FWD_ENTRY_RATE" [131072]])]

/-- Blocks of a media die (Table 22-2). DESIGN CHOICE (log 136): a table's caption is the first mention of the registers it
names, so NET_SDI_PID, which only a Meaning cell names, follows the counters. -/
def dieBlocks : List (Nat × List RegDef) :=
  [(0x000000, [r4 "TIM_PACE" [49], r4 "TIM_SLACK_MIN" [49], r4 "TIM_LATE_COUNT" [49]]),
   (0x100000, [r4 "NET_PORT_STATUS" [8], r4 "NET_PORT_CNT0" [8], r4 "NET_PORT_CNT1" [8], r4 "NET_PORT_CNT2" [8],
     r4 "NET_SDI_PID" [8], r4 "NET_STREAM_STATUS" [4096], r4 "NET_STREAM_CNT" [4096, 10], r4 "NET_SEND_STATUS" [4096],
     r4 "NET_SEND_CNT" [4096, 10]]),
   (0x200000, [r4 "LEG_STATUS" [1024]]),
   (0x300000, [r4 "TRF_QUEUE_STATUS" [1536], r4 "TRF_QUEUE_DEPTH" [1536], r4 "TRF_QUEUE_CNT" [1536, 5], r4 "TRF_QUEUE_MAX" [1536],
     r4 "TRF_HIST" [1536, 2, 16], r8 "TRF_LEG_LINE" [1024], r4 "TRF_LEG_REPORT" [1024]]),
   (0x400000, [r4 "TSK_READY_DEPTH" [256], r8 "TSK_DELAY_STATUS" [], r4 "TSK_CNT" [5], r4 "TSK_FLOW_STATUS" [4096]]),
   (0x500000, [r4 "CIP_STATUS" [], r4 "CIP_LEG_CNT" [1024, 4]]),
   (0x600000, [r4 "MOD_STATUS" [2], r4 "MOD_IQ" [2], r4 "MOD_FREQ" [2], r4 "MOD_FE_RX" [2], r4 "MOD_CNT" [2, 11]]),
   (0x700000, [r4 "COD_CTX_STATUS" [3072], r4 "COD_CTX_CNT" [3072, 12], r4 "COD_ENGINE_STATUS" [12]]),
   (0x800000, [r4 "FBP_STATUS" [], r8 "FBP_MEM" [], r4 "FBP_DESC" [8192]]),
   (0x900000, [r4 "MIX_STATUS" [], r4 "MIX_DECLARED" [], r4 "MIX_CNT" [], r4 "MIX_BUS_STATUS" [256], r4 "MIX_BUS_CNT" [256],
     r4 "MIX_LEG_STATUS" [1024], r4 "MIX_LEG_CNT" [1024, 4], r4 "MIX_XP_SRC" [16384], r4 "MIX_XP_STATUS" [16384],
     r4 "MIX_XP_GAIN" [16384], r4 "MIX_XP_CNT" [16384, 2], r4 "MIX_XP_METER" [16384], r4 "MIX_BUS_METER" [256],
     r4 "MIX_LEG_METER" [1024]]),
   (0xA00000, [r4 "CMP_STATUS" [3], r4 "CMP_CNT" [3, 6], r4 "CMP_LAYER_STATUS" [3, 64], r4 "CMP_GUARD_CRC" [3],
     r4 "CMP_GUARD_LAST" [3]]),
   (0xB00000, [r4 "ENC_CTX_STATUS" [768], r8 "ENC_LAYER_STATUS" [768, 3], r4 "ENC_LAYER_DEBT" [768, 3], r4 "ENC_CTX_CNT" [768, 10],
     r4 "ENC_ENGINE_STATUS" [12]]),
   (0xC00000, [r4 "DSP_STATUS" [32], r4 "DSP_BLOB" [32], r4 "DSP_LOAD" [32], r4 "DSP_PORT_STATUS" [32, 16], r4 "DSP_CNT" [32, 5]]),
   (0xD00000, [r4 "MEM_CH_STATUS" [6], r8 "MEM_CH_SWIZZLE" [6], r4 "MEM_CH_CNT" [6, 6], r4 "MEM_STATUS" []]),
   (0xE00000, [r4 "PIN_LANE_LOOP" [8], r4 "PIN_LANE_LOOP_CNT" [8], r4 "PIN_LANE_STATUS" [8], r4 "PIN_LS_STATUS" []]),
   (0xF00000, [r4 "PAIR_MUTE" [128]])]

/-- Width times bounds, rounded up to a power of two. -/
def regSize (r : RegDef) : Nat :=
  let n := r.bounds.foldl (· * ·) r.width
  (((List.range 32).map (2 ^ ·)).find? fun p => decide (n ≤ p)).getD n

/-- Each definition of a block with its base: the first offset, from the end of the one before it, that is a multiple of its
size. -/
def placeRegs : Nat → List RegDef → List (Nat × RegDef)
  | _, [] => []
  | at_, r :: rest =>
    let base := (at_ + regSize r - 1) / regSize r * regSize r
    (base, r) :: placeRegs (base + regSize r) rest

/-- Number of an element in row-major order. -/
def rowMajor : List Nat → List Nat → Nat → Nat
  | b :: bs, i :: is, n => rowMajor bs is (n * b + i)
  | _, _, n => n

/-- Address in BAR0 of an element of a register: window 0 is the hub, window `d` media die `d`. -/
def regAddr (window : Nat) (name : String) (index : List Nat) : Option Nat :=
  (if window = 0 then hubBlocks else dieBlocks).findSome? fun b =>
    (placeRegs 0 b.2).findSome? fun p =>
      if p.2.name = name then some (window * 0x2000000 + b.1 + p.1 + rowMajor p.2.bounds index 0 * p.2.width) else none

end Sys2Proof.Machine
end

