-- ==== Sys2Proof/Config.lean ====
section
/-!
DEFINITION. What an implementation fixes, and the free values: constants without a body, so that no proof can see what
they are. The spec's own parameters of a part (variant, grade, serial) are state (assumption 1).
-/
namespace Sys2Proof.Config

/-- A value the spec leaves open, drawn afresh by a counter of the state: the die wrapping key of R154, the random
source of R378, randomised report intervals of R139 and every value the spec does not state. -/
opaque freeNat : Nat → Nat

/-- A signed value the spec leaves open. -/
opaque freeInt : Nat → Int

/-- A 10-bit sample of a picture (assumption 4): by the picture's serial number, component, x and y. -/
opaque sample : Nat → Nat → Nat → Nat → Nat

/-- The scaler of R249, whose coefficients the spec does not list: a scaled sample by destination width and height, x, y
and the rows of the decimated plane. -/
opaque scaler : Nat → Nat → Nat → Nat → List (List Nat) → Nat

/-- Where the linear fade of Table 10-6 stands at its first sample: the spec gives neither its end points nor their place. -/
opaque fadeStep : Nat

/-- An entry component of a 3D LUT preset of Table 11-6, by preset, entry and component. -/
opaque lutPreset : Nat → Nat → Nat → Nat

/-- What is added before the truncation of a LUT interpolation or an encoding matrix, whose rounding the spec leaves open:
in thousandths. -/
opaque roundTerm : Nat

end Sys2Proof.Config
end

