-- ==== Sys2Proof/Machine/Tbl.lean ====
section
/-!
DEFINITION. Sparse tables: lists of (key, value) pairs with keys strictly rising. An absent key reads as a default the
caller names. Byte, field and sign helpers used by every chapter.
-/
namespace Sys2Proof.Machine

/-- A sparse table, keys strictly rising (`tSorted`). -/
abbrev Tbl (α : Type) := List (Nat × α)

/-- The value at a key, if the table lists it. -/
def tget? {α : Type} : Tbl α → Nat → Option α
  | [], _ => none
  | (k, v) :: r, i => if k = i then some v else tget? r i

/-- The value at a key, or the default. -/
def tget {α : Type} (t : Tbl α) (i : Nat) (dflt : α) : α := (tget? t i).getD dflt

/-- Write one key, keeping the keys strictly rising. -/
def tset {α : Type} : Tbl α → Nat → α → Tbl α
  | [], i, a => [(i, a)]
  | (k, v) :: r, i, a =>
    if i < k then (i, a) :: (k, v) :: r
    else if i = k then (i, a) :: r
    else (k, v) :: tset r i a

/-- Remove one key. -/
def tdel {α : Type} : Tbl α → Nat → Tbl α
  | [], _ => []
  | (k, v) :: r, i => if k = i then tdel r i else (k, v) :: tdel r i

/-- Change the value at a key, starting from the default when it is absent. -/
def tmod {α : Type} (t : Tbl α) (i : Nat) (dflt : α) (f : α → α) : Tbl α := tset t i (f (tget t i dflt))

/-- Change the value at a key only if the table lists it. -/
def tupd {α : Type} (t : Tbl α) (i : Nat) (f : α → α) : Tbl α :=
  match tget? t i with
  | some v => tset t i (f v)
  | none => t

/-- Change every listed value. -/
def tmap {α : Type} (t : Tbl α) (f : Nat → α → α) : Tbl α := t.map fun kv => (kv.1, f kv.1 kv.2)

/-- Keys strictly rising: the one canonical form. -/
def tSorted {α : Type} : Tbl α → Bool
  | [] => true
  | [_] => true
  | (a, _) :: (b, y) :: r => decide (a < b) && tSorted ((b, y) :: r)

/-! ## Numbers, bytes and fields -/

/-- Bits [lo + len − 1 : lo] of a number. -/
def bits (n lo len : Nat) : Nat := (n >>> lo) % 2 ^ len

/-- Bit `i` of a number. -/
def bit (n i : Nat) : Bool := n.testBit i

/-- A Bool as a bit. -/
def b2n (b : Bool) : Nat := if b then 1 else 0

/-- The least of a number and a bound: a count that holds at the bound. -/
def hold (bound n : Nat) : Nat := if n ≤ bound then n else bound

/-- `len` bytes of a number, lowest first (R9). -/
def leBytes : Nat → Nat → List Byte
  | 0, _ => []
  | k + 1, n => BitVec.ofNat 8 n :: leBytes k (n / 256)

/-- The number that bytes spell, lowest first (R9). -/
def leNat : List Byte → Nat
  | [] => 0
  | b :: r => b.toNat + 256 * leNat r

/-- The signed value of the low `w` bits of a number. -/
def sext (w n : Nat) : Int :=
  let v := n % 2 ^ w
  if 2 * v ≥ 2 ^ w then (v : Int) - (2 ^ w : Nat) else v

/-- An integer held to two's complement of `w` bits, saturating (R494). -/
def satS (w : Nat) (i : Int) : Int :=
  let hi : Int := (2 ^ (w - 1) : Nat)
  if i < -hi then -hi else if i ≥ hi then hi - 1 else i

/-- The `w`-bit two's complement pattern of an integer. -/
def tc (w : Nat) (i : Int) : Nat := (i % ((2 ^ w : Nat) : Int)).toNat

/-- Ceiling division. -/
def cdiv (a b : Nat) : Nat := (a + b - 1) / b

/-- The least entry of a list, if it has one. -/
def minOf? : List Nat → Option Nat
  | [] => none
  | a :: r => match minOf? r with
    | none => some a
    | some b => some (if a ≤ b then a else b)

/-- The least whole number below a bound that meets a test. -/
def firstBelow (p : Nat → Bool) (bound : Nat) : Option Nat := (List.range bound).find? p

/-- Replace the element at an index. -/
def listSet {α : Type} (l : List α) (i : Nat) (a : α) : List α := l.set i a

/-- The element at an index, or the default. -/
def listGet {α : Type} (l : List α) (i : Nat) (dflt : α) : α := l.getD i dflt

end Sys2Proof.Machine
end

