-- ==== Sys2Proof/Machine/Sign.lean ====
section
/-!
DEFINITION. The checks of stored bytes: CRC-32 of IEEE 802.3 (R62, R69), and ECDSA over P-384 with SHA-384 (R64), after
FIPS 186-5 with the curve's parameters of SP 800-186 (assumption 107).
-/
namespace Sys2Proof.Machine

/-- `n` bytes of a number, highest first. -/
def beBytes (n v : Nat) : List Byte := (leBytes n v).reverse

/-- The number that bytes spell, highest first. -/
def beNat (l : List Byte) : Nat := l.foldl (fun a b => a * 256 + b.toNat) 0

/-! ## CRC-32 -/

/-- One bit of the reflected remainder by the polynomial 0x04C11DB7. -/
def crcBit (c : Nat) : Nat := if bit c 0 then c / 2 ^^^ 0xEDB88320 else c / 2

def crcByte (c b : Nat) : Nat :=
  crcBit (crcBit (crcBit (crcBit (crcBit (crcBit (crcBit (crcBit (c ^^^ b))))))))

/-- CRC-32 of numbers below 256: all ones at the start, inverted at the end. -/
def crcNats (l : List Nat) : Nat := l.foldl crcByte 0xFFFFFFFF ^^^ 0xFFFFFFFF

/-- CRC-32 of a byte string. -/
def crc32 (l : List Byte) : Nat := crcNats (l.map BitVec.toNat)

/-! ## P-384 -/

/-- The field's prime, the group's order, the coefficient b and the base point. -/
def ecP : Nat := 2 ^ 384 - 2 ^ 128 - 2 ^ 96 + 2 ^ 32 - 1
def ecN : Nat := 0xffffffffffffffffffffffffffffffffffffffffffffffffc7634d81f4372ddf581a0db248b0a77aecec196accc52973
def ecB : Nat := 0xb3312fa7e23ee7e4988e056be3f82d19181d9c6efe8141120314088f5013875ac656398d8a2ed19d2a85c8edd3ec2aef
def ecGx : Nat := 0xaa87ca22be8b05378eb1c71ef320ad746e1d3b628ba79b9859f741e082542a385502f25dbf55296c3a545e3872760ab7
def ecGy : Nat := 0x3617de4a96262c6f5d9e98bf9292dc29f8f41dbd289a147ce9da3113b5f0b8c00a60b1ce1d7e819d7a431d7c90ea0e5f

/-- A point in Jacobian coordinates; z = 0 is the point at infinity. -/
structure EcPoint where
  x : Nat
  y : Nat
  z : Nat
deriving DecidableEq, Repr

def ecInf : EcPoint := { x := 1, y := 1, z := 0 }
def ecBase : EcPoint := { x := ecGx, y := ecGy, z := 1 }

/-- Difference modulo the prime of numbers below it. -/
def ecSub (a b : Nat) : Nat := (a + ecP - b) % ecP

def ecMul (a b : Nat) : Nat := a * b % ecP

/-- Twice a point (the coefficient a is −3). -/
def ecDouble (q : EcPoint) : EcPoint :=
  let delta := ecMul q.z q.z
  let gamma := ecMul q.y q.y
  let beta := ecMul q.x gamma
  let alpha := 3 * ecMul (ecSub q.x delta) (q.x + delta) % ecP
  let x := ecSub (ecMul alpha alpha) (8 * beta % ecP)
  let z := ecSub (ecMul (q.y + q.z) (q.y + q.z)) ((gamma + delta) % ecP)
  let y := ecSub (ecMul alpha (ecSub (4 * beta % ecP) x)) (8 * ecMul gamma gamma % ecP)
  { x := x, y := y, z := z }

/-- The sum of two points. -/
def ecAdd (p q : EcPoint) : EcPoint :=
  if p.z = 0 then q
  else if q.z = 0 then p
  else
    let z1 := ecMul p.z p.z
    let z2 := ecMul q.z q.z
    let u1 := ecMul p.x z2
    let u2 := ecMul q.x z1
    let s1 := ecMul p.y (ecMul z2 q.z)
    let s2 := ecMul q.y (ecMul z1 p.z)
    if u1 = u2 then (if s1 = s2 then ecDouble p else ecInf)
    else
      let h := ecSub u2 u1
      let r := ecSub s2 s1
      let h2 := ecMul h h
      let h3 := ecMul h h2
      let v := ecMul u1 h2
      let x := ecSub (ecSub (ecMul r r) h3) (2 * v % ecP)
      { x := x, y := ecSub (ecMul r (ecSub v x)) (ecMul s1 h3), z := ecMul h (ecMul p.z q.z) }

/-- The point that two bits choose: nothing, the base point, the key, or their sum. -/
def ecPick (a b : Bool) (g k gk acc : EcPoint) : EcPoint :=
  if a then (if b then ecAdd acc gk else ecAdd acc g) else if b then ecAdd acc k else acc

/-- u₁·G + u₂·K over the lowest `n` bits, highest bit first. -/
def ecSum (u1 u2 : Nat) (g k gk : EcPoint) : Nat → EcPoint → EcPoint
  | 0, acc => acc
  | n + 1, acc => ecSum u1 u2 g k gk n (ecPick (u1.testBit n) (u2.testBit n) g k gk (ecDouble acc))

/-- b ^ e modulo m over the lowest `n` bits of e. -/
def powMod (b e m : Nat) : Nat → Nat → Nat
  | 0, acc => acc
  | n + 1, acc => powMod b e m n (if e.testBit n then acc * acc % m * b % m else acc * acc % m)

/-- A carried key is an uncompressed point of the curve. -/
def ecKeyOk (k : EcKey) : Bool :=
  k.form == 4 && decide (k.x < ecP) && decide (k.y < ecP) &&
  k.y * k.y % ecP == (k.x * k.x % ecP * k.x + (ecP - 3) * k.x + ecB) % ecP

/-- The 97 bytes of a key. -/
def ecKeyBytes (k : EcKey) : List Byte := BitVec.ofNat 8 k.form :: (beBytes 48 k.x ++ beBytes 48 k.y)

/-- ECDSA verification of a signature over a message. -/
def ecVerify (k : EcKey) (g : EcSig) (msg : List Byte) : Bool :=
  if !ecKeyOk k || g.r = 0 || g.s = 0 || decide (ecN ≤ g.r) || decide (ecN ≤ g.s) then false
  else
    let w := powMod g.s (ecN - 2) ecN 384 1
    let u1 := beNat (sha384 msg) * w % ecN
    let u2 := g.r * w % ecN
    let key : EcPoint := { x := k.x, y := k.y, z := 1 }
    let q := ecSum u1 u2 ecBase key (ecAdd ecBase key) 384 ecInf
    let zz := ecMul q.z q.z
    q.z != 0 && (q.x == ecMul g.r zz || (decide (g.r + ecN < ecP) && q.x == ecMul (g.r + ecN) zz))

/-- A digest, its byte 0 in the highest bits. -/
def digestOf (msg : List Byte) : Digest := BitVec.ofNat 384 (beNat (sha384 msg))

end Sys2Proof.Machine
end

