-- ==== Sys2Proof/Machine/StCore.lean ====
section
/-!
DEFINITION. The state of the hub: events and outputs, counters, time base (chapter 02), Fold links (01), the image and
its slots (03), the host link (04, 22), and the journal (05). Plain data; reset values stand in Machine/State.lean.
-/
namespace Sys2Proof.Machine

/-! ## Events, outputs, counters -/

/-- One item of an event's data field (Table 04-8a): unsigned of a width in bytes, held at the top of its range, or
two's complement, saturating. -/
inductive Item where
  | u (width : Nat) (n : Nat)
  | s (width : Nat) (i : Int)
deriving DecidableEq, Repr

/-- An event record (Table 04-8). -/
structure EvRec where
  type : Nat
  level : Nat
  quality : Nat
  sec : Nat
  ns : Nat
  obj : Nat
  data : List Item
deriving DecidableEq, Repr

/-- A completion (Table 04-4). -/
structure Completion where
  tag : Nat
  status : Nat
  ostate : Nat
  seqLo : Nat
  detail : Nat
deriving DecidableEq, Repr

/-- A journal record (Table 05-3). -/
structure JRec where
  seq : Nat
  sec : Nat
  ns : Nat
  monoLo : Nat
  path : Nat
  origin : Nat
  result : Nat
  obj : Nat
  opcode : Nat
  old : Nat
  new : Nat
  chain : BitVec 128
deriving DecidableEq, Repr

/-- What leaves the block, in the model's own field `sent`, newest first. -/
inductive Out where
  /-- an MSI-X vector of a function (R90) -/
  | msix (fn vector : Nat)
  /-- a completion reaches a completion ring, with the count of completions written (R89) -/
  | completion (fn ring : Nat) (c : Completion) (written : Nat)
  /-- the completion of a peer's command goes back over the Conjunction link (R107) -/
  | peerCompletion (c : Completion)
  /-- an export queue writes a record and its count (R123) -/
  | exported (queue : Nat) (r : JRec) (written : Nat)
  /-- an I3C private write is NACKed (R106) -/
  | i3cNack
  /-- status byte and completion of an I3C private read (R106) -/
  | i3cRead (status : Nat) (c : Option Completion)
  /-- an AVSBus voltage request in mV (R54) -/
  | avs (mv : Nat)
  /-- a pin of the board is driven: 1 GPIO, 2 GPIO in high impedance, 3 CLAIM_OUT, 4 WAKE#, 5 REF_OUT and 6 LTC_OUT while disabled,
  7 both in high impedance, 0x100 ALARM_N; its index and level -/
  | pin (code : Nat) (index : Nat) (level : Bool)
  /-- a packet or frame leaves: kind code, die, index, and what the rule says it carries -/
  | net (kind : Nat) (die : Nat) (index : Nat) (vals : List Int)
  /-- a message to the paired part (chapter 18) -/
  | peer (kind : Nat) (vals : List Nat)
  /-- a decision record, and the holdings of a follower (R404, R405) -/
  | decision (r : DecRecord)
  | holdings (h : Holdings)
  /-- the result of a register or port read -/
  | read (vals : List Nat)
deriving DecidableEq, Repr

/-- What an event rate limit is kept for: the event type and two indexes. -/
structure LimId where
  ev : Nat
  i : Nat
  j : Nat
deriving DecidableEq, Repr

/-! ## Boundaries and held commands (R49, R99) -/

/-- The kind of boundary a command applies at. -/
inductive Boundary where
  /-- sample boundary of 48 kHz audio (R43) -/
  | sample
  /-- audio window start of a length in ns (R43) -/
  | audio (len : Nat)
  /-- window start of a video rate (R44) -/
  | video (num den : Nat)
  /-- a fixed grid of device time: multiples of a length in ns -/
  | grid (len : Nat)
  /-- any nanosecond: the first instant of device time -/
  | instant
deriving DecidableEq, Repr

/-- A command held pending until its boundary (R99). `waits`: a command the unit itself holds, such as TIM_SET in REF
mode (R59), ended by its own rows. -/
structure Pend where
  d : Desc
  due : Nat
  kind : Boundary
  late : Bool
  order : Nat
  waits : Bool
  before : Nat
deriving DecidableEq, Repr

/-! ## Time base (chapter 02) -/

/-- What an Announce message says of a master (R38): the six attributes in their order, and the sender's port
identity, which takes no part in the comparison. -/
structure Master where
  attrs : List Nat
  sender : Nat
  /-- passes the best master clock algorithm of IEEE 1588-2019 -/
  qualified : Bool
  last : Nat
  interval : Nat
deriving DecidableEq, Repr

structure TimSt where
  mode : Nat
  quality : Nat
  activePort : Nat
  refPresent : Bool
  refInverted : Bool
  tenPresent : Bool
  ptpState : Nat
  latchSec : Nat
  latchMono : Nat
  offset : Int
  errEst : Nat
  domain : Nat
  portA : Nat
  portB : Nat
  stepUs : Nat
  slewPpm : Nat
  refEn : Bool
  tenEn : Bool
  rateNum : Nat
  rateDen : Nat
  /-- consecutive Syncs or edges that met the lock condition (R39) -/
  lockRun : Nat
  /-- a TIM_SET has applied since REF mode was selected (R39) -/
  setDone : Bool
  /-- given time, execution instant of a TIM_SET that waits for an edge (R59) -/
  setWait : Option (Nat × Nat)
  refPulses : Nat
  refMissed : Nat
  refLast : Option Nat
  masterA : Option Master
  masterB : Option Master
  delay : Int
  /-- frequency of REF_10M and of REF_FRAME against the TCXO, in parts per 10^9, as last measured, and what has gathered of
  the one in use (R37) -/
  tenPpb : Int
  framePpb : Int
  freqAcc : Int
  /-- offset still to be slewed, and the accumulator of the slew limit -/
  slewLeft : Int
  slewAcc : Nat
  /-- no window starts before this device time (backward step, R40) -/
  holdUntil : Nat
  /-- device time of the last step, from which windows are held -/
  holdFrom : Nat
  /-- intervals of device time whose windows were held before another step, since a hold last began afresh -/
  heldBefore : List (Nat × Nat)
  lastWindowStop : Nat
  guards : List Nat
deriving DecidableEq, Repr

structure PaceSt where
  /-- (enabled, threshold per mille) by die × 8 + class (R53) -/
  alarms : Tbl (Bool × Nat)
  /-- TIM_PACE: (pace, busy) by die × 64 + unit -/
  pace : Tbl (Nat × Nat)
  /-- TIM_SLACK_MIN by die × 64 + unit -/
  slackMin : Tbl Int
  /-- least slack and least slack ratio (per mille) of the interval that runs, by die × 64 + unit -/
  accSlack : Tbl Int
  accRatio : Tbl Int
  /-- least slack ratio of the voltage loop's interval, and whether a job was late in it (R54) -/
  avsRatio : Option Int
  anyLate : Bool
deriving DecidableEq, Repr

structure AvsSt where
  target : Nat
  hyst : Nat
  capMv : Nat
  enabled : Bool
  fault : Bool
  atCap : Bool
  atFloor : Bool
  requestMv : Nat
  ratioMin : Nat
  acksMissed : Nat
  /-- MONO of the last request sent -/
  sentAt : Option Nat
  /-- ns the least ratio has stayed above target plus hysteresis -/
  aboveNs : Nat
deriving DecidableEq, Repr

/-! ## Fold links (chapter 01) -/

structure FoldLink where
  /-- code of Table 01-4 -/
  state : Nat
  rerouted : Bool
  retrainSpent : Bool
  load : Nat
  /-- device ns (MONO) of the last transition to DOWN, for the retrain after 100 ms -/
  downAt : Nat
  trainAt : Nat
  /-- transfers whose first check failed on the link and whose retry is under way, with their directions (R22) -/
  retry : List (Nat × Nat)
deriving DecidableEq, Repr

/-! ## Image, slots and re-structure (chapter 03) -/

/-- A boot record copy (Table 03-6); `rsv1` is byte 11, `rsv2` bytes 14 and 15. -/
structure BootCopy where
  magic : Nat
  sequence : Nat
  preferred : Nat
  limit : Nat
  attemptMirror : Nat
  rsv1 : Nat
  watchdogMs : Nat
  rsv2 : Nat
  hashA : BitVec 192
  hashB : BitVec 192
  crc32 : Nat
deriving DecidableEq, Repr

/-- A SYN_STAGE in progress (R73). -/
structure Staging where
  d : Desc
  target : Nat
  image : Image
deriving DecidableEq, Repr

/-- A re-structure of a media die in progress (R76, R77). -/
structure Restructure where
  d : Desc
  die : Nat
  step : Nat
  /-- MONO at t0, or at the start of the rollback; and at step 2. `step` is the step in progress. -/
  t0 : Nat
  t2 : Nat
  /-- device time of the 1 ms audio window start at which step 2 is due -/
  quiesceAt : Nat
  image : Image
  /-- the running image before, held since step 1 -/
  prev : Image
  fromSlot : Option Nat
  prefer : Bool
  rollback : Bool
  failStep : Nat
deriving DecidableEq, Repr

structure SynSt where
  run : Option Image
  slotA : Option Image
  slotB : Option Image
  ram : Option Image
  boot0 : Option BootCopy
  boot1 : Option BootCopy
  startedSlot : Nat
  differs : Bool
  /-- dies whose sections come from an image staged to RAM (Table 03-10) -/
  ramDies : List Nat
  /-- the staged copy in hub GDDR6 no longer reads as written (Table 16-3) -/
  ramDamaged : Bool
  lastRule : Nat
  /-- SYN_SLOT_STATUS: (state, rule) of slots A and B -/
  slotStA : Nat × Nat
  slotStB : Nat × Nat
  /-- SYN_DIE_STATE: (state, offline ms) by die -/
  dies : Tbl (Nat × Nat)
  staging : Option Staging
  rest : Option Restructure
  /-- MONO at which the restart of R74 is due -/
  restartAt : Option Nat
deriving DecidableEq, Repr

/-! ## Host link (chapters 04 and 22) -/

structure SubRing where
  fault : Bool
  base : Nat
  depth : Nat
  cq : Nat
  weight : Nat
  fetched : Nat
  waiting : List Desc
deriving DecidableEq, Repr

structure CmpRing where
  base : Nat
  depth : Nat
  writeBack : Nat
  vector : Nat
  coalCount : Nat
  coalUs : Nat
  written : Nat
  returned : Nat
  unsignalled : Nat
  firstAt : Nat
  backlog : List Completion
deriving DecidableEq, Repr

structure Evq where
  classMask : Nat
  dieMask : Nat
  threshold : Nat
  intLevel : Nat
  vector : Nat
  recs : List EvRec
  /-- the head window (Table 04-11) -/
  head : EvRec
  underrun : Bool
deriving DecidableEq, Repr

structure Fn where
  sub : Tbl SubRing
  cmp : Tbl CmpRing
  evq : Tbl Evq
  directWait : List Desc
  directOut : Nat
  directFifo : List Completion
  /-- the direct completion head window -/
  directHead : Completion
  /-- how many times the function has been reset (R83): the model's own count -/
  epoch : Nat
  /-- the 64-bit register whose high half is latched, and the latched half (R463) -/
  latch : Option (WideReg × Nat)
deriving DecidableEq, Repr

structure HostSt where
  fns : Tbl Fn
  /-- (mask bit, pending bit) by function × 4096 + vector -/
  msix : Tbl (Bool × Bool)
  /-- message address (low, high) and message data words of the MSI-X tables (Table 04-2), by function × 16384 + offset / 4;
  an unlisted word reads 0 -/
  msixWords : Tbl Nat
  /-- HIF_EVQ_INT_MASK by function -/
  evqMask : Tbl Nat
  scratch : List Nat
  lastFn : Nat
  lastBar : Nat
  lastOffset : Nat
  linkSpeed : Nat
  linkWidth : Nat
  flit : Bool
  vfsEnabled : Nat
  bar4Mib : Nat
  /-- the backing of BAR4, which snapshots write (R470) -/
  backing : List Host.Cell
  /-- HIF_TEMP: MONO at the last reading, and the temperature in 0.1 °C, by die; it is valid for 10 ms -/
  temp : Tbl (Nat × Int)
  /-- R88: the queue the command processor is at and how many more it takes there -/
  rot : Option (Nat × Nat)
  rotLeft : Nat
  /-- commands applied at their commit times, newest first, 1,024 per function: (fn, ring, tag, order, seq) (R329) -/
  applied : List (Nat × Nat × Nat × Nat × Nat)
  orders : Nat
deriving DecidableEq, Repr

/-! ## Journal (chapter 05) -/

structure ExportQ where
  enabled : Bool
  full : Bool
  next : Nat
  depth : Nat
  base : Nat
  writeBack : Nat
  consumedAt : Nat
  mask : Nat
  vector : Nat
  intCount : Nat
  written : Nat
  consumed : Nat
  unsignalled : Nat
  firstAt : Nat
  lastPoll : Nat
deriving DecidableEq, Repr

structure JrnSt where
  head : Nat
  /-- records of this start in the ring, newest first, at most 16,777,216 -/
  ring : List JRec
  /-- records made before the ring exists wait here, newest first (R118) -/
  ringUp : Bool
  buffer : List JRec
  lastChain : BitVec 128
  /-- chain value of the newest record overwritten in the ring, for the gap record (R121) -/
  lostChain : BitVec 128
  /-- records on flash, newest first, and how many were ever programmed (sector accounting, R120) -/
  mirror : List JRec
  programmed : Nat
  backlog : List JRec
  unmirrored : Nat
  retried : Bool
  mirrorFault : Bool
  verify : Option (Desc × Nat × Nat)
  exports : Tbl ExportQ
  lastAnchor : Nat
  /-- anchors of this start, newest first: (seq, sec, ns, MONO) -/
  anchors : List (Nat × Nat × Nat × Nat)
deriving DecidableEq, Repr

/-- The I3C port (R106). -/
structure I3cSt where
  busy : Bool
  last : Option Completion
  pendingRead : Bool
deriving DecidableEq, Repr

end Sys2Proof.Machine
end

