-- ==== Sys2Proof/Machine/StBoard.lean ====
section
/-!
DEFINITION. The state of the key store (chapter 07), GDDR6 (16), the start sequencer (19), power (20), the pin monitors
(21) and the reference outputs (23).
-/
namespace Sys2Proof.Machine

/-! ## Key store (chapter 07) -/

/-- A generation of a slot (R152): its number and what KEY_WRITE gave it. -/
structure KeyGen where
  gen : Nat
  profile : Nat
  mode : Nat
  tagLen : Nat
  halves : Nat
  rx : BitVec 640
  tx : BitVec 640
deriving DecidableEq, Repr

structure KeySlot where
  /-- last generation given, 0 before the first write -/
  counter : Nat
  cur : Option KeyGen
  /-- previous generation held by a grace, and the MONO at which the grace ends (R153) -/
  prev : Option (KeyGen × Nat)
  /-- generations no longer current nor in grace that operations still bind -/
  old : List KeyGen
  /-- MONO of the last erasure, for the race of R155 -/
  erasedAt : Option Nat
deriving DecidableEq, Repr

/-- An operation in the fabric (R152): the packet of a receive stream or send stream it works on and the generation it
binds, 0 when it found no key. -/
structure CipOp where
  id : Nat
  die : Nat
  /-- leg key and stream key -/
  leg : Nat
  stream : Nat
  rx : Bool
  seq : Nat
  slot : Nat
  gen : Nat
  /-- waits for its die's cache entry (R154) -/
  waiting : Bool
  level : Nat
  /-- blocks of its packet, and its pipeline in an unrolled fabric (R149) -/
  blocks : Nat
  pipe : Nat
  /-- 0 waits for its turn, 1 in service, 2 its cipher work is done -/
  st : Nat
  /-- index of a received SRTP packet (R146) -/
  index : Nat
  /-- an RTCP packet that leaves when its work is done: kind code, index, and what it carries -/
  report : Option (Nat × Nat × List Int)
deriving DecidableEq, Repr

structure KeySt where
  slots : Tbl KeySlot
  /-- die caches: (slot, generation), least recently used first, by die -/
  cache : Tbl (List (Nat × Nat))
  /-- die wrapping key of this start: an index into the free values (R154) -/
  wrapDraw : Nat
  alarmLow : Bool
  latched : Nat
  /-- conditions present now, of disabled sources too -/
  present : Nat
  enabled : Nat
  /-- dies beyond the temperature margin, not yet 3 °C back inside it (R486) -/
  hotDies : Nat
  count : Nat
  armed : Bool
  ops : List CipOp
  nextOp : Nat
deriving DecidableEq, Repr

/-- Authentication threshold of a leg (R159): F, T, failure instants (MONO, newest first), MONO of the last
EV_CIP_AUTH_FAIL while it may not be raised again, and the second that runs: its start and the failures in it. -/
structure AuthSt where
  f : Nat
  t : Nat
  fails : List Nat
  raisedAt : Option Nat
  second : Option (Nat × Nat)
deriving DecidableEq, Repr

/-! ## GDDR6 (chapter 16) -/

structure MemChan where
  state : Nat
  rate : Nat
  density16 : Bool
  mirrored : Bool
  byteSwap : Bool
  cause : Nat
  pin : Nat
  temp : Nat
  swizzle : Nat
  rotor : Nat
  lastRefresh : Nat
  hot : Bool
deriving DecidableEq, Repr

/-- Activation tracker of one bank (R378): entries (row, count), start of its window, threshold in force. -/
structure Tracker where
  rows : List (Nat × Nat)
  since : Nat
  threshold : Nat
deriving DecidableEq, Repr

structure MemSt where
  /-- channels by die × 8 + channel -/
  chans : Tbl MemChan
  poolEcc : Tbl Bool
  threshold : Tbl Nat
  /-- by (die × 8 + channel) × 16 + bank -/
  trackers : Tbl Tracker
  /-- throttled requesters: (die × 8 + channel, requester die, unit, until MONO) -/
  throttles : List (Nat × Nat × Nat × Nat)
  /-- MEM_RATE_SET, kept by the always-on domain -/
  rateTarget : Nat
  /-- MONO of the uncorrectable reads of the last second, by die × 8 + channel -/
  eccSince : Tbl (List Nat)
deriving DecidableEq, Repr

/-! ## Start sequencer (chapter 19) -/

inductive Phase where
  | starting | ready | stem
deriving DecidableEq, Repr

/-- An entry of STM_HISTORY (Table 19-6). -/
structure Hist where
  result : Nat
  step : Nat
  attempt : Nat
  slot : Nat
  degraded : Bool
  durationMs : Nat
deriving DecidableEq, Repr

/-- A Stem flash operation in progress (R427). -/
structure StemOp where
  op : Nat
  addr : Nat
  len : Nat
deriving DecidableEq, Repr

structure StartSt where
  porstLow : Bool
  perstLow : Bool
  supplyLow : Nat
  phase : Phase
  /-- a start has begun at step 1 and has not ended -/
  begun : Bool
  t0 : Nat
  /-- last step of Table 19-1 begun -/
  step : Nat
  /-- a failed attempt below N restarts from ROM at this MONO at the latest (R421) -/
  restartBy : Option Nat
  reason : Nat
  attempt : Nat
  limit : Nat
  slot : Nat
  degraded : Bool
  standbyLost : Bool
  altUsed : Bool
  debugUnlocked : Bool
  unlockRefused : Nat
  watchdogMs : Nat
  recordDefault : Bool
  /-- always-on: attempt counter, history newest first, standby supply lost since the last start -/
  counter : Nat
  history : List Hist
  standbyGone : Bool
  /-- failed attempts since the last Ready, newest first: (history entry, MONO at failure) -/
  failed : List (Hist × Nat)
  /-- the failed previous attempt still owed its action 0x0286 -/
  owed : Option (Hist × Nat)
  flashAddr : Nat
  flashOp : Option StemOp
  flashOutcome : Nat
  flashRule : Nat
  /-- flash data window, bytes not listed read zero -/
  window : List Host.Cell
  /-- reason of the die held last, and a lane found unusable, in this start (R424) -/
  lastHeld : Nat
  lanesBad : Bool
  /-- slot whose slot_hash is still owed a verification after Ready (R69) -/
  otherVerify : Option Nat
deriving DecidableEq, Repr

/-! ## Power (chapter 20) -/

structure WakeCfg where
  kind : Nat
  target : Nat
  compare : Nat
  threshold : Int
  debounce : Nat
  delay : Nat
  /-- payload bytes 0 to 7 as given -/
  bytes : Nat
deriving DecidableEq, Repr

structure PwrSt where
  /-- 0 Run (or Idle, by R434), 2 entering, 3 Comma, 4 waking -/
  state : Nat
  monoRestarted : Bool
  tcxoReleased : Bool
  mask : Nat
  lastSource : Nat
  lastAbandoned : Bool
  lastLatched : Nat
  lastValue : Int
  lastMono : Nat
  sleepNs : Nat
  sleepU : Nat
  slots : Tbl WakeCfg
  /-- latches of slots 0 to 15 and, bit 16, of an alarm -/
  latches : Nat
  /-- source, MONO and value of the first latch of the present entry or sleep -/
  first : Option (Nat × Nat × Int)
  entryVals : Tbl Int
  runs : Tbl Nat
  kept : List (Nat × BarWrite)
  /-- events raised in Comma state, oldest first, delivered at Run (R442) -/
  heldEv : List EvRec
  entry : Option Desc
  /-- step of Table 20-3 the entry is at: 2 waits for the peer to lead, 3 released by it, 5 latches to be examined -/
  entryStep : Nat
  periodMs : Nat
  aonPpm : Nat
  tcxoPin : Option (Nat × Bool)
  entryMono : Nat
  entryDev : Nat
  /-- MONO at the handover edge, and always-on ticks since it (R444) -/
  handMono : Nat
  aonTicks : Nat
  lastSample : Nat
  /-- MONO since which WAKE# is driven low -/
  wakeLow : Option Nat
deriving DecidableEq, Repr

/-! ## Pins (chapter 21) and reference outputs (chapter 23) -/

structure LanePin where
  tx : Nat
  rxInverted : Bool
  los : Bool
  order : Nat
deriving DecidableEq, Repr

structure GpioPin where
  output : Bool
  driven : Bool
  read : Bool
  fault : Nat
  openTest : Bool
  /-- run of samples that differ from the driven level, of tests that follow both pulls -/
  mismatchRun : Nat
  openRun : Nat
  settleUntil : Nat
deriving DecidableEq, Repr

structure PinSt where
  /-- by die × 8 + lane -/
  lanes : Tbl LanePin
  gpio : Tbl GpioPin
  /-- mismatch bits and runs of low-speed outputs, by die; runs by die × 16 + bit -/
  ls : Tbl Nat
  lsRun : Tbl Nat
  pcieInverted : Nat
  pcieReversed : Bool
  pcieFailed : Nat
  i3cStuck : Nat
deriving DecidableEq, Repr

/-- PIN_REFOUT_CFG (Table 23-8), the setting that waits and its boundary (R483). -/
structure RefoutSt where
  enable : Nat
  ltcRate : Nat
  refRate : Nat
  polarity : Bool
  width : Nat
  offset : Int
  bytes : Nat
deriving DecidableEq, Repr

end Sys2Proof.Machine
end

