-- ==== Sys2Proof/Machine/StNet.lean ====
section
/-!
DEFINITION. The state of legs, receive streams and ports (chapter 06).
-/
namespace Sys2Proof.Machine

/-- A leg that is not ABSENT: its state of Table 06-2 and its record of Table 06-1. -/
structure Leg where
  state : Nat
  transport : Nat
  port : Nat
  secondary : Nat
  flags : Nat
  vlan : Nat
  localPort : Nat
  remotePort : Nat
  keySlot : Nat
  profile : Nat
  silenceS : Nat
  drainMs : Nat
  remoteAddr : Nat
  rtcpMs : Nat
  /-- egress queue of the home die (R127) -/
  queue : Option Nat
  /-- EV_LEG_SILENT raised and not yet re-armed -/
  silent : Bool
  /-- device time of the last release of any stream, or of the arming -/
  lastRelease : Nat
  /-- MONO of the LEG_DRAIN boundary -/
  drainAt : Nat
  /-- device times of the LEG_ARM and LEG_DRAIN boundaries, for R225 and R129 -/
  armDev : Nat
  drainDev : Nat
  /-- device time of the last RTCP report and the interval then drawn (R139) -/
  rtcpAt : Nat
  rtcpGap : Nat
deriving DecidableEq, Repr

/-- One path of a stream: policing bucket (R136), in units of 1/8000 byte, and ST 2022-7 state (R137). -/
structure PathSt where
  tokens : Nat
  /-- device time in µs of the last refill -/
  refillAt : Nat
  /-- MONO of the last accepted or duplicate packet -/
  last : Option Nat
  up : Bool
  /-- MONO of the policed drops of the last second -/
  drops : List Nat
deriving DecidableEq, Repr

/-- A packet on the delay list (R138). `auth`: 0 awaits authentication, 1 may be released. -/
structure Pkt where
  seq : Nat
  ts : Nat
  arrival : Nat
  playout : Nat
  path : Nat
  len : Nat
  slots : Nat
  auth : Nat
  late : Bool
  /-- its number was settled before it arrived: it goes no further than its authentication -/
  dead : Bool
  media : Payload
deriving DecidableEq, Repr

/-- A missing sequence number under NACK (R139): device time at which the first NACK is due, whether it is sent, and that of the
repeat. -/
structure Nack where
  seq : Nat
  dueAt : Nat
  sent : Bool
  repeatAt : Nat
deriving DecidableEq, Repr

/-- What ordered release handed on, in order: a packet, or a sequence number declared lost. -/
structure Handed where
  seq : Nat
  ts : Nat
  lost : Bool
  len : Nat
  media : Payload
deriving DecidableEq, Repr

/-- Samples of a packet at the mixer (R234): its sequence number, presentation time in ns of the first, samples by channel
at 48 kHz. -/
structure Pcm where
  seq : Nat
  at_ : Nat
  chans : List (List Int)
deriving DecidableEq, Repr

/-- Frame synchronisation of a video stream of kind 2 or 6 (R141): a frame completed in the present window, and the
frame in force, each as its pool descriptor. -/
structure FrameSync where
  window : Nat
  fresh : Option Nat
  current : Option Nat
deriving DecidableEq, Repr

/-- A receive stream that is not ABSENT (Tables 06-3 and 06-4). -/
structure Strm where
  state : Nat
  kind : Nat
  pt : Nat
  learn : Bool
  format : Nat
  channels : Nat
  ssrc : Nat
  kbps : Nat
  burst : Nat
  target : Nat
  early : Nat
  vfmt : Nat
  stallMs : Nat
  learned : Option Nat
  mismatch : Bool
  pathA : PathSt
  pathB : PathSt
  /-- rate and burst that apply from the next refill step (R136) -/
  police : Option (Nat × Nat)
  /-- highest accepted extended sequence and the marks of the 1,024 below it, bit `i` for `top − i` (R137) -/
  top : Option Nat
  marks : Nat
  staleRun : Nat
  /-- extended RTP timestamp last seen: value and its low 32 bits' extension -/
  tsExt : Option Int
  /-- playout anchor × clock (R138), and the least value seen in the second that runs -/
  anchor : Option Int
  anchorMin : Option Int
  anchorAt : Nat
  held : List Pkt
  /-- lowest number accepted since the window (re)started, and the last one handed on, released or lost -/
  base : Option Nat
  done : Option Nat
  /-- numbers declared lost that ordered release has not reached -/
  lostAhead : List Nat
  /-- a release has happened since the last restart of the window or arming -/
  released : Bool
  lastRelease : Nat
  /-- ROC and highest sequence number of the packets authenticated under it (R146), and the SRTCP index of the next report -/
  roc : Nat
  seqHigh : Option Nat
  srtcp : Nat
  nacks : List Nack
  /-- samples released to the mixer, oldest first -/
  pcm : List Pcm
  /-- released packets not yet forwarded -/
  forward : List Handed
  sync : FrameSync
  /-- last sample of each embedded channel, by group × 4 + channel (R142) -/
  sdiLast : Tbl Int
  /-- level of the stream's tasks (R322) -/
  level : Nat
deriving DecidableEq, Repr

/-- An Ethernet or SDI lane (Table 06-9, R133). -/
structure PortSt where
  linkUp : Bool
  sdiRate : Nat
  sdiFrac : Bool
  st352 : Option Nat
  mac : Nat
  ip4 : Nat
  ip6en : Bool
  ip6 : Nat
  mtu : Nat
deriving DecidableEq, Repr

/-- State of chapter 06. -/
structure NetSt where
  legs : Tbl Leg
  streams : Tbl Strm
  /-- by die × 16 + lane -/
  ports : Tbl PortSt
deriving DecidableEq, Repr

end Sys2Proof.Machine
end

