-- ==== Sys2Proof/Machine/StMix.lean ====
section
/-!
DEFINITION. The state of the mixers (chapter 10).
-/
namespace Sys2Proof.Machine

/-- A ramp (R229): from code `a` to `b` over `n` samples, `k` of them done. With `k = n` the code in force is `b`. -/
structure Ramp where
  a : Nat
  b : Nat
  n : Nat
  k : Nat
deriving DecidableEq, Repr

/-- Banked parameters of a crosspoint (Table 10-8). -/
structure XpPar where
  gain : Nat
  rampMs : Nat
  /-- owner leg key; `none` no owner -/
  owner : Option Nat
deriving DecidableEq, Repr

/-- A crosspoint: source, global bus number, its parameters in the active and the inactive bank, the ramp in force, and the
device time from which it has been active. -/
structure Xp where
  source : Nat
  bus : Nat
  act : Option XpPar
  ina : Option XpPar
  ramp : Ramp
  since : Nat
deriving DecidableEq, Repr

/-- Meter accumulators of a period, in units of 2^−16 of a sample step: largest |v|, sum of v², count; and the result of
the last complete period in 0.1 dBFS. -/
structure Meter where
  top : Nat
  sq : Nat
  n : Nat
  peak : Int
  rms : Int
deriving DecidableEq, Repr

/-- Banked parameters of a leg output (Table 10-9). `bus` is a global number. -/
structure LegPar where
  bus : Option Nat
  gain : Nat
  rampMs : Nat
  headroom : Nat
  width16 : Bool
  /-- 0.1 dBFS; `none` off -/
  thr : Option Int
  look : Nat
  release : Nat
deriving DecidableEq, Repr

/-- Banked parameters of an overlay slot (Table 10-10). -/
structure OvPar where
  key : Nat
  gpio : Nat
  actLow : Bool
  depth : Nat
  source : Nat
  gain : Nat
  thr : Int
  attackMs : Nat
  holdMs : Nat
  releaseMs : Nat
deriving DecidableEq, Repr

/-- One bank of a leg output. -/
structure LegBank where
  par : Option LegPar
  ov : Tbl OvPar
deriving DecidableEq, Repr

/-- Running state of an overlay slot (R227): its key, whether its gain is up (the key active, or the hold time not yet
passed), consecutive output samples of an inactive key, its ramp. -/
structure OvRun where
  active : Bool
  up : Bool
  quiet : Nat
  ramp : Ramp
deriving DecidableEq, Repr

/-- A leg output. -/
structure LegOut where
  act : LegBank
  ina : LegBank
  gainRamp : Ramp
  duck : Ramp
  ov : Tbl OvRun
  /-- bus heard, and the changes to come: the output sample from which each is heard (R231) -/
  bus : Option Nat
  busNext : List (Nat × Option Nat)
  /-- limiter gain (Q0.16) and its delay line of values, oldest first -/
  g : Nat
  line : List Int
  /-- the block of the window that runs as far as it is computed, and the last block sent -/
  block : List Int
  last : List Int
  meter : Meter
  /-- (MONO, clipped samples) of the last second -/
  clipped : List (Nat × Nat)
deriving DecidableEq, Repr

/-- A bus in state DEFINED. -/
structure Bus where
  /-- exchange window: true 250 µs -/
  short : Bool
  lastMask : Nat
  /-- input window of the last addition -/
  lastAdd : Option Nat
  meter : Meter
deriving DecidableEq, Repr

/-- A partial sum of one die for one exchange window of a bus, sample by sample, with the products each leg owns. -/
structure Partial where
  bus : Nat
  die : Nat
  window : Nat
  sums : List Int
  owned : List (Nat × List Int)
  /-- arrived complete at the bus's home die -/
  arrived : Bool
deriving DecidableEq, Repr

/-- The total of a bus for an exchange window, its inclusion mask, the owned products of the included dies as (leg,
products), and the dies where it has arrived. -/
structure Total where
  bus : Nat
  window : Nat
  sums : List Int
  mask : Nat
  owned : List (Nat × List Int)
  at_ : List Nat
deriving DecidableEq, Repr

/-- A mixer of a die: its bank, meter period, and the job of the window that runs. -/
structure Mixer where
  bankB : Bool
  meterMs : Nat
  meterNext : Nat
  meterAt : Nat
  /-- last window started, its length in ns and its deadline -/
  window : Option Nat
  len : Nat
  deadline : Nat
  /-- samples of it computed; the job reported complete; the job was late -/
  pos : Nat
  done : Bool
  late : Bool
  /-- buses whose total this die lacks in this exchange window (R224) -/
  lack : List Nat
  /-- hub GPIO levels at the window start -/
  gpio : Nat
deriving DecidableEq, Repr

/-- A source as the mixer of its die takes it (R234, R235): its block of the window that runs, the samples it gave as
(sample number, value), newest first, the time of the sample last used in ns × 48,000, missing samples in a row, and its
meter. -/
structure SrcRun where
  block : List Int
  /-- the window of its die that the block is of -/
  win : Option Nat
  feed : List (Nat × Int)
  last : Option Int
  miss : Nat
  meter : Meter
deriving DecidableEq, Repr

/-- State of chapter 10. -/
structure MixSt where
  mixers : Tbl Mixer
  /-- by global number -/
  buses : Tbl Bus
  /-- by die × 2^14 + index -/
  xps : Tbl Xp
  /-- by leg key -/
  legs : Tbl LegOut
  partials : List Partial
  totals : List Total
  /-- by source reference -/
  srcs : Tbl SrcRun
deriving DecidableEq, Repr

end Sys2Proof.Machine
end

