-- ==== Sys2Proof/Machine/StCodec.lean ====
section
/-!
DEFINITION. The state of the modem channels (chapter 08), of decode contexts and of the frame-buffer pool (chapter 09).
-/
namespace Sys2Proof.Machine

/-! ## Modem (chapter 08) -/

/-- MOD_CONFIG (Table 08-2). -/
structure ModCfg where
  profile : Nat
  transmit : Bool
  bandwidth : Nat
  fft : Nat
  guard : Nat
  constellation : Nat
  codeRate : Nat
  spectrum : Nat
  centre : Int
  muteSymbols : Nat
  lockTimeout : Nat
  backoff : Nat
deriving DecidableEq, Repr

/-- A modem channel that the image enables (Table 08-1: 1 IDLE, 2 RECEIVE, 3 TRANSMIT, 4 MUTED). -/
structure Modem where
  state : Nat
  cfg : Option ModCfg
  mask : Option (List (Int × Int))
  /-- FIR coefficients; `none` the single tap of R183 -/
  fir : Option (List Int)
  /-- a filter or a mask that applies at the next symbol, and an unmute that does -/
  firNext : Option (List Int)
  maskNext : Option (List (Int × Int))
  unmuteNext : Bool
  stage : Nat
  jesd : Bool
  inverted : Bool
  hierarchy : Bool
  fft : Nat
  guard : Nat
  constellation : Nat
  codeRate : Nat
  mer : Nat
  power : Int
  peak : Int
  freq : Int
  /-- MONO of the frame that gave `freq` (R178) -/
  freqAt : Nat
  feRx : Nat
  violRun : Nat
  badRun : Nat
  /-- MONO of MOD_START or of the last loss of stage 5, until the timeout it starts (R174) -/
  searchAt : Option Nat
  /-- fraction of a packet slot carried to the next symbol -/
  slotAcc : Nat
  spiMode : Nat
  spiDiv : Nat
  spiBits : Nat
  /-- settings that wait for the frame in progress -/
  spiNext : Option (Nat × Nat × Nat)
  queue : List Nat
  wire : Option Nat
  /-- last word accepted without the claim (R181), and the word before the next one (R180) -/
  kept : Option Nat
  word : Nat
deriving DecidableEq, Repr

/-! ## The frame-buffer pool (R204 to R206) -/

/-- Contents of a picture: samples the rules do not give, by a serial number (assumption 4); mid-grey (R207); a picture with
areas concealed from another (R209); or one with a tile that reads as mid-grey (R376), of the luma plane or of that of Cb
and Cr. -/
inductive Pix where
  | free (seed : Nat)
  | grey
  | concealed (base : Pix) (areas : List Area) (source : Pix)
  | tile (base : Pix) (chroma : Bool) (tx ty : Nat)
deriving DecidableEq, Repr

/-- A buffer descriptor with a mark (Table 09-5). Holds of compositors and encoders are counted. -/
structure Buf where
  short : Bool
  long : Bool
  out : Bool
  cmpHold : Nat
  encRef : Nat
  peer : Bool
  concealed : Bool
  tainted : Bool
  format : Nat
  /-- decode context index, 0xFFF for none -/
  context : Nat
  width : Nat
  height : Nat
  /-- colour description read from the bitstream (R203); spatial and temporal id of a decoded picture -/
  colour : Nat
  s : Nat
  t : Nat
  pix : Pix
  /-- taken without a reservation of R205: a frame of a stream -/
  spare : Bool
deriving DecidableEq, Repr

/-- A pool of a die. -/
structure Pool where
  bufs : Tbl Buf
  resDesc : Nat
  resKib : Nat
  totalKib : Nat
  /-- the snapshot that runs: its command, descriptor, offset and byte count (R214) -/
  snap : Option (Desc × Nat × Nat × Nat)
deriving DecidableEq, Repr

/-! ## Decode contexts (chapter 09) -/

/-- A presented picture: its descriptor, taint and layer. -/
structure Shown where
  desc : Nat
  tainted : Bool
  s : Nat
  t : Nat
deriving DecidableEq, Repr

/-- A decode context that is not ABSENT (Tables 09-3 and 09-4). -/
structure Ctx where
  state : Nat
  codec : Nat
  format : Nat
  maxDpb : Nat
  /-- stream key -/
  stream : Nat
  width : Nat
  height : Nat
  num : Nat
  den : Nat
  pid : Nat
  pliMs : Nat
  target : Nat
  /-- target bytes of a rise that waits for a switching point (R212) -/
  higher : Option Nat
  waitingRap : Bool
  refresh : Bool
  /-- device time of the last PLI, and a need that waits for the interval -/
  lastPli : Option Nat
  pliWait : Bool
  /-- what ordered release handed to this context -/
  inbox : List Handed
  /-- access units completed in the present window, and those of jobs, oldest first, with window and deadline -/
  ready : List AuInfo
  queue : List (Nat × Nat × AuInfo)
  /-- deadline of the last job found late -/
  lateBy : Option Nat
  /-- last picture output by the deadline; picture output late -/
  outNow : Option Shown
  outLate : Option Shown
  shown : Option Shown
  /-- newest untainted presented picture still in the pool -/
  clean : Option Nat
  /-- last window this context started -/
  window : Option Nat
  wasTainted : Bool
  unsupSeen : Bool
  /-- a picture of the context is on its engine -/
  busy : Bool
  /-- the stream's most recent decoded picture (R208) -/
  recent : Option Pix
  /-- the stream has become ABSENT, and the context has not stopped yet; the picture in progress is one that COD_STOP left,
  whose end clears the reference marks (R197) -/
  streamLost : Bool
  stopping : Bool
deriving DecidableEq, Repr

structure CodSt where
  modems : Tbl Modem
  pools : Tbl Pool
  ctxs : Tbl Ctx
deriving DecidableEq, Repr

end Sys2Proof.Machine
end

