-- ==== Sys2Proof/Machine/StCmp.lean ====
section
/-!
DEFINITION. The state of the compositors (chapter 11).
-/
namespace Sys2Proof.Machine

/-- A glyph: width, height, advance, bearings, coverage. -/
structure Glyph where
  w : Nat
  h : Nat
  advance : Nat
  bx : Int
  byy : Int
  cover : List Nat
deriving DecidableEq, Repr

/-- A layer's colour chain (R251); a layer without one has the default chain. -/
structure Chain where
  m : List Int
  pre : List Int
  post : List Int
  inLut : List Nat
  outLut : List Nat
deriving DecidableEq, Repr

/-- An item of a text, meter or border layer (Table 11-10). -/
inductive StyleItem where
  | run (x y : Int) (glyphs : List Nat)
  | bar (x y : Int) (w h source die index flags : Nat)
  | outline (x y : Int) (w h width pinA pinB : Nat)
deriving DecidableEq, Repr

structure Style where
  colours : List Nat
  p0 : Int
  p1 : Int
  p2 : Int
  items : List StyleItem
deriving DecidableEq, Repr

/-- A layer that is not off (Table 11-9). -/
structure Layer where
  kind : Nat
  split : Bool
  freeze : Bool
  h : Nat
  v : Nat
  source : Nat
  srcX : Nat
  srcY : Nat
  srcW : Nat
  srcH : Nat
  dstX : Int
  dstY : Int
  dstW : Nat
  dstH : Nat
  alpha : Nat
  chain : Option Chain
  style : Option Style
deriving DecidableEq, Repr

/-- What a commit applies as one set (R257). Outputs by slot: (kind 1 SDI with a port code, 2 send stream with a key). -/
structure CmpSet where
  layers : Tbl Layer
  zProg : Bool
  zList : List Nat
  lutPreset : Nat
  lut : List Nat
  enc2020 : Bool
  outputs : Tbl (Nat × Nat)
deriving DecidableEq, Repr

/-- What a layer of the set in force shows now (Table 11-13, R247, R248). -/
structure LayerRun where
  split : Bool
  frozen : Bool
  grey : Bool
  /-- held descriptor: die and number -/
  held : Option (Nat × Nat)
  /-- values of the last 2 s of the bars with peak hold: (item, value, MONO) -/
  peaks : List (Nat × Int × Nat)
  absentRaised : Bool
  clipRaised : Bool
  /-- reservation of the binding: die and KiB -/
  reserved : Option (Nat × Nat)
deriving DecidableEq, Repr

/-- What the job of a window draws of a layer: its parameters and the descriptor it took, `none` for mid-grey; sampled
whether it is processed in strips; meter values (value and peak hold) or pin states of its items; the contents, format and colour description of its picture and
the crop as clipped. -/
structure Drawn where
  index : Nat
  layer : Layer
  strips : Bool
  desc : Option (Nat × Nat)
  samples : List (Int × Int)
  pix : Pix
  format : Nat
  colour : Nat
  cropW : Nat
  cropH : Nat
deriving DecidableEq, Repr

/-- The guarded layer (R258). -/
structure Guard where
  x : Nat
  y : Nat
  w : Nat
  h : Nat
  alpha : Nat
  policy : Nat
  band : Nat
  bandColour : Nat
  content : List Nat
  crc : Nat
deriving DecidableEq, Repr

structure Cursor where
  x : Int
  y : Int
  visible : Bool
  hotX : Nat
  hotY : Nat
  image : List Nat
deriving DecidableEq, Repr

/-- A composition: what a frame was made of. Its pixels are `framePixel` of Machine/Pixel.lean. A frame with no job is
the background colour. -/
structure CFrame where
  window : Nat
  format : Nat
  background : Nat
  drawn : List Drawn
  cursor : Option Cursor
  lutPreset : Nat
  lut : List Nat
  enc2020 : Bool
  guard : Option Guard
  atlas : List Glyph
  late : Bool
deriving DecidableEq, Repr

structure Comp where
  state : Nat
  format : Nat
  overPace : Bool
  feed : Nat
  background : Nat
  /-- per mille -/
  load : Nat
  staged : CmpSet
  force : CmpSet
  /-- the set a pending commit captured -/
  captured : Option CmpSet
  runs : Tbl LayerRun
  cursor : Cursor
  /-- the guarded layer drawn; whether R259 denies; CRC of the last frame composed -/
  guard : Option Guard
  guardSet : Bool
  guardLast : Nat
  /-- frame under composition with its deadline -/
  job : Option (CFrame × Nat)
  /-- last complete frame; last one whose guard CRC matched; what destinations receive in the window that runs -/
  frame : CFrame
  good : Option CFrame
  shown : CFrame
  /-- reserved (descriptors, KiB) of output and feed buffers -/
  reserved : Nat × Nat
  /-- output and feed descriptors: of the presented frame, and of the frame complete but not yet presented -/
  outNow : Option Nat
  outNext : Option Nat
  feedNow : Option Nat
  feedNext : Option Nat
  window : Option Nat
deriving DecidableEq, Repr

structure CmpSt where
  comps : Tbl Comp
  /-- glyph atlas by die -/
  atlas : Tbl (List Glyph)
deriving DecidableEq, Repr

end Sys2Proof.Machine
end

