-- ==== Sys2Proof/Machine/StEnc.lean ====
section
/-!
DEFINITION. The state of the encode contexts (chapter 12).
-/
namespace Sys2Proof.Machine

/-- Rate settings (Table 12-5), defaults filled in. -/
structure EncRate where
  targets : List Nat
  qpMin : Nat
  qpMax : Nat
  qpInit : Nat
  dqp : Nat
  limit : Nat
  carry : Nat
  kf : Nat
  weights : List Nat
deriving DecidableEq, Repr

/-- First-row QP of the last frame of a kind, with its total bits and budget (R284). -/
structure QpMem where
  qp : Nat
  bits : Nat
  budget : Nat
deriving DecidableEq, Repr

/-- What rate control keeps for a spatial layer. -/
structure EncLayer where
  debt : Nat
  n : Nat
  lastBits : Nat
  lastBudget : Nat
  /-- by temporal id × 2 + key -/
  mem : Tbl QpMem
deriving DecidableEq, Repr

/-- A request of R282: scope, lowest s, requests merged into it, MONO of arrival, force. -/
structure KeyReq where
  scope : Nat
  s : Nat
  merged : Nat
  at_ : Nat
  force : Bool
deriving DecidableEq, Repr

/-- The frame a context codes. -/
structure EncJob where
  window : Nat
  start : Nat
  deadline : Nat
  t : Nat
  key : Bool
  /-- layers at and above it are at a switching point -/
  switch : Option Nat
  skip : Bool
  src : Option (Nat × Nat)
  late : Bool
  rate : EncRate
  discard : Bool
deriving DecidableEq, Repr

/-- An encode context that is not ABSENT (Tables 12-2 and 12-6). -/
structure Enc where
  state : Nat
  codec : Nat
  format : Nat
  s : Nat
  t : Nat
  source : Nat
  /-- send stream key -/
  send : Nat
  width : Nat
  height : Nat
  num : Nat
  den : Nat
  maxRefs : Nat
  keyInt : Nat
  swInt : Nat
  mergeMs : Nat
  rate : Option EncRate
  /-- settings that apply at the next frame that starts, and whether they restart rate control -/
  rateNext : Option (EncRate × Bool)
  layers : List EncLayer
  /-- position of the next frame after the last key frame, and frames started since ENC_START -/
  f : Nat
  frames : Nat
  /-- MONO of the start of the last key frame coded -/
  lastKey : Option Nat
  req : Option KeyReq
  lastSrc : Option (Nat × Nat)
  lastFrozen : Bool
  /-- descriptors of the reference pictures, by spatial layer, newest first -/
  refs : List (List Nat)
  /-- layer and row at which the leading part's frame froze for pace, of each half (R288, R289) -/
  freezeAt : List (Nat × Nat)
  paceCause : Bool
  job : Option EncJob
  qpLast : Nat
  absentRaised : Bool
  sizeRaised : Bool
  window : Option Nat
  /-- reservation: descriptors and KiB on its die, and the source binding's die and KiB -/
  reserved : Nat × Nat
  srcRes : Nat × Nat
deriving DecidableEq, Repr

structure EncSt where
  /-- by die and context index -/
  encs : Tbl Enc
  /-- the picture or frame on each codec engine: context key, by die × 16 + engine -/
  engines : Tbl Nat
deriving DecidableEq, Repr

end Sys2Proof.Machine
end

