-- ==== Sys2Proof/Machine/StSend.lean ====
section
/-!
DEFINITION. The state of send streams, the forwarding table, line estimation and egress scheduling (chapter 13), and of
the task schedulers and hub arbiters (chapter 14).
-/
namespace Sys2Proof.Machine

/-- A packet on its way to the wire: its send stream, sequence number, UDP payload bytes, counted length (R309), MONO of
its entry into the queue, the device time before which it is not emitted (R403), whether it is a retransmission, whether a
path has already sent it, and the paths still to send it (R314). -/
structure EPkt where
  send : Nat
  seq : Nat
  ts : Nat
  udp : Nat
  len : Nat
  at_ : Nat
  due : Nat
  rtx : Bool
  out : Bool
  a : Bool
  b : Bool
deriving DecidableEq, Repr

/-- A packet kept for retransmission, and the device time at which it was sent (R305). -/
structure Rtx where
  pkt : EPkt
  sentAt : Nat
  resent : Bool
deriving DecidableEq, Repr

/-- A frame a kind 2 stream sends, oldest first (R313): start of packet 0 in ns, next packet, count, spacing as a fraction of ns. -/
structure Paced where
  start : Nat
  next : Nat
  count : Nat
  num : Nat
  den : Nat
  ts : Nat
deriving DecidableEq, Repr

/-- A send stream that is not ABSENT (Tables 13-2 and 13-3). -/
structure Send where
  state : Nat
  kind : Nat
  pt : Nat
  format : Nat
  flags : Nat
  ssrc : Nat
  tsOffset : Nat
  seq0 : Nat
  param : Nat
  source : Nat
  rate : Nat
  alt : Nat
  /-- extended sequence number of the next packet: packets sent since definition plus seq0; and the send ROC (R146) -/
  next : Nat
  roc : Nat
  /-- object id of the encode context or compositor output that feeds it -/
  feeder : Option Nat
  /-- waits for a key frame of its source (R304) -/
  waiting : Bool
  /-- point in force, target of the frame that runs, whether an EV_TRF_POINT of this frame is raised -/
  ps : Nat
  pt_ : Nat
  ts_ : Nat
  tt : Nat
  frame : Option Nat
  raised : Bool
  /-- device time since which it waits for a spatial up-switch -/
  upSince : Option Nat
  rtx : List Rtx
  /-- source packets of an origin that wait for the forwarding table -/
  srcq : List Handed
  /-- samples of a kind 0 or 3 stream not yet packetised, and the sample number of the first -/
  acc : List Int
  accAt : Nat
  /-- device time of the last RTCP sender report and the interval then drawn (R297) -/
  srAt : Nat
  srGap : Nat
  /-- SRTCP index -/
  srtcp : Nat
  /-- RTP packets and octets sent, for reports -/
  sentPkts : Nat
  sentBytes : Nat
  paced : List Paced
  /-- MONO of the last PAT and PMT, and of the last PCR (R298) -/
  psiAt : Nat
  pcrAt : Nat
  level : Nat
deriving DecidableEq, Repr

/-- A forwarding entry in state ACTIVE (R299). -/
structure Fwd where
  source : Nat
  layer : Nat
  pliMs : Nat
  /-- send stream keys -/
  members : List Nat
  lastPli : Option Nat
deriving DecidableEq, Repr

/-- Bytes of a layer of a source over the last 500 ms, and the rate at the last frame (R302). -/
structure LayerRate where
  source : Nat
  layer : Nat
  log : List (Nat × Nat)
  frame : Option Nat
  kbps : Nat
deriving DecidableEq, Repr

/-- A line profile (Table 13-6). -/
structure Profile where
  headroom : Nat
  start : Nat
  min : Nat
  max : Nat
  lossHi : Nat
  lossLo : Nat
  gradHi : Nat
  gradLo : Nat
  backoff : Nat
  inc : Nat
  upWait : Nat
  rtx : Nat
deriving DecidableEq, Repr

/-- A token bucket (R311), tokens in units of 1/8000 byte; rate 0 is none; settings that apply at the next refill. -/
structure Shaper where
  kbps : Nat
  burst : Nat
  tokens : Nat
  next : Option (Nat × Nat)
deriving DecidableEq, Repr

/-- Start tag of a flow's head, finish tag of its last packet, and whether it is eligible (R310). -/
structure Tag where
  s : Nat
  f : Nat
  live : Bool
deriving DecidableEq, Repr

/-- What is held with a leg for its departure: queue settings (R312), line mode and estimate (R307, R308), destination
learned (R296), and bytes sent. -/
structure TLeg where
  cls : Nat
  weight : Nat
  kbps : Nat
  burst : Nat
  maxBytes : Nat
  maxSoj : Nat
  mode : Nat
  value : Nat
  auto : Nat
  loss : Nat
  rtt : Nat
  prev : Option (Int × Nat)
  /-- (MONO, UDP bytes) of the queue in the last 1 s, and of the kinds other than 1 in the last 500 ms -/
  sent : List (Nat × Nat)
  others : List (Nat × Nat)
  learnedAddr : Nat
  learnedPort : Nat
  destRaised : Bool
deriving DecidableEq, Repr

/-- An egress queue allocated to a leg. -/
structure EQueue where
  leg : Nat
  lane : Nat
  sec : Option Nat
  pkts : List EPkt
  shA : Shaper
  shB : Shaper
  tagA : Tag
  tagB : Tag
  drops : List Nat
deriving DecidableEq, Repr

structure TClass where
  weight : Nat
  sh : Shaper
  tag : Tag
  /-- virtual time of the queues within the class, and the largest finish tag served -/
  v : Nat
  fMax : Nat
deriving DecidableEq, Repr

/-- The traffic scheduler's side of a port. -/
structure TPort where
  /-- Mbit/s, 0 line rate -/
  rate : Nat
  mac : Nat
  classes : Tbl TClass
  v : Nat
  fMax : Nat
  /-- frame in service: queue, second path, packet -/
  busy : Option (Nat × Bool × EPkt)
deriving DecidableEq, Repr

structure SendSt where
  sends : Tbl Send
  fwds : Tbl Fwd
  rates : List LayerRate
  profiles : Tbl Profile
  legs : Tbl TLeg
  /-- by die × 1536 + queue -/
  queues : Tbl EQueue
  /-- by die × 16 + lane -/
  ports : Tbl TPort
  /-- latency sample period in µs by die (R315) -/
  sample : Tbl Nat
deriving DecidableEq, Repr

/-! ## Tasks (chapter 14) -/

/-- What an item of an ordered flow carries: an egress packet, an item of signal engine firmware, or nothing more. -/
inductive FBody where
  | pkt (p : EPkt)
  | dsp (send ts : Nat) (samples : List Int)
  | plain
deriving DecidableEq, Repr

/-- An item of an ordered flow (R326): its token, 0 outstanding, 1 complete, 2 void, device time since it holds the
lowest token, and its cipher operation. -/
structure FItem where
  token : Nat
  st : Nat
  low : Option Nat
  op : Option Nat
  body : FBody
deriving DecidableEq, Repr

structure OFlow where
  next : Nat
  items : List FItem
  /-- items passed over until a token frees (R326) -/
  beyond : List FItem
deriving DecidableEq, Repr

/-- A task for the signal engines (R339, R364): a frame of a kind 0 stream to decode or to encode, with its timestamp, its
samples by channel, and, for an encode task, the flow and token of its item; a decode task holds its packet's sequence
number as its token. -/
structure DTask where
  stream : Nat
  decode : Bool
  ts : Nat
  samples : List (List Int)
  flow : Nat
  token : Nat
  level : Nat
deriving DecidableEq, Repr

/-- A die at an upper arbiter (R331): requesters at the last visit, deficit, last unit served by the lower arbiter, and
(MONO, units) granted in the last 1 ms. -/
structure ArbDie where
  n : Nat
  deficit : Nat
  last : Nat
  log : List (Nat × Nat)
deriving DecidableEq, Repr

structure Arb where
  dieEqual : Bool
  dies : Tbl ArbDie
deriving DecidableEq, Repr

structure TaskSt where
  /-- by die × 4096 + flow -/
  flows : Tbl OFlow
  /-- ready tasks of the signal engines by die, oldest first -/
  ready : Tbl (List DTask)
  /-- parked tasks (R323): die, kind (0 timed command, 1 RTCP report of a leg, 2 of a send stream), key -/
  parked : List (Nat × Nat × Nat)
  dieEqual : Bool
  /-- by resource -/
  arbs : Tbl Arb
  /-- MONO of the event tasks not made in the last second, by die (R323) -/
  notMade : Tbl (List Nat)
deriving DecidableEq, Repr

end Sys2Proof.Machine
end

