-- ==== Sys2Proof/Machine/StDsp.lean ====
section
/-!
DEFINITION. The state of the signal engines (chapter 15): registers, memories, pipeline, ports, parameters, instances.
-/
namespace Sys2Proof.Machine

/-- The datapath of a lane (Table 15-4): D0–D15, A0–A3 and its own flags (R356). -/
structure DLane where
  d : List Word
  a : List (BitVec 72)
  gv : Bool
  sv : Bool
  ov : Bool
  n : Bool
  z : Bool
deriving DecidableEq, Repr

/-- A loop level: LC, LS, LE, and whether an iteration after the first runs (R350). -/
structure Loop where
  lc : Nat
  ls : Nat
  le : Nat
  later : Bool
deriving DecidableEq, Repr

/-- What a write in flight changes. -/
inductive DTgt where
  /-- a register code of Table 15-10 -/
  | reg (code : Nat)
  /-- a whole accumulator -/
  | acc (i : Nat)
  | gv
  | sv
deriving DecidableEq, Repr

/-- A write in flight (R351): first slot that sees it, lane, target and value; `mac`: made by MPY, MAC or MSU. -/
structure DWr where
  due : Nat
  lane : Nat
  tgt : DTgt
  val : Nat
  mac : Bool
deriving DecidableEq, Repr

/-- The C3 shadow set (R355): D0–D7, A0 and A1 by lane, P0–P3 and the loop state. -/
structure DShadow where
  d : List (List Word)
  a : List (List (BitVec 72))
  p : List (BitVec 16)
  active : Bool
  loop : Loop
  lstk : List Loop
deriving DecidableEq, Repr

/-- An ACTIVE port (R336, R362): function code, its inputs in place (zero for none), their input slots (0xFF for none), arg,
and MONO of the last EV_DSP_PORT_LATE. -/
structure DPort where
  code : Nat
  inputs : List Nat
  slots : List Nat
  arg : Nat
  lateAt : Option Nat
deriving DecidableEq, Repr

/-- A signal engine that is not ABSENT. `mem` holds X and Y of the lanes: X0, Y0, X1, Y1, words not listed read zero. -/
structure Dsp where
  state : Nat
  blob : Nat
  c3 : Bool
  wide : Bool
  fault : Nat
  faultPc : Nat
  prog : List (BitVec 64)
  x0 : Tbl Word
  y0 : Tbl Word
  x1 : Tbl Word
  y1 : Tbl Word
  /-- execution has begun (R337) -/
  started : Bool
  lanes : List DLane
  p : List (BitVec 16)
  b : List (BitVec 16)
  l : List (BitVec 16)
  m : List (BitVec 16)
  pc : Nat
  ie : Bool
  winEn : Bool
  parEn : Bool
  pb : Bool
  shadow : Bool
  /-- LC, LS, LE, and whether a loop is active -/
  active : Bool
  loop : Loop
  /-- outer loops, innermost first -/
  lstk : List Loop
  /-- (PC, ST), newest first -/
  pcstk : List (Nat × Nat)
  sset : DShadow
  slot : Nat
  flight : List DWr
  /-- a branch's delay slot comes next: taken target, and whether it is that of an RTI -/
  delay : Bool
  target : Option Nat
  rti : Bool
  /-- slots of the last writes of accumulators by MPY, MAC, MSU: (accumulator, slot) -/
  macAt : List (Nat × Nat)
  winDue : Bool
  parDue : Bool
  /-- 0 runs, 1 waits in IDLE, 2 waits in GETT -/
  idle : Nat
  /-- tasks in hand by handle (R364) -/
  hand : List (Nat × DTask)
  ports : Tbl DPort
  /-- parameter words in force by port -/
  params : Tbl (List Word)
  /-- start of the window of the last parameter swap, for commands that share it -/
  swapAt : Option Nat
deriving DecidableEq, Repr

/-- A codec instance (R340): engine, encode slot, codec. -/
structure Inst where
  engine : Nat
  slot : Option Nat
  codec : Nat
deriving DecidableEq, Repr

structure DspSt where
  /-- by the object's key (die and 12 + n) -/
  engines : Tbl Dsp
  /-- instances by stream key -/
  insts : Tbl Inst
  /-- engines whose DSP_PORT_SET or window has started them: start of the last window handled, by die -/
  window : Tbl Nat
deriving DecidableEq, Repr

end Sys2Proof.Machine
end

