-- ==== Sys2Proof/Machine/StPair.lean ====
section
/-!
DEFINITION. The state of unit pairs and lane tests (chapter 17) and of pairing (chapter 18).
-/
namespace Sys2Proof.Machine

/-- Unit pairs in force, by die × 16 + k, or by die for compositors; dies whose pairs a command has changed; lane test
modes and PRBS lock by die × 8 + lane (Tables 17-7 and 17-8). -/
structure JoinSt where
  cod : List Nat
  cmp : List Nat
  dsp : List Nat
  byCmd : List Nat
  /-- DSP_PAIR commands that wait for their engines to run, with the even engine's state before -/
  waits : List (Desc × Nat)
  loops : Tbl (Nat × Bool)
deriving DecidableEq, Repr

/-- A lane or wire on which heartbeats arrive: MONO of the last valid one, consecutive valid ones, UP. -/
structure HbLane where
  last : Option Nat
  run : Nat
  up : Bool
deriving DecidableEq, Repr

/-- The peer as last heard (R399). -/
structure Peer where
  /-- it has a re-structure in progress -/
  restr : Bool
  claim : Nat
  role : Nat
  part : Nat
  hash : Nat
  serial : Nat
deriving DecidableEq, Repr

/-- A muted output (R410, R411): first muted window, run of agreeing windows, whether the condition of Table 18-3 is met,
and MONO of the mute. -/
structure Mute where
  out : Nat
  window : Nat
  agree : Nat
  met : Bool
  at_ : Nat
deriving DecidableEq, Repr

structure PairSt where
  /-- Table 18-1 -/
  role : Nat
  /-- configured claim and effective claim -/
  c : Nat
  e : Nat
  /-- 0 none, 1 structure hash, 2 part number: outputs muted by R400 -/
  mismatch : Nat
  peer : Option Peer
  /-- MONO of the last valid heartbeat on either path -/
  heard : Option Nat
  lane0 : HbLane
  lane1 : HbLane
  wire : HbLane
  crossed : Bool
  loop0 : Bool
  loop1 : Bool
  /-- EV_PAIR_TIE raised for the present tie -/
  tied : Bool
  /-- commit delay in force, and the one that applies from the next replay-window boundary (R403) -/
  delay : Bool
  delayNext : Option Bool
  /-- exclusive outputs driven, and the device time from which the new setting applies (R402) -/
  excl : Bool
  exclNext : Option (Bool × Nat)
  /-- a PAIR_CLAIM release that waits for the peer, with MONO of its execution -/
  release : Option (Desc × Nat)
  /-- a re-structure or an entry into Comma that waits for the peer to lead (R394, Table 17-5) -/
  waits : List Desc
  /-- last replay window ended -/
  window : Option Nat
  /-- outcomes of the window that runs, oldest first, on a leading part -/
  outcomes : List Outcome
  /-- window of the newest record applied -/
  applied : Option Nat
  /-- the follower's last holdings -/
  holdings : Option Holdings
  mutes : List Mute
  /-- windows of records sent and not yet acknowledged -/
  unacked : List Nat
deriving DecidableEq, Repr

end Sys2Proof.Machine
end

