-- ==== Sys2Proof/Machine/State.lean ====
section
/-!
DEFINITION. The state of the block: the queue of commands that wait, and the machine `M` with every register, table,
buffer and mode the spec gives it. INVENTORY.md lists each piece with its rule and reset value.
-/
namespace Sys2Proof.Machine

/-- No meaning of this model ends in a fault: every error of the part is a completion status, an event, a counter or a
state (assumption 6). The type has one constructor so that the interface is inhabited; nothing raises it. Safe. -/
inductive Fault where
  /-- raised by nothing -/
  | none
deriving DecidableEq, Repr

/-- Refusals. -/
inductive Refusal where
  /-- a row whose meaning is not written: raised by the dispatch alone, with the row's mnemonic. Safe. -/
  | notModelled (mnemonic : String)
deriving DecidableEq, Repr

/-- The part as ordered (R1, R4, R5): its media dies, its grade, the ASCII letter and the digit of its silicon revision, its
serial, and its hub ROM's four digests of Svetfold public keys with whether each key is revoked (R65). -/
structure Part where
  media : Nat
  gradeX : Bool
  revLetter : Nat
  revDigit : Nat
  serial : Nat
  romKeys : List (Digest × Bool)
deriving DecidableEq, Repr

/-- What no start and no reset touches: the one-time storage of the owner key (R67) and MONO (R42). Every meaning keeps
both but those that name them. -/
structure Vault where
  ownerKey : Option Digest
  mono : Nat
deriving DecidableEq, Repr

/-- The machine: everything but the queue. -/
structure M where
  part : Part
  vault : Vault
  /-- device time in ns since the epoch (R36) -/
  dev : Nat
  tim : TimSt
  pace : PaceSt
  avs : AvsSt
  /-- Fold links by index (R17) -/
  fold : Tbl FoldLink
  syn : SynSt
  host : HostSt
  jrn : JrnSt
  i3c : I3cSt
  key : KeySt
  /-- authentication thresholds by leg key (R159) -/
  auth : Tbl AuthSt
  mem : MemSt
  start : StartSt
  pwr : PwrSt
  pin : PinSt
  refout : RefoutSt
  /-- read-to-clear counters; an unlisted one reads 0 -/
  cnt : List (CntId × Nat)
  /-- MONO of the last raise of a rate-limited event -/
  lim : List (LimId × Nat)
  /-- commands held pending (R99), in order of execution -/
  pend : List Pend
  /-- commands taken whose completion is still owed by the unit that runs them -/
  deferred : List Desc
  /-- owning function by object id (R82) -/
  owner : Tbl Nat
  /-- legs, receive streams and ports (chapter 06) -/
  net : NetSt
  /-- mixers (chapter 10) -/
  mix : MixSt
  /-- modem channels, frame-buffer pools, decode contexts (chapters 08 and 09) -/
  cod : CodSt
  /-- compositors (chapter 11) -/
  cmp : CmpSt
  /-- encode contexts and codec engines (chapter 12) -/
  enc : EncSt
  /-- send streams, forwarding, egress (chapter 13) -/
  snd : SendSt
  /-- tasks, ordered flows, hub arbiters (chapter 14) -/
  tsk : TaskSt
  /-- signal engines (chapter 15) -/
  dsp : DspSt
  /-- unit pairs and lane tests (chapter 17) -/
  join : JoinSt
  /-- pairing (chapter 18) -/
  pair : PairSt
  /-- number of the last period handled of each periodic process, by its code: the model's own bookkeeping -/
  ticks : Tbl Nat
  /-- the model's own trace of what leaves the block, newest first -/
  sent : List Out
  /-- how many free values have been drawn: the model's own counter -/
  drawn : Nat
deriving DecidableEq, Repr

structure State where
  /-- commands that wait, first in, first out -/
  pending : List Instr
  m : M
deriving DecidableEq, Repr

/-! ## Reset values -/

def timReset : TimSt where
  mode := 2
  quality := 0
  activePort := 0xFF
  refPresent := false
  refInverted := false
  tenPresent := false
  ptpState := 0
  latchSec := 0
  latchMono := 0
  offset := 0
  errEst := 0xFFFFFFFF
  domain := 0
  portA := 0xFF
  portB := 0xFF
  stepUs := 1000
  slewPpm := 10
  refEn := false
  tenEn := false
  rateNum := 0
  rateDen := 0
  lockRun := 0
  setDone := false
  setWait := none
  refPulses := 0
  refMissed := 0
  refLast := none
  masterA := none
  masterB := none
  delay := 0
  tenPpb := 0
  framePpb := 0
  freqAcc := 0
  slewLeft := 0
  slewAcc := 0
  holdUntil := 0
  holdFrom := 0
  heldBefore := []
  lastWindowStop := 0
  guards := [100000, 25000, 1000000, 1000000, 2000000]

def paceReset : PaceSt :=
  { alarms := [], pace := [], slackMin := [], accSlack := [], accRatio := [], avsRatio := none, anyLate := false }

def avsReset : AvsSt where
  target := 200
  hyst := 50
  capMv := 850
  enabled := true
  fault := false
  atCap := false
  atFloor := false
  requestMv := 800
  ratioMin := 0x3E8
  acksMissed := 0
  sentAt := none
  aboveNs := 0

def synReset : SynSt where
  run := none
  slotA := none
  slotB := none
  ram := none
  boot0 := none
  boot1 := none
  startedSlot := 0
  differs := false
  ramDies := []
  ramDamaged := false
  lastRule := 0
  slotStA := (0, 0)
  slotStB := (0, 0)
  dies := []
  staging := none
  rest := none
  restartAt := none

def hostReset : HostSt where
  fns := []
  msix := []
  msixWords := []
  evqMask := []
  scratch := [0, 0, 0, 0]
  lastFn := 0
  lastBar := 0
  lastOffset := 0
  linkSpeed := 0
  linkWidth := 0
  flit := false
  vfsEnabled := 0
  bar4Mib := 256
  backing := []
  temp := []
  rot := none
  rotLeft := 0
  applied := []
  orders := 0

def jrnReset : JrnSt where
  head := 0
  ring := []
  ringUp := false
  buffer := []
  lastChain := 0
  lostChain := 0
  mirror := []
  programmed := 0
  backlog := []
  unmirrored := 0
  retried := false
  mirrorFault := false
  verify := none
  exports := []
  lastAnchor := 0
  anchors := []

def i3cReset : I3cSt := { busy := false, last := none, pendingRead := false }

def keyReset : KeySt where
  slots := []
  cache := []
  wrapDraw := 0
  alarmLow := false
  latched := 0
  present := 0
  enabled := 0x7F
  hotDies := 0
  count := 0
  armed := false
  ops := []
  nextOp := 0

def memReset : MemSt :=
  { chans := [], poolEcc := [], threshold := [], trackers := [], throttles := [], rateTarget := 3, eccSince := [] }

/-- Right after the always-on domain is powered, PORST_N held low (R415, R42). -/
def startReset : StartSt where
  porstLow := true
  perstLow := false
  supplyLow := 0
  phase := .starting
  begun := false
  t0 := 0
  step := 0
  restartBy := none
  reason := 0
  attempt := 0
  limit := 3
  slot := 0
  degraded := false
  standbyLost := false
  altUsed := false
  debugUnlocked := false
  unlockRefused := 0
  watchdogMs := 8000
  recordDefault := false
  counter := 0
  history := []
  standbyGone := true
  failed := []
  owed := none
  flashAddr := 0
  flashOp := none
  flashOutcome := 0
  flashRule := 0
  window := []
  lastHeld := 0
  lanesBad := false
  otherVerify := none

def wakeOff : WakeCfg := { kind := 0, target := 0, compare := 0, threshold := 0, debounce := 1, delay := 0, bytes := 0 }

def pwrReset : PwrSt where
  state := 0
  monoRestarted := false
  tcxoReleased := false
  mask := 0
  lastSource := 0
  lastAbandoned := false
  lastLatched := 0
  lastValue := 0
  lastMono := 0
  sleepNs := 0
  sleepU := 0
  slots := []
  latches := 0
  first := none
  entryVals := []
  runs := []
  kept := []
  heldEv := []
  entry := none
  entryStep := 0
  periodMs := 0
  aonPpm := 0
  tcxoPin := none
  entryMono := 0
  entryDev := 0
  handMono := 0
  aonTicks := 0
  lastSample := 0
  wakeLow := none

def pinReset : PinSt :=
  { lanes := [], gpio := [], ls := [], lsRun := [], pcieInverted := 0, pcieReversed := false, pcieFailed := 0,
    i3cStuck := 0 }

def refoutReset : RefoutSt :=
  { enable := 0, ltcRate := 0, refRate := 0, polarity := false, width := 0, offset := 0, bytes := 0 }

def netReset : NetSt := { legs := [], streams := [], ports := [] }

def mixReset : MixSt :=
  { mixers := [], buses := [], xps := [], legs := [], partials := [], totals := [], srcs := [] }

def codReset : CodSt := { modems := [], pools := [], ctxs := [] }

def cmpReset : CmpSt := { comps := [], atlas := [] }

def encReset : EncSt := { encs := [], engines := [] }

def sendReset : SendSt :=
  { sends := [], fwds := [], rates := [], profiles := [], legs := [], queues := [], ports := [], sample := [] }

def taskReset : TaskSt := { flows := [], ready := [], parked := [], dieEqual := false, arbs := [], notMade := [] }

def dspReset : DspSt := { engines := [], insts := [], window := [] }

def joinReset : JoinSt := { cod := [], cmp := [], dsp := [], byCmd := [], waits := [], loops := [] }

def hbReset : HbLane := { last := none, run := 0, up := false }

/-- Role DISABLED: every output is driven as on an unpaired part (Table 18-1). -/
def pairReset : PairSt where
  role := 0
  c := 0
  e := 0
  mismatch := 0
  peer := none
  heard := none
  lane0 := hbReset
  lane1 := hbReset
  wire := hbReset
  crossed := false
  loop0 := false
  loop1 := false
  tied := false
  delay := false
  delayNext := none
  excl := true
  exclNext := none
  release := none
  waits := []
  window := none
  outcomes := []
  applied := none
  holdings := none
  mutes := []
  unacked := []

/-- The machine right after the always-on domain is powered: an 808 of revision B0 and grade E with blank flash (assumptions
1, 2). -/
def mReset : M where
  part := { media := 7, gradeX := false, revLetter := 0x42, revDigit := 0, serial := 0, romKeys := List.replicate 4 (0, false) }
  vault := { ownerKey := none, mono := 0 }
  dev := 0
  tim := timReset
  pace := paceReset
  avs := avsReset
  fold := []
  syn := synReset
  host := hostReset
  jrn := jrnReset
  i3c := i3cReset
  key := keyReset
  auth := []
  mem := memReset
  start := startReset
  pwr := pwrReset
  pin := pinReset
  refout := refoutReset
  cnt := []
  lim := []
  pend := []
  deferred := []
  owner := []
  net := netReset
  mix := mixReset
  cod := codReset
  cmp := cmpReset
  enc := encReset
  snd := sendReset
  tsk := taskReset
  dsp := dspReset
  join := joinReset
  pair := pairReset
  ticks := []
  sent := []
  drawn := 0

def State.reset : State := { pending := [], m := mReset }

end Sys2Proof.Machine
end

