-- ==== Sys2Proof/Machine/Img.lean ====
section
/-!
DEFINITION. Object ids (R93), what a syntax image says (R62), and the rule set of R70.
-/
namespace Sys2Proof.Machine

/-! ## Object ids -/

def oidCls (o : Nat) : Nat := bits o 28 4
def oidDie (o : Nat) : Nat := bits o 25 3
def oidIdx (o : Nat) : Nat := bits o 0 25

/-- Die and index together: the key of an object in its class's table. -/
def oidKey (o : Nat) : Nat := bits o 0 28

def mkKey (die idx : Nat) : Nat := die * 2 ^ 25 + idx
def mkOid (cls die idx : Nat) : Nat := cls * 2 ^ 28 + die * 2 ^ 25 + idx
def keyDie (k : Nat) : Nat := bits k 25 3
def keyIdx (k : Nat) : Nat := bits k 0 25

/-- The infrastructure object of a die, 0 for the part or the hub (Table 04-4a). -/
def infraOid (die : Nat) : Nat := mkOid 3 die 0
def timOid : Nat := mkOid 1 0 0
def synOid : Nat := mkOid 2 0 0
def jrnOid : Nat := mkOid 4 0 0
def fnOid (f : Nat) : Nat := mkOid 5 0 (f * 2 ^ 18 + 3 * 2 ^ 16)
def ringOid (f kind r : Nat) : Nat := mkOid 5 0 (f * 2 ^ 18 + kind * 2 ^ 16 + r)

/-- Leg id (R93). -/
def legId (key : Nat) : Nat := (keyDie key - 1) * 1024 + keyIdx key

/-- The object id of a leg id. -/
def legKeyOfId (id : Nat) : Nat := mkKey (id / 1024 + 1) (id % 1024)

/-! ## Sections of an image -/

def imgFind (img : Image) (typ die : Nat) : Option Sect := img.sections.find? fun s => s.typ == typ && s.die == die

def secPart (img : Image) : Nat × List (List Nat) × Nat × Nat × Nat :=
  match imgFind img 1 0xFF with
  | some s => match s.body with
    | .part v q o f b => (v, q, o, f, b)
    | _ => (0, [], 0, 0, 0)
  | none => (0, [], 0, 0, 0)

/-- VFs of the PART section. -/
def imgVfs (img : Option Image) : Nat := match img with
  | some i => (secPart i).1
  | none => 0

/-- Index of an object class in a function's quota list (Table 04-4b). -/
def quotaIdx (cls : Nat) : Option Nat :=
  match cls with
  | 9 => some 0 | 0xA => some 1 | 0xB => some 2 | 0xC => some 3 | 0xD => some 4 | 7 => some 5
  | _ => none

/-- Quota of a function for a class that carries one (R492); a function the section does not list has quota 0. -/
def imgQuota (img : Option Image) (fn cls : Nat) : Option Nat :=
  match quotaIdx cls, img with
  | some k, some i => some (((secPart i).2.1.getD fn []).getD k 0)
  | some _, none => some 0
  | none, _ => none

def imgI3cOwner (img : Option Image) : Nat := match img with
  | some i => (secPart i).2.2.1
  | none => 0

def imgFoldArb (img : Option Image) : Nat := match img with
  | some i => (secPart i).2.2.2.1
  | none => 0

def imgStemDebug (img : Option Image) : Nat := match img with
  | some i => (secPart i).2.2.2.2
  | none => 0

/-- Leg count of a media die. -/
def imgLegs (img : Option Image) (die : Nat) : Nat :=
  match img with
  | some i => match imgFind i 5 0xFF with
    | some s => match s.body with
      | .legs c => c.getD (die - 1) 0
      | _ => 0
    | none => 0
  | none => 0

/-- Personalities and modem enables of a die. -/
def imgLanes (img : Option Image) (die : Nat) : List Nat × List Bool :=
  match img with
  | some i => match imgFind i 3 die with
    | some s => match s.body with
      | .lanes p m => (p, m)
      | _ => ([], [])
    | none => ([], [])
  | none => ([], [])

/-- Personality of a lane: 0 off, 1 ETH10, 2 ETH25, 3 ETH100, 4 SDI, 5 JESD, 6 CONJ. -/
def lanePers (img : Option Image) (die lane : Nat) : Nat := (imgLanes img die).1.getD lane 0

def modemEnabled (img : Option Image) (die ch : Nat) : Bool := (imgLanes img die).2.getD ch false

/-- Roles, codec pairs, compositor pair, signal engine pairs, C3 bits, cipher code of a die. -/
def imgUnits (img : Option Image) (die : Nat) :
    List Nat × List (Nat × Nat) × List (Nat × Nat) × List (Nat × Nat) × List Nat × Nat :=
  match img with
  | some i => match imgFind i 2 die with
    | some s => match s.body with
      | .dieUnits r cp mp dp c3 ci => (r, cp, mp, dp, c3, ci)
      | _ => ([], [], [], [], [], 0)
    | none => ([], [], [], [], [], 0)
  | none => ([], [], [], [], [], 0)

/-- Audio window code, X, L, guard ceiling in µs of a die. -/
def imgMixer (img : Option Image) (die : Nat) : Nat × Nat × Nat × Nat :=
  match img with
  | some i => match imgFind i 6 die with
    | some s => match s.body with
      | .mixer w x l c => (w, x, l, c)
      | _ => (0, 0, 0, 0)
    | none => (0, 0, 0, 0)
  | none => (0, 0, 0, 0)

/-- Audio window of a die in ns (R43). -/
def dieWindow (img : Option Image) (die : Nat) : Nat := if (imgMixer img die).1 = 1 then 250000 else 1000000

/-- Guard ceiling of a die in ns; 0 in the section means the default guard of Table 02-3. -/
def guardCeiling (img : Option Image) (die : Nat) : Nat :=
  let c := (imgMixer img die).2.2.2
  if c = 0 then (if (imgMixer img die).1 = 1 then 25000 else 100000) else c * 1000

/-- Queues granted to a function by die 0. -/
def imgGrant (img : Option Image) (fn : Nat) : FnGrant :=
  match img with
  | some i => match imgFind i 4 0 with
    | some s => match s.body with
      | .hubQueues fs => fs.getD fn { sub := 0, cmp := 0, evq := 0, exp := 0 }
      | _ => { sub := 0, cmp := 0, evq := 0, exp := 0 }
    | none => { sub := 0, cmp := 0, evq := 0, exp := 0 }
  | none => { sub := 0, cmp := 0, evq := 0, exp := 0 }

/-- Egress queues granted to a function on a media die. -/
def imgEgress (img : Option Image) (die fn : Nat) : Nat :=
  match img with
  | some i => match imgFind i 4 die with
    | some s => match s.body with
      | .dieQueues q => q.getD fn 0
      | _ => 0
    | none => 0
  | none => 0

/-- Floors: media dies, channels and lanes per die, hub channels. -/
def imgFloors (img : Option Image) : Nat × List Nat × List Nat × Nat :=
  match img with
  | some i => match imgFind i 7 0xFF with
    | some s => match s.body with
      | .floors d c l h => (d, c, l, h)
      | _ => (0, [], [], 0)
    | none => (0, [], [], 0)
  | none => (0, [], [], 0)

def imgPlacement (img : Option Image) (die n : Nat) : Nat :=
  match img with
  | some i => match imgFind i 8 die with
    | some s => match s.body with
      | .placement b => b.getD n 0
      | _ => 0
    | none => 0
  | none => 0

def imgBlobs (img : Option Image) (die : Nat) : List Blob :=
  match img with
  | some i => match imgFind i 0x102 die with
    | some s => match s.body with
      | .dspFw b => b
      | _ => []
    | none => []
  | none => []

/-- The blob the image places on a signal engine. -/
def placedBlob (img : Option Image) (die n : Nat) : Option Blob :=
  let id := imgPlacement img die n
  if id = 0 then none else (imgBlobs img die).find? fun b => b.id == id

/-! ## The bytes of an image (R61 to R66) -/

/-- A digest in byte order. -/
def digestBytes48 (h : Digest) : List Byte := beBytes 48 h.toNat

/-- Bytes 0 to 127 of an image (Table 03-1). -/
def headerBytes (i : Image) : List Byte :=
  leBytes 4 i.magic ++ leBytes 2 i.version ++ leBytes 2 i.target ++ leBytes 4 i.length ++ leBytes 2 i.count ++ leBytes 2 i.flags ++
  leBytes 8 i.serial ++ leBytes 8 i.rsv1 ++ digestBytes48 i.hash ++ leBytes 48 i.rsv2

/-- A section table entry with its offset set to zero (R63). -/
def entryBytes (s : Sect) : List Byte :=
  leBytes 2 s.typ ++ leBytes 1 s.die ++ leBytes 1 s.cls ++ leBytes 4 0 ++ leBytes 4 s.length ++ leBytes 4 s.crc32

/-- The structure hash of R63. -/
def structureHash (i : Image) : Digest :=
  digestOf ((i.sections.filter fun s => s.cls == 0).flatMap fun s => entryBytes s ++ s.data)

/-- The digest of a public key. -/
def keyDigest (k : EcKey) : Digest := digestOf (ecKeyBytes k)

/-- What the Svetfold signature covers (R65). -/
def svetMessage (i : Image) : List Byte :=
  headerBytes i ++ (i.sections.filter fun s => s.cls == 1).flatMap Sect.data

/-- The Svetfold signature passes R65. -/
def svetPasses (p : Part) (i : Image) : Bool :=
  (match p.romKeys[i.sign.keyIndex]? with
   | some (h, revoked) => h == keyDigest i.sign.svetKey && !revoked
   | none => false) && ecVerify i.sign.svetKey i.sign.svetSig (svetMessage i)

/-- The owner signature verifies under the key the image carries (R66, R67). -/
def ownerVerifies (i : Image) : Bool := ecVerify i.sign.ownerKey i.sign.ownerSig (headerBytes i)

/-- The owner signature passes R66: with a key enrolled, the carried key is that key and the signature verifies. -/
def ownerPasses (owner : Option Digest) (i : Image) : Bool := match owner with
  | none => true
  | some k => keyDigest i.sign.ownerKey == k && ownerVerifies i

/-- "SYNX" and "BREC" as numbers, first character lowest. -/
def magicSynx : Nat := 0x584E5953
def magicBrec : Nat := 0x43455242

/-- End of the section table. -/
def tableEnd (i : Image) : Nat := 128 + 16 * i.sections.length

/-- The header's image_length is the count of its bytes, which hold at least header, table and signature block. -/
def lengthOk (i : Image) : Bool := i.length == i.size && decide (tableEnd i + 512 ≤ i.length)

/-- A section starts on a 4 KiB boundary and lies between the table and the signature block. -/
def sectInside (i : Image) (s : Sect) : Bool :=
  s.offset % 4096 == 0 && decide (tableEnd i ≤ s.offset) && decide (s.offset + s.length + 512 ≤ i.length)

/-- Two sections overlap. -/
def sectsOverlap (a b : Sect) : Bool :=
  decide (a.offset < b.offset + b.length) && decide (b.offset < a.offset + a.length)

/-- The reserved bytes of the header are zero. -/
def reservedOk (i : Image) : Bool := i.flags == 0 && i.rsv1 == 0 && i.rsv2 == 0

/-! ## The rule set (R70) -/

/-- A violation: rule code, section index, die. -/
structure Viol where
  rule : Nat
  sec : Nat
  die : Nat
deriving DecidableEq, Repr

def headViol (rule : Nat) : Viol := { rule := rule, sec := 0xFFFF, die := 0xFF }

/-- Class and permitted die fields of a section type (Table 03-3). -/
def secTypeOk (media : Nat) (s : Sect) : Bool :=
  let whole := s.die == 0xFF
  let mediaDie := decide (1 ≤ s.die) && decide (s.die ≤ 7)
  let anyDie := decide (s.die ≤ 7)
  match s.typ, s.body with
  | 1, .part .. => s.cls == 0 && whole
  | 2, .dieUnits .. => s.cls == 0 && mediaDie
  | 3, .lanes .. => s.cls == 0 && anyDie
  | 4, .hubQueues .. => s.cls == 0 && s.die == 0
  | 4, .dieQueues .. => s.cls == 0 && mediaDie
  | 5, .legs .. => s.cls == 0 && whole
  | 6, .mixer .. => s.cls == 0 && mediaDie
  | 7, .floors .. => s.cls == 0 && whole
  | 8, .placement .. => s.cls == 0 && mediaDie
  | 0x101, .coreFw => s.cls == 1 && s.die == 0
  | 0x102, .dspFw .. => s.cls == 1 && mediaDie
  | _, _ => media == 0 && false

/-- The first section that a test refuses, as a violation of a rule. -/
def secViol (rule : Nat) (bad : Sect → Bool) (img : Image) : Option Viol :=
  (img.sections.zipIdx.find? fun p => bad p.1).map fun p => { rule := rule, sec := p.2, die := p.1.die }

/-- (type, die) of every section the part requires (R62), in the order in which a missing one is reported. DESIGN CHOICE (log
108): R70 does not say which of several missing sections is reported. -/
def required (media : Nat) : List (Nat × Nat) :=
  [(1, 0xFF), (5, 0xFF), (7, 0xFF), (3, 0), (4, 0), (0x101, 0)] ++
  (List.range media).flatMap fun i => [2, 3, 4, 6, 8, 0x102].map fun t => (t, i + 1)

/-- Rule 0x0107: a section twice or of an absent die, then a section missing. -/
def rule107 (media : Nat) (img : Image) : Option Viol :=
  let bad := img.sections.zipIdx.find? fun p =>
    (decide (p.1.die ≠ 0xFF) && decide (p.1.die > media)) ||
    (img.sections.take p.2).any fun q => q.typ == p.1.typ && q.die == p.1.die
  match bad with
  | some p => some { rule := 0x107, sec := p.2, die := p.1.die }
  | none =>
    match (required media).find? fun r => (imgFind img r.1 r.2).isNone with
    | some r => some { rule := 0x107, sec := 0xFFFF, die := r.2 }
    | none => none

/-- The value of HIF_ID.part and target_part (Table 03-1) by media dies. -/
def partCode (media : Nat) : Nat := if media = 1 then 0x0802 else if media = 3 then 0x0804 else 0x0808

/-- Rule 0x0105: the first section, in table order, that does not lie inside or overlaps an earlier one; then the header's
reserved bytes. -/
def rule105 (i : Image) : Option Viol :=
  match i.sections.zipIdx.find? fun p => !sectInside i p.1 || (i.sections.take p.2).any (sectsOverlap p.1) with
  | some p => some { rule := 0x105, sec := p.2, die := p.1.die }
  | none => if reservedOk i then none else some (headViol 0x105)

/-- Rules of group 0x01 in their order. `stageLen`: image length of the stage header, for SYN_STAGE. -/
def rulesFormat (part : Part) (owner : Option Digest) (stageLen : Option Nat) (img : Image) : Option Viol :=
  if img.magic ≠ magicSynx then some (headViol 0x101)
  else if img.version ≠ 2 then some (headViol 0x102)
  else if img.target ≠ partCode part.media then some (headViol 0x103)
  else if img.length > 62914560 || !lengthOk img || (match stageLen with | some n => n != img.length | none => false) then
    some (headViol 0x104)
  else match rule105 img with
  | some v => some v
  | none =>
    match secViol 0x106 (fun s => !secTypeOk part.media s) img with
    | some v => some v
    | none => match rule107 part.media img with
      | some v => some v
      | none => match secViol 0x108 (fun s => s.crc32 != crc32 s.data) img with
        | some v => some v
        | none =>
          if img.hash ≠ structureHash img then some (headViol 0x108)
          else if !svetPasses part img then some (headViol 0x109)
          else if ownerPasses owner img then none else some (headViol 0x10A)

/-- A pair of units 2k and 2k + 1 below a count. -/
def evenPair (count : Nat) (p : Nat × Nat) : Bool :=
  p.1 % 2 == 0 && p.2 == p.1 + 1 && decide (p.2 < count)

def pairsOk (count : Nat) (ps : List (Nat × Nat)) : Bool :=
  ps.all (evenPair count) && (ps.map Prod.fst).Nodup

/-- Rules 0x0201 to 0x0204 over one DIE_UNITS section. -/
def unitsBad (rule : Nat) (s : Sect) : Bool :=
  match s.body with
  | .dieUnits roles cp mp dp c3 ci =>
    match rule with
    | 0x201 => !(roles.all (fun r => decide (r ≤ 3)) && roles.length == 12 && pairsOk 12 cp &&
        cp.all fun p => roles.getD p.1 0 == roles.getD p.2 0 && roles.getD p.1 0 != 0)
    | 0x202 => !(mp == [] || mp == [(0, 1)])
    | 0x203 => !(pairsOk 32 dp && c3.length == 32 && dp.all fun p => c3.getD p.1 0 == c3.getD p.2 0)
    | 0x204 => decide (ci > 2)
    | _ => false
  | _ => false

/-- Rule 0x0205: personalities 0 to 6; ETH100 exactly on lanes 0–3 or 4–7 of a media die; SDI and JESD on media lanes. -/
def lanesBad205 (s : Sect) : Bool :=
  match s.body with
  | .lanes p _ =>
    let g (a : Nat) : List Nat := [p.getD a 0, p.getD (a + 1) 0, p.getD (a + 2) 0, p.getD (a + 3) 0]
    let groupOk (l : List Nat) : Bool := l.all (· == 3) || l.all (· != 3)
    !(p.all (fun x => decide (x ≤ 6)) &&
      (if s.die = 0 then p.all fun x => x != 3 && x != 4 && x != 5 else groupOk (g 0) && groupOk (g 4)))
  | _ => false

/-- Rule 0x0206: hub lanes 0 and 1 both CONJ or both off, 2 and 3 ETH25 or off, CONJ nowhere else. -/
def lanesBad206 (s : Sect) : Bool :=
  match s.body with
  | .lanes p _ =>
    if s.die = 0 then
      !(((p.getD 0 0 == 6 && p.getD 1 0 == 6) || (p.getD 0 0 == 0 && p.getD 1 0 == 0)) &&
        ([p.getD 2 0, p.getD 3 0].all fun x => x == 0 || x == 2))
    else p.any (· == 6)
  | _ => false

/-- Rule 0x0207: as many JESD lanes as enabled modem channels; the hub has neither. -/
def lanesBad207 (s : Sect) : Bool :=
  match s.body with
  | .lanes p m => (p.filter (· == 5)).length != (m.filter id).length || decide (m.length > 2)
  | _ => false

/-- Functions of a part: PF0 to PF2 and the VFs. -/
def fnCount (img : Image) : Nat := 3 + (secPart img).1

/-- Rule 0x0208. -/
def queuesBad (fns : Nat) (s : Sect) : Bool :=
  match s.body with
  | .hubQueues fs =>
    let sum (f : FnGrant → Nat) : Nat := (fs.map f).sum
    !(decide (sum FnGrant.sub ≤ 960) && decide (sum FnGrant.cmp ≤ 960) && decide (sum FnGrant.evq ≤ 64) &&
      decide (sum FnGrant.exp ≤ 64) && fs.length == fns &&
      fs.all fun g => decide (1 ≤ g.sub) && decide (1 ≤ g.cmp) && decide (1 ≤ g.evq))
  | .dieQueues q => decide (q.sum > 1536)
  | _ => false

/-- The part's total of a quota class, in the order of `quotaIdx` (Table 04-4b). -/
def quotaTotal (media k : Nat) : Nat :=
  match k with
  | 0 => 1024 * media
  | 1 => 8 * 1024 * media
  | 2 => (3072 + 768) * media
  | 3 => 256 * media
  | 4 => 3 * media
  | _ => 131072

/-- Rule 0x0209. -/
def partBad209 (media : Nat) (s : Sect) : Bool :=
  match s.body with
  | .part v q _ _ _ =>
    decide (v > 61) ||
    (List.range 6).any fun k => decide ((q.map fun r => r.getD k 0).sum > quotaTotal media k)
  | _ => false

def legsBad (s : Sect) : Bool :=
  match s.body with
  | .legs c => c.any fun n => decide (n > 1024)
  | _ => false

/-- Rule 0x020B: window code; ceiling 0 or from the default to the maximum guard of that window (Table 02-3). -/
def mixBad20B (s : Sect) : Bool :=
  match s.body with
  | .mixer w _ _ c =>
    !(decide (w ≤ 1) && (c == 0 || (if w = 1 then decide (25 ≤ c) && decide (c ≤ 125) else decide (100 ≤ c) && decide (c ≤ 500))))
  | _ => false

/-- Rule 0x020C: X ≤ 16,384, L ≤ the die's legs, and (X + 2L) · W ≤ 25,000 · (W − G), all in µs. -/
def mixBad20C (img : Image) (s : Sect) : Bool :=
  match s.body with
  | .mixer w x l c =>
    let win := if w = 1 then 250 else 1000
    let g := if c = 0 then (if w = 1 then 25 else 100) else c
    !(decide (x ≤ 16384) && decide (l ≤ imgLegs (some img) s.die) && decide ((x + 2 * l) * win ≤ 25000 * (win - g)))
  | _ => false

def partBad20D (s : Sect) : Bool :=
  match s.body with
  | .part _ _ o f _ => decide (o > 2) || decide (f > 1)
  | _ => false

/-- A blob header meets Table 15-2. -/
def blobOk (b : Blob) : Bool :=
  b.reserved.all (· == 0) && decide (1 ≤ b.id) && decide (b.id ≤ 0xFFFE) && decide (b.functions.length ≤ 16) &&
  (!b.service || b.functions.isEmpty) && decide (1 ≤ b.prog.length) &&
  decide (b.prog.length ≤ if b.wide then 32768 else 16384) && decide (b.x.length ≤ 16384) &&
  decide (b.y.length ≤ 16384) && (b.functions.map Prod.fst).Nodup &&
  b.functions.all fun f => decide (1 ≤ f.1) && decide (f.1 ≤ 255) && decide (f.2.1 ≤ 4) && decide (1 ≤ f.2.2.1) &&
    decide (f.2.2.1 ≤ 1440000) && decide (2 ≤ f.2.2.2) && decide (f.2.2.2 ≤ 255)

/-- Rule 0x020E over one PLACEMENT section. -/
def placeBad (img : Image) (s : Sect) : Bool :=
  match s.body with
  | .placement bs =>
    let dp := (imgUnits (some img) s.die).2.2.2.1
    bs.zipIdx.any fun p =>
      p.1 != 0 &&
      (match (imgBlobs (some img) s.die).find? fun b => b.id == p.1 with
       | none => true
       | some b =>
         let even := dp.any fun q => q.1 == p.2
         let odd := dp.any fun q => q.2 == p.2
         !blobOk b || odd || (if b.wide then !even else even))
  | _ => false

def floorsBad (media : Nat) (s : Sect) : Bool :=
  match s.body with
  | .floors d c l h =>
    decide (d > media) || (l.any fun x => decide (x > 8)) || (c.any fun x => decide (x > 6)) || !(h == 1 || h == 2)
  | _ => false

/-- The first of a list of checks that finds a violation. -/
def firstViol : List (Option Viol) → Option Viol
  | [] => none
  | some v :: _ => some v
  | none :: r => firstViol r

/-- Rules of group 0x02 in their order. -/
def rulesStructure (part : Part) (img : Image) : Option Viol :=
  firstViol
    [secViol 0x201 (unitsBad 0x201) img, secViol 0x202 (unitsBad 0x202) img, secViol 0x203 (unitsBad 0x203) img,
     secViol 0x204 (unitsBad 0x204) img, secViol 0x205 lanesBad205 img, secViol 0x206 lanesBad206 img,
     secViol 0x207 lanesBad207 img, secViol 0x208 (queuesBad (fnCount img)) img,
     secViol 0x209 (partBad209 part.media) img, secViol 0x20A legsBad img, secViol 0x20B mixBad20B img,
     secViol 0x20C (mixBad20C img) img, secViol 0x20D partBad20D img, secViol 0x20E (placeBad img) img,
     secViol 0x20F (floorsBad part.media) img]

/-- Groups 0x01 and 0x02 (R70). -/
def rulesAll (part : Part) (owner : Option Digest) (stageLen : Option Nat) (img : Image) : Option Viol :=
  match rulesFormat part owner stageLen img with
  | some v => some v
  | none => rulesStructure part img

/-- The types a die-scope activation may change for its die (rule 0x0301). -/
def dieTypes : List Nat := [2, 3, 4, 6, 8, 0x102]

/-- Group 0x03: rules 0x0301 and 0x0302 for one die against the running image. `audioGuard`: the part's present guard
of the die's new window size. -/
def rulesDie (run img : Image) (die : Nat) (guards : List Nat) : Option Viol :=
  let mine (s : Sect) : Bool := s.die == die && dieTypes.contains s.typ
  let diff := img.sections.zipIdx.find? fun p =>
    !mine p.1 && (match imgFind run p.1.typ p.1.die with | some q => q.data != p.1.data || q.body != p.1.body | none => true)
  match diff with
  | some p => some { rule := 0x301, sec := p.2, die := p.1.die }
  | none =>
    let g := guards.getD (imgMixer (some img) die).1 0
    if guardCeiling (some img) die < g then
      secViol 0x302 (fun s => s.typ == 6 && s.die == die) img
    else none

/-- Detail of a rule failure (R72). -/
def violDetail (v : Viol) : Nat := v.rule + v.sec * 2 ^ 16 + v.die * 2 ^ 32

/-- The running image once one die's sections come from another image (R76). All others are equal by rule 0x0301, so header,
section order and signatures are the other image's. -/
def restructured (run img : Image) (die : Nat) : Image :=
  { img with
    sections := img.sections.map fun s =>
      if s.die == die && dieTypes.contains s.typ then s else (imgFind run s.typ s.die).getD s }

end Sys2Proof.Machine
end

