-- ==== Sys2Proof/Machine/Ops.lean ====
section
/-!
DEFINITION. The operations every chapter shares: outputs, counters, events and their queues (R100 to R102), the journal
(R111 to R123), completions (R89, R90), boundaries of device time (R43, R44, R49), and actions and events of units.
-/
namespace Sys2Proof.Machine

/-! ## Small operations -/

/-- Record something that leaves the block. -/
def emit (o : Out) (m : M) : M := { m with sent := o :: m.sent }

/-- Draw the next free value. -/
def draw (m : M) : M := { m with drawn := m.drawn + 1 }

def nsPerS : Nat := 1000000000

/-- The running image. -/
def img (m : M) : Option Image := m.syn.run

/-- Media dies of the part. -/
def mediaDies (m : M) : List Nat := (List.range m.part.media).map (· + 1)

/-- SYN_DIE_STATE of a die (Table 03-13): 0 ABSENT, 1 RUN, 2 RESTRUCTURE, 3 LOST, 4 HELD. -/
def dieState (m : M) (d : Nat) : Nat := (tget m.syn.dies d (0, 0)).1

def setDieState (d st : Nat) (m : M) : M :=
  { m with syn.dies := tmod m.syn.dies d (0, 0) fun p => (st, p.2) }

def dieRun (m : M) (d : Nat) : Bool := dieState m d == 1

/-! ## Read-to-clear counters (R12, R466) -/

/-- The value a register holds at. -/
def cntTop : CntReg → Nat
  | .fnDirectDrop | .fnBadWrite | .fnBadDoorbell | .fnFetchFault => 0xFF
  | .pwrDropped => 0xFF
  | .ignoredWrites | .badAccess | .foldIntegrity | .foldDown | .refDisagree | .jrnMirrorGaps | .exportGaps
  | .i3cRefused | .pinTxFaults | .pinGpioFaults | .pinLsFaults | .i3cRecoveries => 0xFFFF
  | .laneDropped | .lanePrbs | .pairCrc | .netPort | .mixCnt | .trfMax => 0xFFFF
  | .fwdPli => 0x7F
  | _ => 0xFFFFFFFF

def cntFind : List (CntId × Nat) → CntId → Nat
  | [], _ => 0
  | (k, v) :: r, i => if k = i then v else cntFind r i

def cntPut : List (CntId × Nat) → CntId → Nat → List (CntId × Nat)
  | [], i, n => [(i, n)]
  | (k, v) :: r, i, n => if k = i then (i, n) :: r else (k, v) :: cntPut r i n

/-- A counter's value; an unlisted one reads 0. -/
def cntGet (m : M) (i : CntId) : Nat := cntFind m.cnt i

/-- Count `n` more, holding at the top. -/
def cntAdd (i : CntId) (n : Nat) (m : M) : M :=
  { m with cnt := cntPut m.cnt i (hold (cntTop i.reg) (cntGet m i + n)) }

def count (r : CntReg) (i j k : Nat) (m : M) : M := cntAdd { reg := r, i := i, j := j, k := k } 1 m

/-- A read of an RC field: the value, and the field cleared (R466). -/
def cntClear (i : CntId) (m : M) : M := { m with cnt := cntPut m.cnt i 0 }

/-! ## Rate limits -/

def limFind : List (LimId × Nat) → LimId → Option Nat
  | [], _ => none
  | (k, v) :: r, i => if k = i then some v else limFind r i

def limPut : List (LimId × Nat) → LimId → Nat → List (LimId × Nat)
  | [], i, n => [(i, n)]
  | (k, v) :: r, i, n => if k = i then (i, n) :: r else (k, v) :: limPut r i n

/-- An event limited to once per `period` ns of MONO may be raised now. -/
def limOpen (m : M) (i : LimId) (period : Nat) : Bool :=
  match limFind m.lim i with
  | none => true
  | some t => decide (t + period ≤ m.vault.mono)

/-- Do `f` at most once per period. -/
def limited (i : LimId) (period : Nat) (f : M → M) (m : M) : M :=
  if limOpen m i period then f { m with lim := limPut m.lim i m.vault.mono } else m

/-! ## MSI-X (R90) -/

def msixKey (f v : Nat) : Nat := f * 4096 + v

/-- Raise a vector: a masked one sets its pending bit. -/
def msixRaise (f v : Nat) (m : M) : M :=
  let e := tget m.host.msix (msixKey f v) (true, false)
  if e.1 then { m with host.msix := tset m.host.msix (msixKey f v) (true, true) }
  else emit (.msix f v) m

/-! ## Functions and event queues (R100 to R102) -/

/-- The direct completion head window at reset: all zero. -/
def completion0 : Completion := { tag := 0, status := 0, ostate := 0, seqLo := 0, detail := 0 }

/-- The head window of an event queue at reset: all zero (Table 04-11). -/
def evRec0 : EvRec := { type := 0, level := 0, quality := 0, sec := 0, ns := 0, obj := 0, data := [] }

def fnEmpty : Fn :=
  { sub := [], cmp := [], evq := [], directWait := [], directOut := 0, directFifo := [], directHead := completion0, epoch := 0,
    latch := none }

def getFn (m : M) (f : Nat) : Fn := tget m.host.fns f fnEmpty

def setFn (f : Nat) (x : Fn) (m : M) : M := { m with host.fns := tset m.host.fns f x }

/-- Functions that exist: PF0 to PF2 and the VFs of the PART section. -/
def fnList (m : M) : List Nat := List.range (3 + imgVfs (img m))

/-- An event queue before HIF_EVQ_CONFIG: queue 0 receives everything at interrupt level 7, vector 0 (R102). -/
def evqDefault (q : Nat) : Evq :=
  { classMask := if q = 0 then 0xFFFFFFFF else 0, dieMask := if q = 0 then 0xFF else 0, threshold := 7,
    intLevel := 7, vector := 0, recs := [], head := evRec0, underrun := false }

def getEvq (m : M) (f q : Nat) : Evq := tget (getFn m f).evq q (evqDefault q)

def setEvq (f q : Nat) (e : Evq) (m : M) : M :=
  setFn f { getFn m f with evq := tset (getFn m f).evq q e } m

/-- Bytes of one data item (R494). -/
def itemBytes : Item → List Byte
  | .u w n => leBytes w (hold (256 ^ w - 1) n)
  | .s w i => leBytes w (tc (8 * w) (satS (8 * w) i))

/-- The 14 data bytes of an event (Table 04-8). -/
def evData (its : List Item) : List Byte :=
  let b := its.flatMap itemBytes
  (b ++ List.replicate 14 0#8).take 14

/-- Lowest priority, which is the highest level number, among the records and the arriving one. -/
def worstLevel (recs : List EvRec) (r : EvRec) : Nat := recs.foldl (fun a e => if a < e.level then e.level else a) r.level

/-- Remove the oldest record of a level. -/
def dropOldest (l : Nat) : List EvRec → List EvRec
  | [] => []
  | e :: r => if e.level = l then r else e :: dropOldest l r

/-- What an insertion leaves: the records, the level of the record lost if one is, whether the arriving record is held. -/
structure Inserted where
  recs : List EvRec
  lost : Option Nat
  held : Bool
deriving DecidableEq, Repr

/-- Insertion of R101: a full queue loses the oldest record of the lowest priority among its records and the arriving
one, which is the arriving one itself when it alone has that level. -/
def evqInsert (recs : List EvRec) (r : EvRec) : Inserted :=
  if recs.length < 512 then { recs := recs ++ [r], lost := none, held := true }
  else
    let w := worstLevel recs r
    if recs.any fun e => e.level == w then
      { recs := dropOldest w recs ++ [r], lost := some w, held := true }
    else { recs := recs, lost := some w, held := false }

/-- The record a pop takes: the oldest of the highest-priority level. -/
def evqBest (recs : List EvRec) : Option EvRec :=
  recs.foldl (fun a e => match a with
    | none => some e
    | some b => if e.level < b.level then some e else some b) none

/-- Remove the oldest record of the level a pop takes. -/
def evqPopRecs (recs : List EvRec) : List EvRec :=
  match evqBest recs with
  | none => []
  | some b => dropOldest b.level recs

/-- Whether a function's queues may see an event (R110). -/
def evVisible (m : M) (f : Nat) (r : EvRec) : Bool :=
  decide (f < 3) || r.type / 256 == 1 || tget? m.owner r.obj == some f

/-- Whether a queue's configuration selects an event (R102). -/
def evSelects (e : Evq) (r : EvRec) : Bool :=
  bit e.classMask (r.type / 256) && bit e.dieMask (oidDie r.obj) && decide (r.level ≤ e.threshold)

/-- The vector of a queue for a record that enters it at or above the interrupt level, unless masked (R102, R473). -/
def evqSignal (f q level : Nat) (m : M) : M :=
  let e := getEvq m f q
  if level ≤ e.intLevel && !bit (tget m.host.evqMask f 0) q then msixRaise f e.vector m else m

/-- One queue takes an event. -/
def evqTake (f q : Nat) (r : EvRec) (m : M) : M :=
  let e := getEvq m f q
  if evVisible m f r && evSelects e r then
    let ins := evqInsert e.recs r
    let m1 := setEvq f q { e with recs := ins.recs } m
    let m2 := match ins.lost with
      | some l => count .evqLost f q l m1
      | none => m1
    if ins.held then evqSignal f q r.level m2 else m2
  else m

/-- Every queue of a function takes an event. -/
def fnTake (r : EvRec) (f : Nat) (m : M) : M :=
  (List.range (imgGrant (img m) f).evq).foldl (fun x q => evqTake f q r x) m

/-- Every function's queues take an event. -/
def evDeliver (r : EvRec) (m : M) : M := (fnList m).foldl (fun x f => fnTake r f x) m

/-- Raise an event now: no queue runs before the image runs or in Stem mode (R425), and none is delivered in Comma state
(R442). -/
def raise (type level obj : Nat) (data : List Item) (m : M) : M :=
  let r : EvRec := { type := type, level := level, quality := m.tim.quality, sec := m.dev / nsPerS, ns := m.dev % nsPerS,
                     obj := obj, data := data }
  if m.start.phase = .stem then m
  else if 3 ≤ m.pwr.state then { m with pwr.heldEv := m.pwr.heldEv ++ [r] }
  else evDeliver r m

/-! ## The journal (chapter 05) -/

/-- Bytes 0 to 47 of a record (Table 05-3). -/
def recBytes (r : JRec) : List Byte :=
  leBytes 8 r.seq ++ leBytes 6 r.sec ++ leBytes 4 r.ns ++ leBytes 4 r.monoLo ++ leBytes 2 r.path ++ leBytes 1 r.origin ++
  leBytes 1 r.result ++ leBytes 4 r.obj ++ leBytes 2 r.opcode ++ leBytes 8 r.old ++ leBytes 8 r.new

/-- chain(n) of R116. -/
def chainOf (prev : BitVec 128) (r : JRec) : BitVec 128 :=
  BitVec.ofNat 128 (shaFirst 16 (leBytes 16 prev.toNat ++ recBytes r))

def ringSize : Nat := 16777216

/-- JRN_TAIL_SEQ: oldest record in the ring, equal to head while it is empty. -/
def jrnTail (j : JrnSt) : Nat := j.head - j.ring.length

/-- A mirror gap: the one record of code 0x04C4 that an internal unit makes (Table 05-6). -/
def isMirrorGap (r : JRec) : Bool := r.opcode == 0x04C4 && r.origin / 32 == 0

/-- The record of the flash mirror with the highest sequence number, mirror gaps apart: a checkpoint put at the head of the
backlog reaches flash before records with lower numbers. -/
def mirrorNewest (j : JrnSt) : Option JRec :=
  j.mirror.foldl (fun a r => if isMirrorGap r then a else match a with
    | none => some r
    | some b => if b.seq < r.seq then some r else some b) none

/-- JRN_MIRROR_SEQ: newest sequence number on flash. -/
def mirrorSeq (j : JrnSt) : Option Nat := (mirrorNewest j).map JRec.seq

/-- What a record holds beside sequence number, time and chain. -/
structure JIn where
  path : Nat
  domain : Nat
  kind : Nat
  payloadForm : Bool
  result : Nat
  obj : Nat
  opcode : Nat
  old : Nat
  new : Nat
  /-- announced by a priority-0 event -/
  urgent : Bool
deriving DecidableEq, Repr

/-- Critical records (R120). -/
def critical (j : JIn) : Bool :=
  j.domain == 2 || j.domain == 3 || [7, 2, 3, 9].contains (j.opcode / 256) || j.urgent ||
  (j.domain == 0 && [0x0181, 0x0182, 0x04C0, 0x04C2].contains j.opcode)

/-- A checkpoint goes to the head of the backlog, behind a record whose program is being retried. -/
def checkpointAhead (r : JRec) (j : JrnSt) : List JRec :=
  if j.retried then j.backlog.take 1 ++ r :: j.backlog.drop 1 else r :: j.backlog

/-- Into the mirror's backlog: checkpoints at its head, nothing once mirroring has stopped, a count when it is full. DESIGN
CHOICE (log 102): a checkpoint that finds the backlog full takes the place of the record that waits last, which counts as
not mirrored, since checkpoints reach flash in time by R119. -/
def mirrorOffer (r : JRec) (j : JrnSt) : JrnSt :=
  if j.mirrorFault then j
  else
    let check := r.opcode == 0x04C2 && r.origin / 32 == 0
    let full := decide (4096 ≤ j.backlog.length)
    { j with
      backlog := if check then (checkpointAhead r j).take 4096 else if full then j.backlog else j.backlog ++ [r],
      unmirrored := if full then j.unmirrored + 1 else j.unmirrored }

/-- The anchor in force at a sequence number (R117). -/
def anchorAt (j : JrnSt) (seq : Nat) : Nat × Nat × Nat × Nat :=
  (j.anchors.find? fun a => decide (a.1 ≤ seq)).getD (0, 0, 0, 0)

/-- The gap record of R121 for a reader at `next`. DESIGN CHOICE (log 103): its origin byte, which R121 does not give, is that of
an internal unit with time quality 0. -/
def gapRec (j : JrnSt) (obj next : Nat) : JRec :=
  let tail := jrnTail j
  let a := anchorAt j tail
  { seq := next, sec := a.2.1, ns := a.2.2.1, monoLo := a.2.2.2 % 2 ^ 32, path := 7, origin := 3 * 8, result := 0, obj := obj,
    opcode := 0x04C3, old := a.2.2.2, new := tail - next, chain := j.lostChain }

def exportOid (q : Nat) : Nat := mkOid 4 0 (q + 1)

def exportGet (m : M) (q : Nat) : Option ExportQ := tget? m.jrn.exports q

def exportSet (q : Nat) (e : ExportQ) (m : M) : M := { m with jrn.exports := tset m.jrn.exports q e }

/-- Whether a queue's mask selects a record (R123). -/
def exportWants (e : ExportQ) (r : JRec) : Bool :=
  let c := r.opcode / 256
  c == 0 || decide (c > 0x17) || bit e.mask c

/-- Write one record to an export queue, raising its vector at the interrupt count. -/
def exportWrite (q : Nat) (r : JRec) (m : M) : M :=
  match exportGet m q with
  | none => m
  | some e =>
    let u := e.unsignalled + 1
    let fire := decide (e.intCount ≤ u)
    let e1 := { e with
      written := (e.written + 1) % 2 ^ 32, unsignalled := if fire then 0 else u,
      firstAt := if e.unsignalled = 0 then m.vault.mono else e.firstAt }
    let m1 := emit (.exported q r e1.written) (exportSet q e1 m)
    if fire then msixRaise 1 e.vector m1 else m1

/-- The record at a sequence number of the ring. -/
def ringAt (j : JrnSt) (seq : Nat) : Option JRec := j.ring.find? fun r => r.seq == seq

/-- Records held by an export queue's ring in host memory. -/
def exportHeld (e : ExportQ) : Nat := (e.written + 2 ^ 32 - e.consumed) % 2 ^ 32

/-- One record, or one gap record, to an export queue that has room. -/
def exportStep (q : Nat) (m : M) : M :=
  match exportGet m q with
  | none => m
  | some e =>
    if !e.enabled || decide (m.jrn.head ≤ e.next) then m
    else if e.depth ≤ exportHeld e then exportSet q { e with full := true } m
    else if e.next < jrnTail m.jrn then
      let g := gapRec m.jrn (exportOid q) e.next
      let m1 := exportWrite q g (exportSet q { e with next := jrnTail m.jrn, full := false } m)
      raise 0x0401 2 (exportOid q) [.u 1 q, .u 4 ((jrnTail m.jrn - e.next) % 2 ^ 32)] (count .exportGaps q 0 0 m1)
    else match ringAt m.jrn e.next with
      | none => exportSet q { e with next := e.next + 1, full := false } m
      | some r =>
        let m1 := exportSet q { e with next := e.next + 1, full := false } m
        if exportWants e r then exportWrite q r m1 else m1

/-- Let an export queue catch up, at most `n` records. -/
def exportCatchUp (q : Nat) : Nat → M → M
  | 0, m => m
  | n + 1, m =>
    match exportGet m q with
    | none => m
    | some e => if !e.enabled || decide (m.jrn.head ≤ e.next) then m else
      let m1 := exportStep q m
      match exportGet m1 q with
      | some e1 => if e1.full then m1 else exportCatchUp q n m1
      | none => m1

/-- Every export queue examines what the ring holds beyond its next record. -/
def exportAll (m : M) : M :=
  (m.jrn.exports.map Prod.fst).foldl (fun x q => exportCatchUp q (x.jrn.head - (tget x.jrn.exports q
    { enabled := false, full := false, next := x.jrn.head, depth := 0, base := 0, writeBack := 0, consumedAt := 0,
      mask := 0, vector := 0, intCount := 0, written := 0, consumed := 0, unsignalled := 0, firstAt := 0,
      lastPoll := 0 }).next) x) m

/-- One record takes the next sequence number, in the step in which the change takes effect (R112). -/
def jrnPut (i : JIn) (m : M) : M :=
  let j := m.jrn
  let r0 : JRec :=
    { seq := j.head, sec := m.dev / nsPerS, ns := m.dev % nsPerS, monoLo := m.vault.mono % 2 ^ 32, path := i.path,
      origin := i.domain * 32 + i.kind * 8 + m.tim.quality * 2 + b2n i.payloadForm, result := i.result, obj := i.obj,
      opcode := i.opcode, old := i.old, new := i.new, chain := 0 }
  let r := { r0 with chain := chainOf j.lastChain r0 }
  let j1 := { j with
    head := j.head + 1, lastChain := r.chain,
    lostChain := if j.ringUp && decide (ringSize ≤ j.ring.length) then
        ((j.ring.getLast?).map JRec.chain).getD j.lostChain else j.lostChain,
    ring := if j.ringUp then (r :: j.ring).take ringSize else j.ring,
    buffer := if j.ringUp then j.buffer else r :: j.buffer }
  let j2 := if critical i then mirrorOffer r j1 else j1
  { m with jrn := j2 }

/-- A record of the journal itself (Table 05-6). -/
def jrnOwn (code old new : Nat) (m : M) : M :=
  jrnPut { path := 7, domain := 0, kind := 3, payloadForm := false, result := 0, obj := jrnOid, opcode := code,
           old := old, new := new, urgent := false } m

/-- A record with what follows from it: a checkpoint after a multiple of 2^20 (R119), and the export queues. -/
def jrnAppend (i : JIn) (m : M) : M :=
  let seq := m.jrn.head
  let m1 := jrnPut i m
  let m2 := if seq % 2 ^ 20 = 0 && !(i.opcode == 0x04C0 && i.domain == 0) then jrnOwn 0x04C2 (m1.jrn.head - 1) 0 m1 else m1
  if m2.jrn.ringUp then exportAll m2 else m2

/-- An anchor record (R117). -/
def jrnAnchor (m : M) : M :=
  let seq := m.jrn.head
  let m1 := jrnAppend { path := 7, domain := 0, kind := 3, payloadForm := false, result := 0, obj := jrnOid,
                        opcode := 0x04C1, old := m.vault.mono, new := 0, urgent := false } m
  { m1 with jrn.lastAnchor := m.vault.mono,
            jrn.anchors := (seq, m.dev / nsPerS, m.dev % nsPerS, m.vault.mono) :: m1.jrn.anchors }

/-- A path field of an internal unit (Table 05-4). -/
def unitPath (die code : Nat) : Nat := die * 2 ^ 13 + code

/-- A Device action (R111, R115). -/
def action (unit code obj old new : Nat) (m : M) : M :=
  jrnAppend { path := unit, domain := 0, kind := 3, payloadForm := false, result := 0, obj := obj, opcode := code,
              old := old, new := new, urgent := false } m

/-- A Device action with a result code. -/
def actionRes (unit code obj old new result : Nat) (m : M) : M :=
  jrnAppend { path := unit, domain := 0, kind := 3, payloadForm := false, result := result, obj := obj, opcode := code,
              old := old, new := new, urgent := false } m

/-- The action code of an event: 0x80 plus the low byte of its type (R115). -/
def actCode (type : Nat) : Nat := type / 256 * 256 + 0x80 + type % 256

/-- Raise an event and journal the action it announces; the new value is the first 8 bytes of the data (R115). -/
def announce (unit type level obj : Nat) (data : List Item) (old : Nat) (m : M) : M :=
  jrnAppend { path := unit, domain := 0, kind := 3, payloadForm := false, result := 0, obj := obj, opcode := actCode type,
              old := old, new := leNat ((evData data).take 8), urgent := level == 0 } (raise type level obj data m)

/-- As `announce`, with a plain new value. -/
def announceVal (unit type level obj : Nat) (data : List Item) (old new : Nat) (m : M) : M :=
  jrnAppend { path := unit, domain := 0, kind := 3, payloadForm := false, result := 0, obj := obj, opcode := actCode type,
              old := old, new := new, urgent := level == 0 } (raise type level obj data m)

/-! ## Boundaries of device time (R43, R44, R49) -/

/-- Device time of a boundary by its number. -/
def boundaryAt : Boundary → Nat → Nat
  | .sample, k => cdiv (k * nsPerS) 48000
  | .audio len, k => k * len
  | .video num den, k => cdiv (k * den * nsPerS) num
  | .grid len, k => k * len
  | .instant, k => k

/-- The number of the last boundary at or before a device time. -/
def boundaryNo : Boundary → Nat → Nat
  | .sample, t => t * 48000 / nsPerS
  | .audio len, t => t / len
  | .video num den, t => t * num / (den * nsPerS)
  | .grid len, t => t / len
  | .instant, t => t

/-- The first boundary at or after a device time. -/
def firstAt (b : Boundary) (t : Nat) : Nat :=
  let k := boundaryNo b t
  if t ≤ boundaryAt b k then boundaryAt b k else boundaryAt b (k + 1)

/-- The first boundary after a device time. -/
def firstAfter (b : Boundary) (t : Nat) : Nat := firstAt b (t + 1)

/-- Window number whose start is the device time, if it is one. -/
def windowStarting (b : Boundary) (t : Nat) : Option Nat :=
  let k := boundaryNo b t
  if boundaryAt b k = t then some k else none

/-- The rate of a rate code of Table 11-2, as numerator and denominator. -/
def rateOf (code : Nat) : Nat × Nat :=
  match code with
  | 1 => (24000, 1001) | 2 => (24, 1) | 3 => (25, 1) | 4 => (30000, 1001) | 5 => (30, 1)
  | 6 => (50, 1) | 7 => (60000, 1001) | 8 => (60, 1) | 9 => (100, 1) | 10 => (120000, 1001) | 11 => (120, 1)
  | _ => (0, 1)

def hubWindow : Boundary := .audio 1000000

end Sys2Proof.Machine
end

