-- ==== Sys2Proof/Machine/Cmd.lean ====
section
/-!
DEFINITION. The command processor: descriptors and their fields (R91), domains (R105 to R109), the checks of R96 in
their order, completions (R85, R89, R92), commands held pending (R99), and the taking of descriptors (R88).
-/
namespace Sys2Proof.Machine

/-! ## Descriptor fields -/

/-- A little-endian field of the payload (offsets count from byte 24 of the descriptor, R91). -/
def pay (d : Desc) (off len : Nat) : Nat := (d.payload.toNat >>> (8 * off)) % 2 ^ (8 * len)

/-- One bit of a payload byte. -/
def payBit (d : Desc) (off b : Nat) : Bool := d.payload.toNat.testBit (8 * off + b)

/-- A signed payload field. -/
def payS (d : Desc) (off len : Nat) : Int := sext (8 * len) (pay d off len)

def bufByte (d : Desc) (off : Nat) : Nat := (d.buf.getD off 0#8).toNat

/-- A little-endian field of the pointer-form buffer. -/
def bufN (d : Desc) (off len : Nat) : Nat := leNat ((d.buf.drop off).take len)

def bufS (d : Desc) (off len : Nat) : Int := sext (8 * len) (bufN d off len)

def isPtr (d : Desc) : Bool := bit d.flags 0
def isBarrier (d : Desc) : Bool := bit d.flags 1
def isForce (d : Desc) : Bool := bit d.flags 2

/-- Length of the pointer-form buffer: bytes 32 to 35 of the descriptor. -/
def ptrLen (d : Desc) : Nat := pay d 8 4

def oid (d : Desc) : Nat := d.obj.toNat
def tagN (d : Desc) : Nat := d.tag.toNat

/-- The commit time in ns since the epoch; zero means now (R49). -/
def commitAt (d : Desc) : Nat := d.commitSec * nsPerS + d.commitNs

/-- A payload offset as the descriptor byte offset that INVALID reports (R92). -/
def off (o : Nat) : Nat := 24 + o

/-- Detail of an offending field inside a pointer-form buffer (R92). -/
def inBuf (o : Nat) : Nat := 0x18 + o * 256 + 2 ^ 32

/-- The lowest byte of a number's set bits, as an offset. -/
def firstByte (n : Nat) : Nat → Option Nat
  | 0 => none
  | k + 1 => match firstByte n k with
    | some b => some b
    | none => if bits n (8 * k) 8 ≠ 0 then some k else none

/-- First reserved byte of a payload that has a set bit, given the bits the command defines. -/
def payReserved (d : Desc) (mask : Nat) : Option Nat :=
  firstByte (d.payload.toNat &&& (2 ^ 320 - 1 - mask)) 40

/-- First byte of a buffer with a bit set outside the defined bits of each byte. -/
def bufReserved (d : Desc) (mask : List Nat) : Option Nat :=
  ((d.buf.zipIdx).find? fun p => p.1.toNat &&& (255 - mask.getD p.2 0) != 0).map Prod.snd

/-- Mask of the bytes [off, off + len). -/
def mb (o len : Nat) : Nat := (2 ^ (8 * len) - 1) <<< (8 * o)

/-- Mask of some bits of one byte. -/
def mbits (o m : Nat) : Nat := m <<< (8 * o)

/-- First test that fails, with the detail it reports. -/
def firstBad : List (Bool × Nat) → Option Nat
  | [] => none
  | (bad, dt) :: r => if bad then some dt else firstBad r

/-! ## Status codes (Table 04-7) -/

def stOK : Nat := 0x00
def stLate : Nat := 0x01
def stSplit : Nat := 0x02
def stDegraded : Nat := 0x03
def stInvalid : Nat := 0x81
def stConflict : Nat := 0x82
def stDenied : Nat := 0x83
def stResource : Nat := 0x84
def stBusy : Nat := 0x85
def stLineBuf : Nat := 0x86
def stDispatched : Nat := 0x87
def stWoke : Nat := 0x88
def stMismatch : Nat := 0x89
def stKeyGone : Nat := 0x8A
def stReserved : Nat := 0x8B
def stPeerRefused : Nat := 0x8C
def stTimeout : Nat := 0x8D

/-- The step of R96 that a later check's failure belongs to: 7 for RESOURCE, 8 for BUSY, 9 for the rest, among them the
checks a chapter gives for one command. -/
def failStep (f : Nat × Nat) : Nat := if f.1 = stResource then 7 else if f.1 = stBusy then 8 else 9

/-- The failure that R96 meets first, by step; within a step, the first given. -/
def orFail (a b : Option (Nat × Nat)) : Option (Nat × Nat) := match a, b with
  | none, y => y
  | some x, none => some x
  | some x, some y => if failStep y < failStep x then some y else some x

/-- The failure that R96 meets first among later checks, each with status and detail. -/
def firstFail : List (Bool × Nat × Nat) → Option (Nat × Nat)
  | [] => none
  | (bad, st, dt) :: r => if bad then orFail (some (st, dt)) (firstFail r) else firstFail r

/-- The failure of a check, or else that of the next one in an order the chapter itself gives. -/
def orNext (a b : Option (Nat × Nat)) : Option (Nat × Nat) := match a with
  | some x => some x
  | none => b

/-- First failure of later checks whose order the chapter itself gives. -/
def firstListed : List (Bool × Nat × Nat) → Option (Nat × Nat)
  | [] => none
  | (bad, st, dt) :: r => if bad then some (st, dt) else firstListed r

/-! ## Domains -/

/-- Domain code of Table 05-1 that a path carries. -/
def pathDomain (m : M) : Path → Nat
  | .host f _ _ => if f = 1 then 2 else if f = 2 then 3 else 1
  | .i3c => if imgI3cOwner (img m) = 1 then 2 else if imgI3cOwner (img m) = 2 then 3 else 0
  | .peer => 4

def pathKind : Path → Nat
  | .host _ _ _ => 0
  | .i3c => 1
  | .peer => 2

/-- The path field of Table 05-4. -/
def pathField : Path → Nat
  | .host f r _ => f * 1024 + r
  | .i3c => 0
  | .peer => 0

/-- The function a command acts as: a command of the I3C port takes the PF of its owner domain (R103). -/
def pathFn (m : M) : Path → Nat
  | .host f _ _ => f
  | .i3c => imgI3cOwner (img m)
  | .peer => 64

/-- Who may issue a command (Table 05-2): PF0, a VF, Compliance, Service, the peer. -/
structure Perm where
  op : Bool
  vf : Bool
  co : Bool
  se : Bool
  pe : Bool
deriving DecidableEq, Repr

def permMedia : Perm := { op := true, vf := true, co := false, se := false, pe := false }
def permService : Perm := { op := false, vf := false, co := false, se := true, pe := false }
def permCompliance : Perm := { op := false, vf := false, co := true, se := false, pe := false }
def permPf0 : Perm := { op := true, vf := false, co := false, se := false, pe := false }
def permAny : Perm := { op := true, vf := true, co := true, se := true, pe := false }

/-- R108 for a path, R106 for the PF whose domain owns the I3C port: it keeps HIF commands, JRN_MARK and JRN_VERIFY. -/
def permitted (m : M) (p : Perm) (d : Desc) : Bool :=
  match d.path with
  | .peer => p.pe
  | .i3c => if imgI3cOwner (img m) = 1 then p.co else p.se
  | .host f _ _ =>
    let mine := (f == 1 && imgI3cOwner (img m) == 1) || (f == 2 && imgI3cOwner (img m) == 2)
    let kept := d.opcode / 256 == 6 || d.opcode == 0x0403 || d.opcode == 0x0404
    (!mine || kept) && (if f = 0 then p.op else if f = 1 then p.co else if f = 2 then p.se else p.vf)

/-- A VF names only objects that it owns (R82). DESIGN CHOICE (log 100): an object that no function owns, such as a key
slot, an ABSENT object or the infrastructure of a die, is let through. -/
def vfOwns (m : M) (d : Desc) (o : Nat) : Bool :=
  match d.path with
  | .host f _ _ => decide (f < 3) || (match tget? m.owner o with | some g => g == f | none => true)
  | _ => true

/-! ## Object ids of commands (R25, R93) -/

/-- Index range of a class; class 0xA, 0xB and 0xE ranges are given by the command's chapter. -/
def idxOk (m : M) (cls die idx : Nat) : Bool :=
  match cls with
  | 1 | 2 | 3 | 8 => idx == 0
  | 4 => decide (idx ≤ 64)
  | 6 => decide (idx < 16384)
  | 7 => decide (idx < 131072)
  | 9 => decide (idx < imgLegs (img m) die)
  | 0xA => decide (idx < 8192)
  | 0xB => decide (idx < 3072) || (decide (4096 ≤ idx) && decide (idx < 4864))
  | 0xC => decide (idx < 256)
  | 0xD => decide (idx < 3)
  | 0xE => decide (idx < 48)
  | 0xF => decide (idx < 2)
  | _ => false

/-- An object id of a class is well formed. Die 0 asks for placement in a creating command of a media class. -/
def oidOk (m : M) (cls : Nat) (creating : Bool) (o : Nat) : Bool :=
  oidCls o == cls &&
  (if cls < 9 && decide (cls ≠ 3) then oidDie o == 0 && idxOk m cls 0 (oidIdx o)
   else if cls = 3 then decide (oidDie o ≤ m.part.media) && oidIdx o == 0
   else if oidDie o = 0 then creating && (if cls = 9 then decide (oidIdx o < 1024) else idxOk m cls 0 (oidIdx o))
   else decide (oidDie o ≤ m.part.media) && idxOk m cls (oidDie o) (oidIdx o))

/-- A command that names an object of a lost or held die completes with RESOURCE (R23, R424), of a die that is offline
for a re-structure with BUSY (R76), and a creating one with BUSY from its acceptance (R25). -/
def dieLate (m : M) (creating : Bool) (o : Nat) : Option (Nat × Nat) :=
  let d := oidDie o
  if oidCls o ≥ 9 || oidCls o == 3 then
    if d = 0 then none
    else if dieState m d = 3 || dieState m d = 4 then some (stResource, 0)
    else if dieState m d = 2 then some (stBusy, 0)
    else if creating then
      match m.syn.rest with
      | some r => if r.die = d then some (stBusy, 0) else none
      | none => none
    else none
  else none

/-- Objects of a class that a function owns (R492). -/
def ownedCount (m : M) (fn cls : Nat) : Nat := (m.owner.filter fun p => oidCls p.1 == cls && p.2 == fn).length

/-- A creating command exceeds its function's quota (R82, R492). -/
def quotaFull (m : M) (d : Desc) (cls : Nat) : Bool :=
  match imgQuota (img m) (pathFn m d.path) cls with
  | some q => decide (q ≤ ownedCount m (pathFn m d.path) cls)
  | none => false

def own (o fn : Nat) (m : M) : M := { m with owner := tset m.owner o fn }
def disown (o : Nat) (m : M) : M := { m with owner := tdel m.owner o }

/-! ## Completions (R85, R89, R90, R92) -/

/-- Write a completion to a completion ring: the count, the vector by coalescing (R90), or wait for a free slot. -/
def cqWrite (f q : Nat) (c : Completion) (m : M) : M :=
  let fn := getFn m f
  match tget? fn.cmp q with
  | none => m
  | some r =>
    if r.depth ≤ r.written - r.returned || !r.backlog.isEmpty then
      setFn f { fn with cmp := tset fn.cmp q { r with backlog := r.backlog ++ [c] } } m
    else
      let u := r.unsignalled + 1
      let fire := decide (r.coalCount ≤ u) || r.coalUs == 0
      let r1 := { r with
        written := r.written + 1, unsignalled := if fire then 0 else u,
        firstAt := if r.unsignalled = 0 then m.vault.mono else r.firstAt }
      let m1 := emit (.completion f q c (r1.written % 2 ^ 32)) (setFn f { fn with cmp := tset fn.cmp q r1 } m)
      if fire then msixRaise f r.vector m1 else m1

/-- Let completions that wait take the slots that came free, at most `n`. -/
def cqDrain (f q : Nat) : Nat → M → M
  | 0, m => m
  | n + 1, m =>
    let fn := getFn m f
    match tget? fn.cmp q with
    | none => m
    | some r =>
      match r.backlog with
      | [] => m
      | c :: rest =>
        if r.depth ≤ r.written - r.returned then m
        else cqDrain f q n (cqWrite f q c (setFn f { fn with cmp := tset fn.cmp q { r with backlog := [] } } m)
          |> fun x => setFn f { getFn x f with cmp := tupd (getFn x f).cmp q fun y => { y with backlog := rest } } x)

/-- A direct completion enters the FIFO; the oldest shows in the head window (R85). -/
def directPush (f : Nat) (c : Completion) (m : M) : M :=
  let fn := getFn m f
  let fifo := fn.directFifo ++ [c]
  setFn f { fn with directFifo := fifo, directHead := fifo.headD c } m

/-- Post a completion along the path of its command. The path carries, above its completion ring number, how many times
its function had been reset when the command was taken: a reset since then leaves the completion unwritten (R83). -/
def post (p : Path) (c : Completion) (m : M) : M :=
  match p with
  | .host f r cq =>
    if cq / 1024 ≠ (getFn m f).epoch then m else if r = 0x3FF then directPush f c m else cqWrite f (cq % 1024) c m
  | .i3c => { m with i3c := { m.i3c with busy := false, last := some c, pendingRead := true } }
  | .peer => emit (.peerCompletion c) m

/-! ## Command records (R111, R114) and the end of a command -/

/-- The bytes a payload digest covers: the 40 inline bytes or the buffer, key material of KEY_WRITE zeroed (R114). -/
def digestBytes (ptr : Bool) (d : Desc) : List Byte :=
  if ptr then
    if d.opcode = 0x0702 then (d.buf.take 16) ++ List.replicate (d.buf.length - 16) 0#8 else d.buf
  else leBytes 40 d.payload.toNat

/-- How a command ended. -/
structure Reply where
  status : Nat
  detail : Nat
  /-- old and new value of the plain form, when the chapter lists them -/
  plain : Option (Nat × Nat)
  /-- object state before and after -/
  before : Nat
  after : Nat
deriving DecidableEq, Repr

/-- Write a command's journal record and its completion. -/
def finish (d : Desc) (ptr : Bool) (r : Reply) (m : M) : M :=
  let seq := m.jrn.head
  let vals := match r.plain with
    | some v => v
    | none => (r.before % 256 + r.after % 256 * 256, shaFirst 8 (digestBytes ptr d))
  let m1 := jrnAppend
    { path := pathField d.path, domain := pathDomain m d.path, kind := pathKind d.path, payloadForm := r.plain.isNone,
      result := r.status, obj := oid d, opcode := d.opcode % 65536, old := vals.1, new := vals.2, urgent := false } m
  let m2 := { m1 with deferred := m1.deferred.erase d }
  post d.path { tag := tagN d, status := r.status, ostate := r.after, seqLo := seq % 2 ^ 32,
                      detail := r.detail % 2 ^ 48 } m2

def reply (status detail : Nat) (state : Nat) : Reply :=
  { status := status, detail := detail, plain := none, before := state, after := state }

/-! ## Specifications of commands -/

/-- What a command's apply step answers: the outcome, that its unit completes it later, or that the step has written
record and completion itself. -/
inductive Applied where
  | done (r : Reply)
  /-- done, but not journalled -/
  | quiet (r : Reply)
  | later
  | ended
deriving DecidableEq, Repr

/-- A host command, by what its chapter says of each step of R96. -/
structure CmdSpec where
  opcode : Nat
  /-- pointer form (R91) -/
  ptr : Bool
  /-- defines the force flag -/
  force : Bool
  /-- payload bits it defines -/
  mask : Nat
  perm : Perm
  /-- first reserved byte of the buffer that is set (step 3) -/
  bufRsv : Desc → M → Option Nat
  /-- objects its payload names, for R82 and R23, each with the detail its field reports -/
  names : Desc → M → List (Nat × Nat)
  /-- reserved payload bits that depend on the payload's own contents (step 3), as the descriptor byte -/
  rsv : Desc → M → Option Nat := fun _ _ => none
  /-- ignores any commit time (R163) -/
  anyCommit : Bool := false
  /-- old and new value of its record when it is refused or cancelled, for a command recorded in plain form (R114): what
  its chapter lists, as it stands -/
  plainNow : Desc → M → Option (Nat × Nat) := fun _ _ => none
  /-- step 5: the object id is well formed -/
  obj : Desc → M → Bool
  /-- step 6: detail of the first field out of range -/
  fields : Desc → M → Option Nat
  /-- a denial of step 4 beyond domain and ownership (R259) -/
  deny : Desc → M → Bool := fun _ _ => false
  /-- what the execution itself does once steps 1 to 6 are passed, at no boundary -/
  onExec : Desc → M → M := fun _ m => m
  /-- steps 7 to 9: status and detail -/
  late : Desc → M → Option (Nat × Nat)
  /-- the boundary it applies at; none: it applies when it executes -/
  when : Desc → M → Option Boundary
  /-- a device time before which it does not apply, beside its commit time (R483) -/
  notBefore : Desc → M → Nat := fun _ _ => 0
  /-- object_state -/
  ostate : Desc → M → Nat
  apply : Desc → M → M × Applied
  /-- the effect at a boundary that follows a commit time already past, where it differs (R231) -/
  applyLate : Option (Desc → M → M × Applied) := none

/-- Ownership of the object and of those the payload names, and own queues only for class 0x5 (R82, R103). -/
def ownOk (sp : CmdSpec) (d : Desc) (m : M) : Bool :=
  vfOwns m d (oid d) && (sp.names d m).all (fun p => vfOwns m d p.1) &&
  !(d.opcode / 256 == 6 && oidCls (oid d) == 5 && bits (oid d) 18 7 != pathFn m d.path)

/-- Step 6 of R96 for what every command carries: force and form flags, where the I3C port takes no pointer form (R106),
the commit time, and the pointer. -/
def commonFields (sp : CmdSpec) (d : Desc) (m : M) : Option Nat :=
  firstBad
    [(isForce d && !sp.force, 2),
     (isPtr d != sp.ptr || (isPtr d && d.path == .i3c), 2),
     (!sp.anyCommit && decide (d.commitNs < nsPerS) && decide (m.dev + 60 * nsPerS < commitAt d), 12),
     (!sp.anyCommit && decide (nsPerS ≤ d.commitNs), 18),
     (sp.ptr && !(decide (1 ≤ ptrLen d) && decide (ptrLen d ≤ 16777216)), 0x20),
     (sp.ptr && d.bufFail, 0x18)]

/-- Step 3 of R96, with R11 for the object id: the first byte with a reserved bit set, outside a pointer-form buffer. Bits
[15:10] of a host queue's id are reserved (Table 04-4a). -/
def reservedByte (sp : CmdSpec) (d : Desc) (m : M) : Option Nat :=
  if oidCls (oid d) = 5 && bits (oid d) 10 6 ≠ 0 then some 5
  else match payReserved d (if sp.ptr then mb 0 12 else sp.mask) with
  | some b => some (24 + b)
  | none => sp.rsv d m

/-- A field that names an object of a die that is lost, held or under re-structure, whose objects are ABSENT or out of reach,
fails by R23 and R76, not as a value out of range. -/
def namedOut (sp : CmdSpec) (d : Desc) (m : M) (dt : Nat) : Option (Nat × Nat) :=
  (sp.names d m).findSome? fun p => if p.2 = dt then dieLate m false p.1 else none

/-- R23 and R76 for every object the payload names. -/
def namesLate (sp : CmdSpec) (d : Desc) (m : M) : Option (Nat × Nat) :=
  (sp.names d m).foldr (fun p a => orFail (dieLate m false p.1) a) none

/-- Steps 7 to 9 of R96: status and detail of the first failure. -/
def lateFail (sp : CmdSpec) (d : Desc) (m : M) : Option (Nat × Nat) := orFail (namesLate sp d m) (sp.late d m)

/-- Steps 1 to 6 of R96: status and detail of the first failure. -/
def earlyFail (sp : CmdSpec) (d : Desc) (m : M) : Option (Nat × Nat) :=
  if d.flags / 8 ≠ 0 then some (stReserved, if d.flags % 256 / 8 ≠ 0 then 2 else 3)
  else if d.rsvd ≠ 0 then some (stReserved, if d.rsvd % 256 ≠ 0 then 22 else 23)
  else match reservedByte sp d m with
  | some b => some (stReserved, b)
  | none =>
    match (if sp.ptr && isPtr d && !d.bufFail && d.path != .i3c then sp.bufRsv d m else none) with
    | some b => some (stReserved, inBuf b)
    | none =>
      if !permitted m sp.perm d || !ownOk sp d m || sp.deny d m then some (stDenied, pathDomain m d.path % 8)
      else if !sp.obj d m then some (stInvalid, 4)
      else match commonFields sp d m with
      | some dt => some (stInvalid, dt)
      | none => (sp.fields d m).map fun dt => (namedOut sp d m dt).getD (stInvalid, dt)

/-- EV_DOMAIN_DENIED, at most once per second for each function, the I3C port and the Conjunction link (R109). -/
def denyEvent (d : Desc) (m : M) : M :=
  let who := match d.path with
    | .host f _ _ => f
    | .i3c => 64
    | .peer => 65
  limited { ev := 0x0501, i := who, j := 0 } nsPerS
    (raise 0x0501 3 (oid d) [.u 1 (pathDomain m d.path), .u 1 (pathKind d.path), .u 2 (pathField d.path),
                             .u 2 (d.opcode % 65536)]) m

/-- The object's state, when its id is well formed (Table 04-4). -/
def stateOrFF (sp : CmdSpec) (d : Desc) (m : M) : Nat := if sp.obj d m then sp.ostate d m else 0xFF

/-- Plain values of a command that changes nothing: the value as it stands, before and after (R114). -/
def same (n : Nat) : Option (Nat × Nat) := some (n, n)

/-- Refuse a command. -/
def rejectCmd (sp : CmdSpec) (d : Desc) (f : Nat × Nat) (m : M) : M :=
  let m1 := finish d sp.ptr { reply f.1 f.2 (stateOrFF sp d m) with plain := sp.plainNow d m } m
  if f.1 = stDenied then denyEvent d m1 else m1

/-- Note a held command that has applied, for R329. -/
def noteApplied (d : Desc) (order seq : Nat) (m : M) : M :=
  match d.path with
  | .host f r _ =>
    let mine := (m.host.applied.filter fun p => p.1 == f).take 1023
    let others := m.host.applied.filter fun p => p.1 != f
    { m with host.applied := (f, r, tagN d, order, seq) :: (mine ++ others) }
  | _ => m

/-- A late boundary in a completion: OK becomes OK_LATE, and OK_SPLIT keeps its status with detail bit 47 (R257). -/
def lateReply (late : Bool) (r : Reply) : Reply :=
  if late && r.status == stOK then { r with status := stLate }
  else if late && r.status == stSplit then { r with detail := r.detail + 2 ^ 47 }
  else r

/-- A completion without a journal record; the sequence number it carries is not stated. -/
def finishQuiet (d : Desc) (r : Reply) (m : M) : M :=
  post d.path { tag := tagN d, status := r.status, ostate := r.after, seqLo := Config.freeNat m.drawn % 2 ^ 32,
                detail := r.detail % 2 ^ 48 } (draw m)

/-- Apply a command: its effect, and, unless its unit ends it later, its record and completion. -/
def applyCmd (sp : CmdSpec) (d : Desc) (late : Bool) (m : M) : M :=
  let res := (if late then sp.applyLate.getD sp.apply else sp.apply) d m
  match res.2 with
  | .later => { res.1 with deferred := res.1.deferred ++ [d] }
  | .ended => res.1
  | .done r => finish d sp.ptr (lateReply late r) res.1
  | .quiet r => finishQuiet d (lateReply late r) res.1

/-- At most 4,096 commands are held in the whole part (R99). -/
def heldMax : Nat := 4096

/-- Horizon of a delay list (R323): 2^24 ticks of 1 µs. -/
def horizonNs : Nat := 16777216000

/-- The boundary of a command is already past when it executes: it applies at the next one, late (R49). -/
def heldLate (d : Desc) (b : Boundary) (m : M) : Bool :=
  commitAt d ≠ 0 && (decide (commitAt d < m.dev) || decide (firstAt b (commitAt d) ≤ m.dev))

/-- Device time at which a held command applies: the first boundary after now, or at or after its commit time, and not before
the time its command names (R49, R483). -/
def heldDue (sp : CmdSpec) (d : Desc) (b : Boundary) (m : M) : Nat :=
  let due := if commitAt d = 0 || heldLate d b m then firstAfter b m.dev else firstAt b (commitAt d)
  if due < sp.notBefore d m then firstAt b (sp.notBefore d m) else due

/-- A command is held until its boundary (R99); one due beyond the horizon of the delay list is parked (R323). -/
def holdCmd (sp : CmdSpec) (d : Desc) (b : Boundary) (m : M) : M :=
  let m1 := { m with
    pend := m.pend ++ [{ d := d, due := heldDue sp d b m, kind := b, late := heldLate d b m, order := m.host.orders, waits := false,
                         before := sp.ostate d m }],
    host.orders := m.host.orders + 1 }
  if m.dev + horizonNs < heldDue sp d b m then
    count .tskCnt 0 0 4 { m1 with tsk.parked := m1.tsk.parked ++ [(0, 0, m.host.orders)] }
  else m1

/-- A command that passed its checks: applied when it executes, or held until its boundary (R49, R57, R99). -/
def dispatchCmd (sp : CmdSpec) (d : Desc) (m : M) : M :=
  match sp.when d m with
  | none => applyCmd sp d false m
  | some b => if heldMax ≤ m.pend.length then rejectCmd sp d (stBusy, 0) m else holdCmd sp d b m

/-- Execute one command: the checks of R96 in their order, stopping at the first failure. -/
def runSpec (sp : CmdSpec) (d : Desc) (m : M) : M :=
  match earlyFail sp d m with
  | some f => rejectCmd sp d f m
  | none =>
    let m1 := sp.onExec d m
    match lateFail sp d m1 with
    | some f => rejectCmd sp d f m1
    | none => dispatchCmd sp d m1

/-- A descriptor whose opcode no chapter defines (R94): reserved flags first, then INVALID with detail 0. -/
def runUnknown (d : Desc) (m : M) : M :=
  if d.flags / 8 ≠ 0 then
    finish d (isPtr d) (reply stReserved (if d.flags % 256 / 8 ≠ 0 then 2 else 3) 0xFF) m
  else if d.rsvd ≠ 0 then
    finish d (isPtr d) (reply stReserved (if d.rsvd % 256 ≠ 0 then 22 else 23) 0xFF) m
  else finish d (isPtr d) (reply stInvalid 0 0xFF) m

/-- Execute a descriptor by its opcode. -/
def runDesc (specs : Nat → Option CmdSpec) (d : Desc) (m : M) : M :=
  match specs d.opcode with
  | some sp => runSpec sp d m
  | none => runUnknown d m

/-! ## Taking descriptors (R88) -/

/-- In Run or Idle; an entry into Comma that waits for the peer still is, up to its step 3 (R441). -/
def inRun (m : M) : Bool := m.pwr.state == 0 || (m.pwr.state == 2 && m.pwr.entryStep == 2)

/-- Commands are taken: Ready, out of Comma state and its entry (R425, R433, R442). -/
def accepting (m : M) : Bool := m.start.phase == .ready && inRun m

/-- No earlier command of a ring is still owed its completion (R88, barrier). -/
def ringQuiet (m : M) (f r : Nat) : Bool :=
  let mine (p : Path) : Bool := match p with
    | .host g s _ => g == f && s == r
    | _ => false
  !(m.pend.any fun p => mine p.d.path) && !(m.deferred.any fun d => mine d.path)

/-- The completion ring bound to a submission ring is full (R89). -/
def cqFull (m : M) (f cq : Nat) : Bool :=
  match tget? (getFn m f).cmp cq with
  | some r => decide (r.depth ≤ r.written - r.returned) || !r.backlog.isEmpty
  | none => true

/-- A descriptor that carries a barrier is taken only when its ring is quiet. -/
def barrierOk (m : M) (f r : Nat) (d : Desc) : Bool := !isBarrier d || ringQuiet m f r

/-- The queue (function, ring; 0x3FF direct) can give a descriptor now, and its next descriptor with its path fixed. -/
def queueHead (m : M) (f r : Nat) : Option Desc :=
  if r = 0x3FF then
    match (getFn m f).directWait with
    | d :: _ => if barrierOk m f r d then some { d with path := .host f r ((getFn m f).epoch * 1024) } else none
    | [] => none
  else match tget? (getFn m f).sub r with
    | some s => match s.waiting with
      | d :: _ => if barrierOk m f r d && !cqFull m f s.cq then some { d with path := .host f r ((getFn m f).epoch * 1024 + s.cq) } else none
      | [] => none
    | none => none

/-- Remove the descriptor a queue gives. -/
def queuePop (f r : Nat) (m : M) : M :=
  let fn := getFn m f
  if r = 0x3FF then setFn f { fn with directWait := fn.directWait.drop 1 } m
  else setFn f { fn with sub := tupd fn.sub r fun s => { s with waiting := s.waiting.drop 1 } } m

/-- Every queue in the order of R88: by function, its direct port first, then its rings. -/
def queueOrder (m : M) : List (Nat × Nat) :=
  m.host.fns.flatMap fun p => (p.1, 0x3FF) :: p.2.sub.map fun s => (p.1, s.1)

def queueWeight (m : M) (q : Nat × Nat) : Nat :=
  if q.2 = 0x3FF then 1 else match tget? (getFn m q.1).sub q.2 with
    | some s => s.weight
    | none => 1

/-- The order of visits that follows the queue last visited. -/
def visitsAfter (last : Option (Nat × Nat)) (qs : List (Nat × Nat)) : List (Nat × Nat) :=
  match last with
  | none => qs
  | some q =>
    let key (x : Nat × Nat) : Nat := x.1 * 2048 + (if x.2 = 0x3FF then 0 else x.2 + 1)
    qs.filter (fun x => decide (key q < key x)) ++ qs.filter (fun x => decide (key x ≤ key q))

/-- The queue the command processor takes its next descriptor from: the one it is at while its weight lasts, else the
next that can give one. -/
def nextQueue (m : M) : Option (Nat × Nat) :=
  let stay := match m.host.rot with
    | some q => if 0 < m.host.rotLeft && (queueHead m q.1 q.2).isSome then some q else none
    | none => none
  match stay with
  | some q => some q
  | none => (visitsAfter m.host.rot (queueOrder m)).find? fun q => (queueHead m q.1 q.2).isSome

/-- Take one descriptor by R88's rotation, if any queue gives one. -/
def takeNext (m : M) : Option (Desc × M) :=
  match nextQueue m with
  | none => none
  | some q =>
    match queueHead m q.1 q.2 with
    | none => none
    | some d =>
      let left := if m.host.rot = some q && 0 < m.host.rotLeft then m.host.rotLeft - 1 else queueWeight m q - 1
      some (d, { queuePop q.1 q.2 m with host.rot := some q, host.rotLeft := left })

/-- A function the part presents (R81). -/
def fnExists (m : M) (f : Nat) : Bool := decide (f < 3 + imgVfs (img m))

/-- The descriptor that reaches its queue and can be executed now, with its path fixed, and the state once it is taken: commands
are taken at all, nothing waits before it in its queue, and the queue may give it. The Conjunction link and an idle I3C
port with an owner give theirs at once (R106, R107). -/
def taken (d : Desc) (m : M) : Option (Desc × M) :=
  if !accepting m then none
  else match d.path with
  | .peer => some (d, m)
  | .i3c => if imgI3cOwner (img m) = 0 || m.i3c.busy then none else some (d, { m with i3c.busy := true })
  | .host f r _ =>
    let fn := getFn m f
    if !fnExists m f then none
    else if r = 0x3FF then
      if 16 ≤ fn.directOut || !fn.directWait.isEmpty then none
      else
        let m1 := setFn f { fn with directOut := fn.directOut + 1, directWait := [d] } m
        (queueHead m1 f r).map fun x => (x, queuePop f r m1)
    else match tget? fn.sub r with
      | none => none
      | some s =>
        if s.fault || !s.waiting.isEmpty then none
        else
          let m1 := setFn f { fn with sub := tset fn.sub r { s with fetched := (s.fetched + 1) % 2 ^ 32, waiting := [d] } } m
          (queueHead m1 f r).map fun x => (x, queuePop f r m1)

/-- A descriptor that is not executed now: a function the part does not present takes none (R81); a direct write beyond 16
outstanding is discarded (R85); a ring that does not exist or is in FAULT gives none (R87); a write to the I3C port is
NACKed; any other waits in its queue. -/
def untaken (d : Desc) (m : M) : M :=
  if !accepting m then m
  else match d.path with
  | .peer => m
  | .i3c => emit .i3cNack (count .i3cRefused 0 0 0 m)
  | .host f r _ =>
    let fn := getFn m f
    if !fnExists m f then m
    else if r = 0x3FF then
      if 16 ≤ fn.directOut then count .fnDirectDrop f 0 0 m
      else setFn f { fn with directOut := fn.directOut + 1, directWait := fn.directWait ++ [d] } m
    else match tget? fn.sub r with
      | none => m
      | some s =>
        if s.fault then m
        else
          setFn f { fn with sub := tset fn.sub r { s with fetched := (s.fetched + 1) % 2 ^ 32, waiting := s.waiting ++ [d] } } m

/-- The descriptor reaches its queue. With nothing before it that must go first, it is executed now. -/
def submit (run : Desc → M → M) (d : Desc) (m : M) : M :=
  match taken d m with
  | some (x, m1) => run x m1
  | none => untaken d m

/-- The meaning of a host command's row: its own specification, whatever opcode the operand carries. -/
def hostRow (sp : CmdSpec) (d : Desc) (m : M) : M :=
  submit (runSpec sp) { d with opcode := sp.opcode } m

/-! ## The boundary of a held command (R99) -/

/-- The pending command due first: least due time, then order of execution. -/
def dueFirst (now : Nat) (ps : List Pend) : Option Pend :=
  ps.foldl (fun a p =>
    if p.waits || decide (now < p.due) then a
    else match a with
      | none => some p
      | some b => if p.due < b.due then some p else some b) none

def dropPend (order : Nat) (m : M) : M :=
  { m with pend := m.pend.filter (fun p => p.order != order),
           tsk.parked := m.tsk.parked.filter fun t => !(t.1 == 0 && t.2.1 == 0 && t.2.2 == order) }

/-- Steps 7 to 9 again, then the effect or the refusal. -/
def applyPend (sp : CmdSpec) (p : Pend) (m : M) : M :=
  let m1 := dropPend p.order m
  match lateFail sp p.d m1 with
  | some f => rejectCmd sp p.d f m1
  | none => noteApplied p.d p.order m1.jrn.head (applyCmd sp p.d p.late m1)

/-! ## Lifting a meaning to the state -/

/-- A meaning over the machine, as a command's effect: it keeps the queue, the one-time storage and MONO. -/
def lift (f : M → M) (s : State) : Host.Outcome State Fault Refusal :=
  .next { s with m := { f s.m with vault := s.m.vault } }

/-- One-time storage after a descriptor of an opcode: what is enrolled stays, and KEY_OWNER_ENROL alone enrols (R67). -/
def enrolled (opcode : Nat) (old new : Option Digest) : Option Digest :=
  match old with
  | some k => some k
  | none => if opcode = 0x0701 then new else none

/-- A meaning that executes a descriptor of a given opcode: it keeps the queue and MONO, and the one-time storage by R67. -/
def liftOp (opcode : Nat) (f : M → M) (s : State) : Host.Outcome State Fault Refusal :=
  let new := f s.m
  .next { s with m := { new with vault.ownerKey := enrolled opcode s.m.vault.ownerKey new.vault.ownerKey,
                                 vault.mono := s.m.vault.mono } }

/-- A meaning that may change MONO: the always-on domain's loss of supply alone (R42). -/
def liftMono (f : M → M) (s : State) : Host.Outcome State Fault Refusal :=
  let new := f s.m
  .next { s with m := { new with vault.ownerKey := s.m.vault.ownerKey } }

end Sys2Proof.Machine
end

