-- ==== Sys2Proof/Machine/Time.lean ====
section
/-!
DEFINITION. The time base (chapter 02): device time and its steps, time quality, PTP, REF_FRAME and REF_10M, and the
commands TIM_SOURCE_SET, TIM_SET and TIM_SLACK_ALARM_SET.
-/
namespace Sys2Proof.Machine

def timUnit : Nat := 3

/-- One period of a periodic process has passed since it was last handled: mark it. -/
def tickOpen (m : M) (id period : Nat) : Bool := decide (tget m.ticks id 0 < m.dev / period)

def tickMark (id period : Nat) (m : M) : M := { m with ticks := tset m.ticks id (m.dev / period) }

/-- Periods in ns of the processes that run by device time: shaper, pairing, slack, voltage loop and pace meters. -/
def tickPeriods : List (Nat × Nat) := [(1, 1000), (2, 1000000), (3, 10000000), (4, 10000000), (5, 1000000)]

/-- Marks after a step of device time back to `new`: the period that `new` lies in is the last one handled. The periods of
queue samples and of device temperatures are given by their own rows' marks from 0x100 on, which start afresh. -/
def ticksBack (new : Nat) (t : Tbl Nat) : Tbl Nat :=
  let own := t.filter fun p => p.1 == 6 || p.1 == 7
  tickPeriods.foldl (fun a p => match tget? t p.1 with
    | some v => tset a p.1 (if new / p.2 < v then new / p.2 else v)
    | none => a) own

/-! ## Quality, steps and corrections -/

/-- Change the time quality (R39): event, journal record, anchor (R117). -/
def setQuality (q : Nat) (m : M) : M :=
  if m.tim.quality = q then m
  else
    let old := m.tim.quality
    let m1 := { m with tim.quality := q, tim.errEst := if q = 2 then m.tim.errEst else if q = 0 then 0xFFFFFFFF else m.tim.errEst }
    jrnAnchor (announce timUnit 0x0101 1 timOid [.u 1 old, .u 1 q, .u 1 m.tim.mode] 0 m1)

/-- A pending command after a time step from `old` to `new` (R40): a boundary skipped moves to the next one, and a
commit time inside the skipped interval makes it late, be its boundary skipped or not. -/
def stepPend (old new : Nat) (p : Pend) : Pend :=
  if p.waits || decide (new ≤ old) then p
  else
    let c := commitAt p.d
    { p with due := if new ≤ p.due then p.due else firstAt p.kind new,
             late := p.late || (c != 0 && decide (old < c) && decide (c < new)) }

/-- The hold of windows after a step from `old` to `new`: a backward step holds them until the end of the last window that
started, and a forward step takes no hold back. -/
def stepHold (old new : Nat) (t : TimSt) : TimSt :=
  let held := decide (t.holdFrom < old) && decide (t.holdFrom < t.holdUntil)
  { t with
    heldBefore := if old < t.holdUntil then (if held then t.heldBefore ++ [(t.holdFrom, old)] else t.heldBefore) else [],
    holdUntil := if new < old then t.lastWindowStop else if t.holdUntil < new then new else t.holdUntil,
    holdFrom := new }

/-- A time step (R40): MONO unchanged; event, record with both times, anchor; held boundaries; a backward step holds
every window until device time passes the end of the last window that started. -/
def timeStep (new : Nat) (m : M) : M :=
  let old := m.dev
  let m1 := { m with
    dev := new, tim := { stepHold old new m.tim with slewLeft := 0, slewAcc := 0 },
    ticks := if new < old then ticksBack new m.ticks else m.ticks,
    pend := m.pend.map (stepPend old new) }
  jrnAnchor (announceVal timUnit 0x0102 1 timOid [.s 8 ((new : Int) - old)] (old % 2 ^ 64) (new % 2 ^ 64) m1)

/-- Correct an offset from the source (R40): slewed below the threshold or with threshold 0, else by one step. A
positive offset means device time is ahead. -/
def correctOffset (offset : Int) (m : M) : M :=
  if m.tim.stepUs = 0 || offset.natAbs < m.tim.stepUs * 1000 then { m with tim.slewLeft := -offset }
  else timeStep ((m.dev : Int) - offset).toNat m

/-- Where the frequency comes from in holdover (Table 02-1): 0 REF_TCXO, 1 REF_10M, 2 REF_FRAME. -/
def freqSource (t : TimSt) : Nat :=
  if t.mode ≤ 1 && t.tenEn && t.tenPresent then 1 else if t.mode = 0 && t.refEn && t.refPresent then 2 else 0

/-- Frequency of device time against MONO in parts per 10^9: that of the source in holdover, against the TCXO. DEDUCED
(log 113): MONO counts the TCXO, and a locked or free time base differs from it by its corrections alone. -/
def freqPpb (t : TimSt) : Int :=
  if t.quality ≠ 1 then 0 else if freqSource t = 1 then t.tenPpb else if freqSource t = 2 then t.framePpb else 0

/-- One nanosecond of the frequency in holdover: a whole nanosecond that has gathered is added or left out. -/
def freqTick (m : M) : M :=
  let acc := m.tim.freqAcc + freqPpb m.tim
  if acc ≥ 1000000000 then { m with dev := m.dev + 1, tim.freqAcc := acc - 1000000000 }
  else if acc ≤ -1000000000 then { m with dev := m.dev - 1, tim.freqAcc := acc + 1000000000 }
  else { m with tim.freqAcc := acc }

/-- One nanosecond of the time base: MONO one more, device time one more, corrected by the frequency in holdover, or by the
slewing that is left at no more than the slew limit. -/
def clockTick (m : M) : M :=
  let acc := m.tim.slewAcc + m.tim.slewPpm
  let m1 := { m with vault.mono := m.vault.mono + 1 }
  if m.tim.slewLeft = 0 then freqTick { m1 with dev := m.dev + 1, tim.slewAcc := 0 }
  else if acc < 1000000 then { m1 with dev := m.dev + 1, tim.slewAcc := acc }
  else if 0 < m.tim.slewLeft then
    { m1 with dev := m.dev + 2, tim.slewAcc := acc - 1000000, tim.slewLeft := m.tim.slewLeft - 1 }
  else { m1 with tim.slewAcc := acc - 1000000, tim.slewLeft := m.tim.slewLeft + 1 }

/-- The lock condition met once more, or broken; locked when met `need` times in a row (R39). -/
def lockCount (met : Bool) (need : Nat) (m : M) : M :=
  let run := if met then m.tim.lockRun + 1 else 0
  let m1 := { m with tim.lockRun := run }
  if met && decide (need ≤ run) && m.tim.quality ≠ 2 then
    setQuality 2 (draw { m1 with tim.errEst := Config.freeNat m.drawn % 0xFFFFFFFF })
  else m1

/-! ## PTP (R38) -/

/-- An Ethernet port by its code (R58): a hub control port, or a media lane with an Ethernet personality, an ETH100 group
by its lowest lane. -/
def ethPort (m : M) (code : Nat) : Bool :=
  let die := code / 16
  let lane := code % 16
  let p := lanePers (img m) die lane
  if die = 0 then (lane == 2 || lane == 3) && p == 2
  else decide (die ≤ m.part.media) && decide (lane < 8) && (p == 1 || p == 2 || (p == 3 && lane % 4 == 0))

/-- Lane test mode (R392). -/
def laneMode (m : M) (port : Nat) : Nat := (tget m.join.loops (port / 16 * 8 + port % 16) (0, false)).1

/-- A port that hears no PTP message of the wire: a hub port in loopback, a media lane whose receiver is on its own
transmitter or on the test pattern (R392). -/
def ptpDeaf (m : M) (port : Nat) : Bool :=
  if 3 ≤ m.pwr.state then true else if port / 16 = 0 then laneMode m port != 0 else laneMode m port == 1 || laneMode m port == 3

/-- Dataset comparison of two masters by their six attributes in order: the first is better than or equal. -/
def betterEq : List Nat → List Nat → Bool
  | a :: as, b :: bs => if a = b then betterEq as bs else decide (a < b)
  | _, _ => true

def usable (x : Option Master) : Option Master := x.bind fun k => if k.qualified then some k else none

/-- The candidate in use by R38: port and grandmaster. -/
def selectMaster (t : TimSt) : Option (Nat × Master) :=
  match usable t.masterA, usable t.masterB with
  | some a, some b =>
    if t.activePort = t.portB && t.portB ≠ t.portA && !betterEq a.attrs b.attrs then some (t.portB, b) else some (t.portA, a)
  | some a, none => some (t.portA, a)
  | none, some b => some (t.portB, b)
  | none, none => none

/-- Grandmaster identity of a master: the last of its attributes. -/
def gmOf (k : Master) : Nat := (k.attrs.getLast?).getD 0

/-- Grandmaster in use. -/
def gmInUse (t : TimSt) : Option Nat :=
  if t.activePort = 0xFF then none
  else if t.activePort = t.portA then t.masterA.map gmOf else t.masterB.map gmOf

/-- A change of master or port (R38): event and record with Device origin. DESIGN CHOICE (log 114): with no port left the
grandmaster identity reads zero. -/
def masterChange (port gm : Nat) (m : M) : M := announce timUnit 0x0104 2 timOid [.u 1 port, .u 4 (gm % 2 ^ 32)] 0 m

/-- No port is in use; where one was, that is a change of port. -/
def noMaster (m : M) : M :=
  let m1 := { m with tim.activePort := 0xFF, tim.ptpState := 1 }
  if m.tim.activePort = 0xFF then m1 else masterChange 0xFF 0 m1

/-- Select again; a change of master or port raises EV_PTP_MASTER_CHANGE and is journalled. -/
def reselect (before : Option Nat) (m : M) : M :=
  match selectMaster m.tim with
  | none => noMaster m
  | some (p, k) =>
    let changed := p != m.tim.activePort || before != some (gmOf k)
    let m1 := { m with tim.activePort := p, tim.ptpState := if m.tim.quality = 2 then 3 else 2 }
    if changed then masterChange p (gmOf k) m1 else m1

/-- The source is lost: a locked quality becomes holdover (R39). -/
def sourceLost (m : M) : M := setQuality (if m.tim.quality = 2 then 1 else m.tim.quality) { m with tim.lockRun := 0 }

def ptpAnnounce (port : Nat) (attrs : List Nat) (sender : Nat) (qualified : Bool) (interval : Nat) (m : M) : M :=
  if m.tim.mode ≠ 0 || ptpDeaf m port then m
  else
    let k : Master := { attrs := attrs, sender := sender, qualified := qualified, last := m.vault.mono, interval := interval }
    let before := gmInUse m.tim
    if port = m.tim.portA then reselect before { m with tim.masterA := some k }
    else if port = m.tim.portB then reselect before { m with tim.masterB := some k }
    else m

/-- A master has sent no Announce for announceReceiptTimeout. -/
def announceDue (m : M) (x : Option Master) : Bool :=
  match x with
  | some k => decide (k.last + k.interval ≤ m.vault.mono)
  | none => false

def ptpAnnounceTimeout (port : Nat) (m : M) : M :=
  if m.tim.mode ≠ 0 then m
  else
    let before := gmInUse m.tim
    let m1 := if port = m.tim.portA && announceDue m m.tim.masterA then some { m with tim.masterA := none }
      else if port = m.tim.portB && announceDue m m.tim.masterB then some { m with tim.masterB := none }
      else none
    match m1 with
    | none => m
    | some x =>
      let y := reselect before x
      if y.tim.activePort = 0xFF then sourceLost y else y

def execPtpAnnounceReceived (port : Nat) (attrs : List Nat) (sender : Nat) (qualified : Bool) (interval : Nat) (s : State) :
    Host.Outcome State Fault Refusal := lift (ptpAnnounce port attrs sender qualified interval) s

def execPtpAnnounceTimeout (port : Nat) (s : State) : Host.Outcome State Fault Refusal := lift (ptpAnnounceTimeout port) s

/-- A Sync message on the active port: offset is the measured difference less the path delay (R38, R40). -/
def ptpSync (port : Nat) (diff : Int) (m : M) : M :=
  if m.tim.mode ≠ 0 || m.tim.activePort ≠ port || port = 0xFF || ptpDeaf m port then m
  else
    let offset := diff - m.tim.delay
    let m1 := correctOffset offset { m with tim.offset := satS 32 offset }
    let m2 := lockCount (decide (offset.natAbs ≤ 1000)) 16 m1
    { m2 with tim.ptpState := if m2.tim.quality = 2 then 3 else 2 }

def execPtpSyncReceived (port : Nat) (diff : Int) (s : State) : Host.Outcome State Fault Refusal := lift (ptpSync port diff) s

/-- A Delay_Resp message: the measured path delay of the end-to-end mechanism (R38). -/
def ptpDelayResp (port : Nat) (delay : Int) (m : M) : M :=
  if m.tim.mode ≠ 0 || m.tim.activePort ≠ port || port = 0xFF || ptpDeaf m port then m else { m with tim.delay := delay }

def execPtpDelayRespReceived (port : Nat) (delay : Int) (s : State) : Host.Outcome State Fault Refusal :=
  lift (ptpDelayResp port delay) s

/-! ## REF_FRAME and REF_10M (R41) -/

/-- Period of the declared REF_FRAME rate in ns, 0 when none is declared. -/
def refPeriod (t : TimSt) : Nat := if t.rateNum = 0 then 0 else t.rateDen * nsPerS / t.rateNum

/-- Signed distance of a device time from the nearest instant of a grid. -/
def nearestErr (b : Boundary) (t : Nat) : Int :=
  let up := firstAt b t
  let lo := boundaryAt b (boundaryNo b t)
  if t - lo ≤ up - t then ((t - lo : Nat) : Int) else -((up - t : Nat) : Int)

def refErr (m : M) : Int := nearestErr (.video m.tim.rateNum m.tim.rateDen) m.dev

/-- EV_REF_CHANGE of an input. -/
def refChange (input : Nat) (present inverted : Bool) (m : M) : M :=
  raise 0x0105 2 timOid [.u 1 input, .u 1 (b2n present), .u 1 (b2n inverted)] m

/-- Presence, polarity and run of pulses after a pulse whose leading edge is the given one. -/
def refPresence (falling : Bool) (m : M) : M :=
  let p := refPeriod m.tim
  let ok := match m.tim.refLast with
    | some t => decide ((((m.vault.mono - t : Nat) : Int) - p).natAbs * 100 ≤ p) && decide (0 < p)
    | none => false
  let run := if ok then m.tim.refPulses + 1 else 1
  let ppb : Int := match m.tim.refLast with
    | some t => if ok then ((p : Int) - ((m.vault.mono - t : Nat) : Int)) * 1000000000 / p else m.tim.framePpb
    | none => m.tim.framePpb
  let m1 := { m with tim.refPulses := run, tim.refMissed := 0, tim.refLast := some m.vault.mono, tim.framePpb := ppb }
  if run ≥ 4 && (!m.tim.refPresent || m.tim.refInverted != falling) then
    refChange 0 true falling { m1 with tim.refPresent := true, tim.refInverted := falling }
  else m1

/-- The disagreement of an edge in PTP mode while locked is counted and moves nothing. -/
def refDisagree (m : M) : M :=
  if m.tim.mode = 0 && m.tim.quality = 2 && refPeriod m.tim ≠ 0 && decide (1000 < (refErr m).natAbs) then
    count .refDisagree 0 0 0 m
  else m

/-- The descriptor of a TIM_SET that waits. -/
def timSetWaiting (m : M) : Option Desc := (m.pend.find? fun p => p.waits && p.d.opcode == 0x0102).map Pend.d

/-- End the wait of a TIM_SET (R59). -/
def endTimSet (d : Desc) (status : Nat) (m : M) : M :=
  finish d false (reply status 0 0xFF)
    { m with tim.setWait := none, pend := m.pend.filter fun p => !(p.waits && p.d.opcode == 0x0102) }

/-- A REF_FRAME leading edge (R41, R59, R39). -/
def refEdge (falling : Bool) (m : M) : M :=
  if 3 ≤ m.pwr.state then m
  else if !m.tim.refEn then refDisagree m
  else
    let m1 := refPresence falling m
    match m1.tim.mode, m1.tim.setWait, timSetWaiting m1 with
    | 1, some w, some d =>
      endTimSet d stOK (timeStep w.1 { m1 with tim.setDone := true, tim.lockRun := 0 })
    | 1, _, _ =>
      if m1.tim.setDone then
        let e := refErr m1
        lockCount (decide (e.natAbs ≤ 100)) 4 (correctOffset e { m1 with tim.offset := satS 32 e })
      else m1
    | 0, _, _ => refDisagree m1
    | _, _, _ => m1

def execRefFrameEdge (falling : Bool) (s : State) : Host.Outcome State Fault Refusal := lift (refEdge falling) s

/-- An expected pulse did not come: its time and 1 % have passed. Absent after four (R41); REF mode loses its source. -/
def refMissed (m : M) : M :=
  let p := refPeriod m.tim
  match m.tim.refLast with
  | none => m
  | some t =>
    if !m.tim.refEn || decide (3 ≤ m.pwr.state) || p = 0 || m.vault.mono * 100 < t * 100 + p * 100 * (m.tim.refMissed + 1) + p then m
    else
      let n := m.tim.refMissed + 1
      let m1 := { m with tim.refMissed := n, tim.refPulses := 0 }
      if n < 4 then m1
      else
        let m2 := { m1 with tim.refPresent := false, tim.refLast := none, tim.refMissed := 0 }
        let m3 := if m.tim.refPresent then refChange 0 false m.tim.refInverted m2 else m2
        if m.tim.mode = 1 then sourceLost m3 else m3

def execRefFrameMissed (s : State) : Host.Outcome State Fault Refusal := lift refMissed s

/-- REF_10M is present when its measured frequency lies within ±10 ppm of 10 MHz. -/
def ref10m (ppb : Int) (m : M) : M :=
  let now := decide (ppb.natAbs ≤ 10000)
  if 3 ≤ m.pwr.state then m
  else
    let m1 := { m with tim.tenPpb := ppb }
    if now = m.tim.tenPresent then m1 else refChange 1 now false { m1 with tim.tenPresent := now }

def execRef10mChange (ppb : Int) (s : State) : Host.Outcome State Fault Refusal := lift (ref10m ppb) s

/-- A TIM_SET that has waited 10 s completes with TIMEOUT; time and quality are unchanged (R59). -/
def timSetTimeout (m : M) : M :=
  match m.tim.setWait, timSetWaiting m with
  | some w, some d => if w.2 + 10 * nsPerS ≤ m.vault.mono then endTimSet d stTimeout m else m
  | _, _ => m

def execTimSetTimeout (s : State) : Host.Outcome State Fault Refusal := lift timSetTimeout s

/-! ## Commands -/

/-- A specification that checks nothing of its own and applies when it executes. -/
def baseSpec (opcode : Nat) (perm : Perm) : CmdSpec where
  opcode := opcode
  ptr := false
  force := false
  mask := 0
  perm := perm
  bufRsv := fun _ _ => none
  names := fun _ _ => []
  obj := fun _ _ => true
  fields := fun _ _ => none
  late := fun _ _ => none
  when := fun _ _ => none
  ostate := fun _ _ => 0xFF
  apply := fun _ m => (m, .done (reply stOK 0 0xFF))

def okReply (state : Nat) : Applied := .done (reply stOK 0 state)

def timObj (d : Desc) (m : M) : Bool := oidOk m 1 false (oid d)

/-- A rate REF_FRAME may declare: a rate of Table 11-2, or 1/1 Hz. -/
def refRateOk (num den : Nat) : Bool :=
  (num == 1 && den == 1) || (List.range 12).any fun c => c != 0 && rateOf c == (num, den)

/-- A port code of TIM_SOURCE_SET: an Ethernet port, or 0xFF where the mode allows none. -/
def srcPortOk (m : M) (noneOk : Bool) (code : Nat) : Bool := (code == 0xFF && noneOk) || ethPort m code

/-- The settings a TIM_SOURCE_SET gives differ from those in force in what *changes the source* (R39). -/
def srcChanges (t : TimSt) (d : Desc) : Bool :=
  let en := payBit d 7 0
  pay d 0 1 != t.mode || pay d 1 1 != t.domain || pay d 2 1 != t.portA || pay d 3 1 != t.portB || en != t.refEn ||
  payBit d 7 1 != t.tenEn || (en && (pay d 8 2 != t.rateNum || pay d 10 2 != t.rateDen))

/-- Effect of TIM_SOURCE_SET (R37, R39, R59). New ports, or a new mode or domain, leave the port in use: the change is
journalled, and with it a loss of the source at the same instant (R57). -/
def applySource (d : Desc) (m : M) : M :=
  let t := m.tim
  let mode := pay d 0 1
  let ch := srcChanges t d
  let m0 := match t.setWait, timSetWaiting m with
    | some _, some w => endTimSet w stConflict m
    | _, _ => m
  let ports := pay d 1 1 != t.domain || pay d 2 1 != t.portA || pay d 3 1 != t.portB || mode != t.mode
  let en := payBit d 7 0
  let m1 := { m0 with
    tim.mode := mode, tim.domain := pay d 1 1, tim.portA := pay d 2 1, tim.portB := pay d 3 1,
    tim.stepUs := pay d 4 2, tim.slewPpm := pay d 6 1, tim.refEn := en, tim.tenEn := payBit d 7 1,
    tim.rateNum := if en then pay d 8 2 else t.rateNum, tim.rateDen := if en then pay d 10 2 else t.rateDen,
    tim.lockRun := if ch then 0 else t.lockRun,
    tim.setDone := if mode = 1 && t.mode ≠ 1 then false else t.setDone,
    tim.slewLeft := if mode = 2 then 0 else t.slewLeft, tim.slewAcc := if mode = 2 then 0 else t.slewAcc,
    tim.activePort := if ports then 0xFF else t.activePort,
    tim.masterA := if ports then none else t.masterA,
    tim.masterB := if ports then none else t.masterB,
    tim.ptpState := if mode = 0 then (if ports then 1 else t.ptpState) else 0,
    tim.refPresent := t.refPresent && en,
    tim.refPulses := if ch then 0 else t.refPulses,
    tim.refLast := if en then t.refLast else none }
  let m2 := if t.refPresent && !en then refChange 0 false t.refInverted m1 else m1
  let mP := if ports && t.activePort ≠ 0xFF then masterChange 0xFF 0 m2 else m2
  let m3 := if mode ≠ t.mode then jrnAnchor mP else mP
  if !ch then m3
  else if mode = 2 then setQuality 0 m3
  else if mode = 1 && t.mode ≠ 1 then setQuality 0 m3
  else if t.quality = 2 then setQuality 1 m3
  else m3

def timSourceSetSpec : CmdSpec :=
  { baseSpec 0x0101 permService with
    mask := mb 0 7 ||| mbits 7 3 ||| mb 8 4
    obj := timObj
    fields := fun d m => firstBad
      [(decide (2 < pay d 0 1), off 0), (decide (127 < pay d 1 1), off 1),
       (!srcPortOk m (pay d 0 1 != 0) (pay d 2 1), off 2), (!srcPortOk m true (pay d 3 1), off 3),
       (!(decide (1 ≤ pay d 6 1) && decide (pay d 6 1 ≤ 100)), off 6),
       (payBit d 7 0 && !refRateOk (pay d 8 2) (pay d 10 2), off 8)]
    apply := fun d m => (applySource d m, okReply 0xFF) }

def execTimSourceSet (d : Desc) (s : State) : Host.Outcome State Fault Refusal := lift (hostRow timSourceSetSpec d) s

/-- Effect of TIM_SET: a step at once in FREE mode, a wait for the next edge in REF mode (R59). -/
def applyTimSet (d : Desc) (m : M) : M × Applied :=
  let t := pay d 0 6 * nsPerS + pay d 6 4
  if m.tim.mode = 2 then (timeStep t m, okReply 0xFF)
  else
    ({ m with
        tim.setWait := some (t, m.vault.mono),
        pend := m.pend ++ [{ d := d, due := 0, kind := .instant, late := false, order := m.host.orders, waits := true,
                             before := 0xFF }],
        host.orders := m.host.orders + 1 }, .later)

def timSetSpec : CmdSpec :=
  { baseSpec 0x0102 permService with
    mask := mb 0 10
    obj := timObj
    fields := fun d _ => firstBad [(decide (nsPerS ≤ pay d 6 4), off 6)]
    late := fun _ m => firstFail
      [(m.tim.mode == 1 && (m.tim.setWait.isSome || decide (heldMax ≤ m.pend.length)), stBusy, 0),
       (m.tim.mode == 0, stConflict, 0)]
    apply := applyTimSet }

def execTimSet (d : Desc) (s : State) : Host.Outcome State Fault Refusal := lift (hostRow timSetSpec d) s

/-- TIM_SLACK_ALARM_SET (R53): arms a threshold ratio for a unit class of a die. -/
def timSlackAlarmSetSpec : CmdSpec :=
  { baseSpec 0x0104 permPf0 with
    mask := mb 0 2 ||| mbits 2 1 ||| mb 4 2
    obj := timObj
    fields := fun d m => firstBad
      [(!(decide (1 ≤ pay d 0 1) && decide (pay d 0 1 ≤ m.part.media)), off 0), (decide (4 < pay d 1 1), off 1),
       (decide (1000 < pay d 4 2), off 4)]
    apply := fun d m =>
      ({ m with pace.alarms := tset m.pace.alarms (pay d 0 1 * 8 + pay d 1 1) (payBit d 2 0, pay d 4 2) }, okReply 0xFF) }

def execTimSlackAlarmSet (d : Desc) (s : State) : Host.Outcome State Fault Refusal := lift (hostRow timSlackAlarmSetSpec d) s

end Sys2Proof.Machine
end

