-- ==== Sys2Proof/Machine/HostLink.lean ====
section
/-!
DEFINITION. The host link (chapters 04 and 22): rings, doorbells, direct port, event queues, interrupt masks, function
reset, and BAR accesses without a behaviour of their own.
-/
namespace Sys2Proof.Machine

/-- BAR accesses act: Ready, and not in Comma state (R442). -/
def barOpen (m : M) : Bool := m.start.phase == .ready && decide (m.pwr.state < 3)

/-- MSI-X vectors of a function (Table 04-1). -/
def vectorsOf (f : Nat) : Nat := if f = 0 then 1024 else if f ≤ 2 then 256 else 8

/-! ## Host-queue commands (R103, Table 04-9) -/

def qKind (d : Desc) : Nat := bits (oid d) 16 2
def qNo (d : Desc) : Nat := bits (oid d) 0 10

/-- Object id of a host queue: class 0x5, die 0, one of the kinds. -/
def hostQueueObj (kinds : List Nat) (d : Desc) : Bool :=
  oidCls (oid d) == 5 && oidDie (oid d) == 0 && kinds.contains (qKind d)

def qFn (d : Desc) (m : M) : Nat := pathFn m d.path

/-- State of the queue a command names: a ring 0 ABSENT, 1 ACTIVE, 2 FAULT; an event queue 1. -/
def queueState (d : Desc) (m : M) : Nat :=
  let f := getFn m (qFn d m)
  match qKind d with
  | 0 => match tget? f.sub (qNo d) with
    | some r => if r.fault then 2 else 1
    | none => 0
  | 1 => if (tget? f.cmp (qNo d)).isSome then 1 else 0
  | _ => 1

/-- The queue lies within the function's grant of the QUEUES section. -/
def granted (d : Desc) (m : M) : Bool :=
  let g := imgGrant (img m) (qFn d m)
  decide (qNo d < (match qKind d with | 0 => g.sub | 1 => g.cmp | _ => g.evq))

def pow2In (lo hi n : Nat) : Bool := (List.range 33).any fun k => n == 2 ^ k && decide (lo ≤ n) && decide (n ≤ hi)

/-- Ranges of Table 04-9. DESIGN CHOICE (log 101): the bytes of the other kind of ring, 20 to 21 and 28 of a completion ring and
22 to 27 of a submission ring, are neither checked nor used. -/
def ringCreateFields (d : Desc) (m : M) : Option Nat :=
  let sub := qKind d == 0
  firstBad
    [(pay d 0 8 % 4096 != 0, off 0), (!pow2In 64 65536 (pay d 8 4), off 8),
     (if sub then pay d 12 8 != 0 else pay d 12 8 % 8 != 0, off 12),
     (sub && (tget? (getFn m (qFn d m)).cmp (pay d 20 2)).isNone, off 20),
     (!sub && decide (vectorsOf (qFn d m) ≤ pay d 22 2), off 22),
     (!sub && !(decide (1 ≤ pay d 24 2) && decide (pay d 24 2 ≤ 256)), off 24),
     (!sub && decide (1000 < pay d 26 2), off 26),
     (sub && !(decide (1 ≤ pay d 28 1) && decide (pay d 28 1 ≤ 16)), off 28)]

/-- The ring belongs to the function that created it (R82). -/
def createRing (d : Desc) (m0 : M) : M :=
  let f := qFn d m0
  let m := own (oid d) f m0
  let fn := getFn m f
  if qKind d = 0 then
    let ring : SubRing :=
      { fault := false, base := pay d 0 8, depth := pay d 8 4, cq := pay d 20 2, weight := pay d 28 1, fetched := 0,
        waiting := [] }
    setFn f { fn with sub := tset fn.sub (qNo d) ring } m
  else
    let ring : CmpRing :=
      { base := pay d 0 8, depth := pay d 8 4, writeBack := pay d 12 8, vector := pay d 22 2, coalCount := pay d 24 2,
        coalUs := pay d 26 2, written := 0, returned := 0, unsignalled := 0, firstAt := 0, backlog := [] }
    setFn f { fn with cmp := tset fn.cmp (qNo d) ring } m

def hifRingCreateSpec : CmdSpec :=
  { baseSpec 0x0601 permAny with
    mask := mb 0 29
    obj := fun d _ => hostQueueObj [0, 1] d
    fields := ringCreateFields
    late := fun d m => firstFail [(!granted d m, stResource, 0), (queueState d m != 0, stConflict, 0)]
    ostate := queueState
    apply := fun d m => (createRing d m, .done { (reply stOK 0 1) with before := 0 }) }

def execHifRingCreate (d : Desc) (s : State) : Host.Outcome State Fault Refusal := lift (hostRow hifRingCreateSpec d) s

/-- Commands taken whose completion a completion ring is still owed, and completions that wait for its slots. -/
def owedTo (m : M) (f q : Nat) : Nat :=
  let mine (p : Path) : Bool := match p with
    | .host g r cq => g == f && r != 0x3FF && cq == (getFn m f).epoch * 1024 + q
    | _ => false
  (m.pend.filter fun p => !p.waits && mine p.d.path).length + (m.deferred.filter fun d => mine d.path).length +
  (match tget? (getFn m f).cmp q with | some r => r.backlog.length | none => 0)

/-- A submission ring is bound to a completion ring. -/
def hasBound (m : M) (f q : Nat) : Bool := (getFn m f).sub.any fun s => s.2.cq == q

def deleteRing (d : Desc) (m0 : M) : M :=
  let f := qFn d m0
  let m := disown (oid d) m0
  let fn := getFn m f
  if qKind d = 0 then setFn f { fn with sub := tdel fn.sub (qNo d) } m
  else setFn f { fn with cmp := tdel fn.cmp (qNo d) } m

def hifRingDeleteSpec : CmdSpec :=
  { baseSpec 0x0602 permAny with
    obj := fun d _ => hostQueueObj [0, 1] d
    late := fun d m => firstFail
      [(!granted d m, stResource, 0), (queueState d m == 0, stConflict, 0),
       (qKind d == 1 && hasBound m (qFn d m) (qNo d), stConflict, 0),
       (qKind d == 1 && owedTo m (qFn d m) (qNo d) != 0, stConflict, owedTo m (qFn d m) (qNo d) % 65536)]
    ostate := queueState
    apply := fun d m => (deleteRing d m, .done { (reply stOK 0 0) with before := queueState d m }) }

def execHifRingDelete (d : Desc) (s : State) : Host.Outcome State Fault Refusal := lift (hostRow hifRingDeleteSpec d) s

def configEvq (d : Desc) (m : M) : M :=
  let f := qFn d m
  setEvq f (qNo d) { getEvq m f (qNo d) with
    classMask := pay d 0 4, dieMask := pay d 4 1, threshold := pay d 5 1, intLevel := pay d 6 1, vector := pay d 8 2 } m

def hifEvqConfigSpec : CmdSpec :=
  { baseSpec 0x0603 permAny with
    mask := mb 0 5 ||| mbits 5 7 ||| mbits 6 7 ||| mb 8 2
    obj := fun d _ => hostQueueObj [2] d
    fields := fun d m => firstBad [(decide (vectorsOf (qFn d m) ≤ pay d 8 2), off 8)]
    late := fun d m => firstFail [(!granted d m, stResource, 0)]
    ostate := queueState
    apply := fun d m => (configEvq d m, okReply 1) }

def execHifEvqConfig (d : Desc) (s : State) : Host.Outcome State Fault Refusal := lift (hostRow hifEvqConfigSpec d) s

def hifNopSpec : CmdSpec :=
  { baseSpec 0x0604 permAny with
    obj := fun d _ => hostQueueObj [0, 1, 2] d
    ostate := queueState
    apply := fun d m => (m, okReply (queueState d m)) }

def execHifNop (d : Desc) (s : State) : Host.Outcome State Fault Refusal := lift (hostRow hifNopSpec d) s

/-! ## Ports of BAR2 (R84 to R90) -/

/-- A descriptor written to the direct port waits there; beyond 16 outstanding it is discarded (R85). -/
def directWrite (f : Nat) (d : Desc) (m : M) : M :=
  let fn := getFn m f
  if !barOpen m || !fnExists m f then m
  else if 16 ≤ fn.directOut then count .fnDirectDrop f 0 0 m
  else setFn f { fn with directOut := fn.directOut + 1, directWait := fn.directWait ++ [d] } m

def execDirectSubmitWrite (f : Nat) (d : Desc) (s : State) : Host.Outcome State Fault Refusal := lift (directWrite f d) s

/-- A pop removes the oldest direct completion and shows the next; an empty FIFO keeps the last (R85). -/
def directPop (f : Nat) (m : M) : M :=
  let fn := getFn m f
  if !barOpen m || !fnExists m f then m
  else match fn.directFifo with
  | [] => m
  | _ :: r => setFn f { fn with directFifo := r, directOut := fn.directOut - 1,
                                directHead := r.headD fn.directHead } m

def execDirectCompletionPop (f : Nat) (s : State) : Host.Outcome State Fault Refusal := lift (directPop f) s

/-- EV_RING_FAULT (Table 04-12). -/
def ringFault (f kind r cause : Nat) (m : M) : M :=
  raise 0x0601 1 (ringOid f kind r) [.u 1 f, .u 2 r, .u 1 cause] m

/-- A submission doorbell (R86): fetch the descriptors up to the new count, or ignore it and say so. -/
def doorbell (f r cnt : Nat) (ds : List Desc) (m : M) : M :=
  if !barOpen m || !fnExists m f then m
  else
    let fn := getFn m f
    match tget? fn.sub r with
    | none => count .fnBadDoorbell f 0 0 m
    | some s =>
      let n := (cnt + 2 ^ 32 - s.fetched) % 2 ^ 32
      if s.depth < n then ringFault f 0 r 0 (count .fnBadDoorbell f 0 0 m)
      else if s.fault then m
      else
        let got := ds.take n
        let ring := { s with fetched := (s.fetched + got.length) % 2 ^ 32, waiting := s.waiting ++ got }
        setFn f { fn with sub := tset fn.sub r ring } m

def execSubmissionDoorbell (f ring cnt : Nat) (fetched : List Desc) (s : State) : Host.Outcome State Fault Refusal :=
  lift (doorbell f ring cnt fetched) s

/-- A completion head doorbell (R86): slots returned, or ignored when it returns slots that hold no completion. -/
def headDoorbell (f q cnt : Nat) (m : M) : M :=
  if !barOpen m || !fnExists m f then m
  else
    let fn := getFn m f
    match tget? fn.cmp q with
    | none => count .fnBadDoorbell f 0 0 m
    | some r =>
      let n := (cnt + 2 ^ 32 - r.returned % 2 ^ 32) % 2 ^ 32
      if r.written - r.returned < n then ringFault f 1 q 0 (count .fnBadDoorbell f 0 0 m)
      else cqDrain f q r.backlog.length (setFn f { fn with cmp := tset fn.cmp q { r with returned := r.returned + n } } m)

def execCompletionHeadDoorbell (f ring cnt : Nat) (s : State) : Host.Outcome State Fault Refusal := lift (headDoorbell f ring cnt) s

/-- A descriptor fetch fails (R87): the ring goes to FAULT, counted, raised and journalled. -/
def fetchFault (f r : Nat) (m : M) : M :=
  if !barOpen m then m
  else
    let fn := getFn m f
    match tget? fn.sub r with
    | none => m
    | some s =>
      if s.fault then m
      else
        announce 8 0x0601 1 (ringOid f 0 r) [.u 1 f, .u 2 r, .u 1 1] 0
          (count .fnFetchFault f 0 0 (setFn f { fn with sub := tset fn.sub r { s with fault := true } } m))

def execDescriptorFetchFault (f ring : Nat) (s : State) : Host.Outcome State Fault Refusal := lift (fetchFault f ring) s

/-- The coalescing time has passed since the first completion not yet signalled (R90). -/
def coalesce (f q : Nat) (m : M) : M :=
  let fn := getFn m f
  match tget? fn.cmp q with
  | none => m
  | some r =>
    if r.unsignalled = 0 || decide (3 ≤ m.pwr.state) || decide (m.vault.mono < r.firstAt + r.coalUs * 1000) then m
    else msixRaise f r.vector (setFn f { fn with cmp := tset fn.cmp q { r with unsignalled := 0 } } m)

def execCompletionCoalesceTimeout (f ring : Nat) (s : State) : Host.Outcome State Fault Refusal := lift (coalesce f ring) s

/-- Clear a vector's mask bit: a pending vector fires (R90). -/
def unmask (f v : Nat) (m : M) : M :=
  if !fnExists m f || decide (vectorsOf f ≤ v) then m
  else
    let e := tget m.host.msix (msixKey f v) (true, false)
    let m1 := { m with host.msix := tset m.host.msix (msixKey f v) (false, false) }
    if e.2 then emit (.msix f v) m1 else m1

def execMsixVectorUnmask (f vector : Nat) (s : State) : Host.Outcome State Fault Refusal := lift (unmask f vector) s

/-! ## Event queue ports (R101) -/

def evqPort (m : M) (f q : Nat) : Bool := barOpen m && fnExists m f && decide (q < (imgGrant (img m) f).evq)

/-- A pop shows the oldest record of the highest-priority level; on an empty queue it sets UNDERRUN. -/
def evqPop (f q : Nat) (m : M) : M :=
  if !evqPort m f q then m
  else
    let e := getEvq m f q
    match evqBest e.recs with
    | none => setEvq f q { e with underrun := true } m
    | some r => setEvq f q { e with recs := evqPopRecs e.recs, head := r } m

def execEvqPop (f q : Nat) (s : State) : Host.Outcome State Fault Refusal := lift (evqPop f q) s

/-- Underrun is cleared by a write of 1 to bit 30 of the status word. -/
def evqClear (f q value : Nat) (m : M) : M :=
  if evqPort m f q && bit value 30 then setEvq f q { getEvq m f q with underrun := false } m else m

def execEvqUnderrunClear (f q value : Nat) (s : State) : Host.Outcome State Fault Refusal := lift (evqClear f q value) s

/-! ## BAR0 writes (R12, R464, R472, R473) -/

/-- An ignored or bad access: counted, and where it went (HIF_GLOBAL_LAST). BAR0 stands in the three PFs, BAR4 in PF0 only. -/
def noteAccess (r : CntReg) (f barBit offset : Nat) (m : M) : M :=
  if 2 < f || (barBit == 1 && f != 0) then m
  else
    let m1 := count r 0 0 0 m
    { m1 with host.lastFn := f, host.lastBar := barBit, host.lastOffset := offset }

/-- The function whose PF may write a function's mask element (R472). -/
def maskWriter (f : Nat) : Nat := if f = 1 then 1 else if f = 2 then 2 else 0

/-- One queue whose mask bit clears while a record at or above its interrupt level waits raises its vector once. -/
def maskCleared (f q old new : Nat) (m : M) : M :=
  let e := getEvq m f q
  if bit old q && !bit new q && e.recs.any (fun r => decide (r.level ≤ e.intLevel)) then msixRaise f e.vector m else m

def writeIntMask (fn f value : Nat) (m : M) : M :=
  if !barOpen m then m
  else if fn ≠ maskWriter f || decide (63 < f) then noteAccess .ignoredWrites fn 0 (0xB00000 + 8 * f) m
  else
    let n := (imgGrant (img m) f).evq
    let old := tget m.host.evqMask f 0
    let new := value % 2 ^ n
    let m1 := { m with host.evqMask := tset m.host.evqMask f new }
    (List.range n).foldl (fun x q => maskCleared f q old new x) m1

def execHifEvqIntMaskWrite (fn f value : Nat) (s : State) : Host.Outcome State Fault Refusal := lift (writeIntMask fn f value) s

/-- A bad access (R463, R470): of BAR0 or any BAR4 write in bad_access, of BAR2 in the writer's bad_write (R84). A read
returns zero. -/
def badAccess (fn bar offset : Nat) (write : Bool) (m0 : M) : M :=
  let m := if write then m0 else emit (.read [0]) m0
  if m.start.phase == .starting || decide (3 ≤ m.pwr.state) then m
  else if bar = 2 then (if write && m.start.phase == .ready then count .fnBadWrite fn 0 0 m else m)
  else noteAccess .badAccess fn (if bar = 4 then 1 else 0) offset m

def execBarAccessBad (fn bar offset : Nat) (write : Bool) (s : State) : Host.Outcome State Fault Refusal :=
  lift (badAccess fn bar offset write) s

/-- Write a byte of the Stem flash window: sparse, zero reads as unlisted. -/
def cellSet (a : Nat) (v : Byte) (w : List Host.Cell) : List Host.Cell := if v = 0#8 then tdel w a else tset w a v

/-- Write `n` bytes of a value, lowest first. -/
def cellsSet (a : Nat) (n value : Nat) (w : List Host.Cell) : List Host.Cell :=
  ((leBytes n value).zipIdx).foldl (fun x p => cellSet (a + p.2) p.1 x) w

/-- A word of an MSI-X table entry (Table 04-2): message address, message data, and vector control, whose bit 0 masks. -/
def msixWrite (f offset value : Nat) (m : M) : M :=
  let v := (offset - 0x8000) / 16
  if vectorsOf f ≤ v || offset % 4 ≠ 0 then count .fnBadWrite f 0 0 m
  else if offset % 16 = 12 then
    if bit value 0 then
      { m with host.msix := tset m.host.msix (msixKey f v) (true, (tget m.host.msix (msixKey f v) (true, false)).2) }
    else unmask f v m
  else { m with host.msixWords := tset m.host.msixWords (f * 16384 + (offset - 0x8000) / 4) (value % 2 ^ 32) }

/-- A flash operation starts; while one runs, the write is ignored. -/
def flashStart (op len : Nat) (m : M) : M :=
  if m.start.flashOp.isSome then m else { m with start.flashOp := some { op := op, addr := m.start.flashAddr, len := len } }

/-- A write to a register without a behaviour of its own (R84, R426, R464, R472): a permitted RW register is written,
any other write is ignored and counted. In Stem mode STM_FLASH_CMD takes any op, and STM_CONTROL a write of neither bit. -/
def otherWrite (fn bar offset value : Nat) (m : M) : M :=
  if m.start.phase == .starting || decide (3 ≤ m.pwr.state) then m
  else if bar = 2 then
    if 0x8000 ≤ offset && decide (offset < 0xC000) then msixWrite fn offset value m
    else if m.start.phase == .ready then count .fnBadWrite fn 0 0 m else m
  else if bar = 4 then noteAccess .badAccess fn 1 offset m
  else if m.start.phase == .stem then
    if offset = 0x1080 then { m with start.flashAddr := value % 2 ^ 32 }
    else if offset = 0x1084 then flashStart (bits value 28 4) (bits value 0 24) m
    else if offset = 0x108C && bits value 0 2 == 0 then m
    else if 0x10000 ≤ offset && decide (offset < 0x20000) then
      { m with start.window := cellsSet (offset - 0x10000) 4 value m.start.window }
    else noteAccess .ignoredWrites fn 0 offset m
  else if 0xB00000 ≤ offset && decide (offset < 0xB00200) && offset % 8 == 0 then writeIntMask fn ((offset - 0xB00000) / 8) value m
  else if 0xB01000 ≤ offset && decide (offset < 0xB01010) && fn == 2 && offset % 4 == 0 then
    { m with host.scratch := listSet m.host.scratch ((offset - 0xB01000) / 4) (value % 2 ^ 32) }
  else noteAccess .ignoredWrites fn 0 offset m

def execBarWriteIgnored (fn bar offset value : Nat) (s : State) : Host.Outcome State Fault Refusal :=
  lift (otherWrite fn bar offset value) s

/-- BAR4 takes one of its sizes (R470). -/
def bar4Resize (mib : Nat) (m : M) : M :=
  if [256, 512, 1024, 2048, 4096].contains mib then { m with host.bar4Mib := mib } else m

def execBar4Resize (mib : Nat) (s : State) : Host.Outcome State Fault Refusal := lift (bar4Resize mib) s

/-- A read of TIM_NOW_NS latches the seconds and MONO of the same instant (R471, Table 02-10). -/
def nowNsRead (m : M) : M :=
  if decide (3 ≤ m.pwr.state) || m.start.phase == .starting then emit (.read [0]) m
  else emit (.read [m.dev % nsPerS]) { m with tim.latchSec := m.dev / nsPerS % 2 ^ 48, tim.latchMono := m.vault.mono % 2 ^ 64 }

def execTimNowNsRead (s : State) : Host.Outcome State Fault Refusal := lift nowNsRead s

/-- Registers of a media die's block, by the register of their counter. -/
def cntOnDie : CntReg → Bool
  | .timLate | .netStream | .netPort | .cipLeg | .modCnt | .codCnt | .mixCnt | .mixBus | .mixLeg | .mixXp | .cmpCnt
  | .encCnt | .netSend | .trfQueue | .tskCnt | .dspCnt => true
  | .memCh | .laneDropped | .lanePrbs | .pinTxFaults => true
  | _ => false

/-- The window of a die that is held, lost or offline reads as zero, and so it does in Stem mode (R465). -/
def windowDark (m : M) (id : CntId) : Bool :=
  cntOnDie id.reg && id.i != 0 && (m.start.phase == .stem || [2, 3, 4].contains (dieState m id.i))

/-- A read of an RC field: its value, and the field cleared (R12, R466). -/
def rcRead (id : CntId) (m : M) : M :=
  if decide (3 ≤ m.pwr.state) || m.start.phase == .starting || windowDark m id then emit (.read [0]) m
  else emit (.read [cntGet m id]) (cntClear id m)

def execRcFieldRead (id : CntId) (s : State) : Host.Outcome State Fault Refusal := lift (rcRead id) s

/-! ## Function-level reset and loss of the link (R83) -/

/-- Counters of a function's BAR2 registers return to zero (R469). -/
def clearFnCnt (f : Nat) (m : M) : M :=
  { m with cnt := m.cnt.filter fun p =>
      !([CntReg.fnDirectDrop, .fnBadWrite, .fnBadDoorbell, .fnFetchFault, .evqLost].contains p.1.reg && p.1.i == f) }

/-- Rings, untaken descriptors and event-queue settings of a function are gone, with the ownership of the rings; its other
objects, its commands taken and its pending commands stay (R83). -/
def resetFn (f cause : Nat) (m : M) : M :=
  let fn := getFn m f
  let m1 := setFn f { fnEmpty with epoch := fn.epoch + 1 } (clearFnCnt f m)
  let m2 := { m1 with
    host.evqMask := tdel m1.host.evqMask f, host.msix := m1.host.msix.filter fun p => p.1 / 4096 != f,
    host.msixWords := m1.host.msixWords.filter fun p => p.1 / 16384 != f,
    owner := m1.owner.filter fun p => !(oidCls p.1 == 5 && bits p.1 18 7 == f) }
  announce 8 0x0602 2 (fnOid f) [.u 1 f, .u 1 cause] 0 m2

def flr (f : Nat) (m : M) : M := if m.start.phase == .ready && fnExists m f then resetFn f 0 m else m

def execFlr (f : Nat) (s : State) : Host.Outcome State Fault Refusal := lift (flr f) s

/-- A loss of the link without PERST# acts as an FLR of every function. -/
def linkLoss (m : M) : M :=
  if m.start.phase == .ready then
    (fnList m).foldl (fun x f => resetFn f 1 x)
      { m with host.linkSpeed := 0, host.linkWidth := 0, host.flit := false }
  else m

def execLinkLoss (s : State) : Host.Outcome State Fault Refusal := lift linkLoss s

/-! ## The I3C port (R106, R458) -/

def i3cOwner (m : M) : Nat := imgI3cOwner (img m)

/-- A START on the bus: a stuck bus has come free (R458). -/
def i3cStart (m : M) : M :=
  if m.pin.i3cStuck = 0 then m
  else raise 0x1702 3 (infraOid 0) [.u 1 3, .u 1 0, .u 1 (7 + m.pin.i3cStuck)] { m with pin.i3cStuck := 0 }

/-- A private read: status byte and the last completion. DESIGN CHOICE (log 104): a read that finds a completion ready takes the
port back to idle, so the next read of the same completion carries status 0. -/
def i3cRead (m0 : M) : M :=
  if m0.start.phase ≠ .ready || decide (3 ≤ m0.pwr.state) then m0
  else
    let m := i3cStart m0
    let st := if m.i3c.busy then 1 else if m.i3c.pendingRead then 2 else 0
    emit (.i3cRead st m.i3c.last) { m with i3c.pendingRead := false }

def execI3cPrivateRead (s : State) : Host.Outcome State Fault Refusal := lift i3cRead s

end Sys2Proof.Machine
end

