-- ==== Sys2Proof/Machine/Journal.lean ====
section
/-!
DEFINITION. The journal's commands and its own rows (chapter 05): export queues, marks, verification, the flash mirror,
the anchor timer.
-/
namespace Sys2Proof.Machine

def jrnUnit : Nat := 7

/-! ## Commands (Table 05-7) -/

def exportIdx (d : Desc) : Nat := oidIdx (oid d) - 1

def exportObj (d : Desc) (m : M) : Bool := oidOk m 4 false (oid d) && decide (1 ≤ oidIdx (oid d))

def jrnObj (d : Desc) (_ : M) : Bool := oid d == jrnOid

/-- Range checks of Table 05-8, made only with enable set. -/
def exportFields (d : Desc) (m : M) : Option Nat :=
  if !payBit d 0 0 then none
  else firstBad
    [(!pow2In 64 65536 (pay d 4 4), off 4), (pay d 8 8 % 4096 != 0, off 8), (pay d 16 8 % 8 != 0, off 16),
     (pay d 24 8 % 4 != 0, off 24), (decide (vectorsOf 1 ≤ pay d 36 2) || m.part.media == 0, off 36),
     (!(decide (1 ≤ pay d 38 2) && decide (pay d 38 2 ≤ 4096)), off 38)]

/-- A queue as JRN_EXPORT_SET gives it: from the oldest record in the ring, or from the next record written. DESIGN CHOICE (log
105): the free-running counts of written and consumed records restart at 0. -/
def exportNew (d : Desc) (m : M) : ExportQ :=
  { enabled := true, full := false, next := if payBit d 0 1 then jrnTail m.jrn else m.jrn.head, depth := pay d 4 4,
    base := pay d 8 8, writeBack := pay d 16 8, consumedAt := pay d 24 8, mask := pay d 32 4, vector := pay d 36 2,
    intCount := pay d 38 2, written := 0, consumed := 0, unsignalled := 0, firstAt := 0, lastPoll := 0 }

def applyExport (d : Desc) (m : M) : M :=
  if payBit d 0 0 then exportSet (exportIdx d) (exportNew d m) m
  else { m with jrn.exports := tupd m.jrn.exports (exportIdx d) fun e => { e with enabled := false, full := false } }

def jrnExportSetSpec : CmdSpec :=
  { baseSpec 0x0401 permCompliance with
    mask := mbits 0 3 ||| mb 4 28 ||| mbits 32 0xFE ||| mb 33 2 ||| mb 36 4
    obj := exportObj
    fields := exportFields
    late := fun d m => firstFail [(decide ((imgGrant (img m) 1).exp ≤ exportIdx d), stResource, 0)]
    apply := fun d m => (applyExport d m, okReply 0xFF) }

def execJrnExportSet (d : Desc) (s : State) : Host.Outcome State Fault Refusal := lift (hostRow jrnExportSetSpec d) s

def jrnMarkSpec : CmdSpec :=
  { baseSpec 0x0403 permAny with
    mask := mb 0 8
    obj := jrnObj
    plainNow := fun d _ => some (0, pay d 0 8)
    apply := fun d m => (m, .done { reply stOK 0 0xFF with plain := some (0, pay d 0 8) }) }

def execJrnMark (d : Desc) (s : State) : Host.Outcome State Fault Refusal := lift (hostRow jrnMarkSpec d) s

/-- The range of a JRN_VERIFY lies wholly in the ring. -/
def verifyInRing (d : Desc) (m : M) : Bool :=
  decide (jrnTail m.jrn ≤ pay d 0 8) && decide (pay d 0 8 + pay d 8 4 ≤ m.jrn.head) && m.jrn.ringUp

def jrnVerifySpec : CmdSpec :=
  { baseSpec 0x0404 { permAny with vf := false } with
    mask := mb 0 12
    obj := jrnObj
    fields := fun d m => firstBad
      [(!(decide (1 ≤ pay d 8 4) && decide (pay d 8 4 ≤ ringSize)), off 8), (!verifyInRing d m, off 0)]
    late := fun _ m => firstFail [(m.jrn.verify.isSome, stBusy, 0)]
    apply := fun d m => ({ m with jrn.verify := some (d, pay d 0 8, pay d 8 4) }, .later) }

def execJrnVerify (d : Desc) (s : State) : Host.Outcome State Fault Refusal := lift (hostRow jrnVerifySpec d) s

/-! ## Verification (R124) -/

/-- Chain value before a record of the ring: its predecessor's, or, for the oldest, the last one that left the ring. -/
def chainBefore (j : JrnSt) (seq : Nat) : BitVec 128 :=
  if seq = 0 then j.lostChain else ((ringAt j (seq - 1)).map JRec.chain).getD j.lostChain

/-- A record of the ring recomputes to its chain. -/
def chainGood (j : JrnSt) (seq : Nat) : Bool :=
  match ringAt j seq with
  | some r => chainOf (chainBefore j seq) r == r.chain
  | none => true

/-- Sequence number of the first mismatch of a range; `damaged`: records whose bytes in hub GDDR6 no longer read as
written (assumption 3). -/
def firstMismatch (j : JrnSt) (damaged : List Nat) (first n : Nat) : Option Nat :=
  ((List.range n).map (first + ·)).find? fun s => damaged.contains s || !chainGood j s

/-- The end of a verification: detail [0] and [47:16], and a mismatch raised and journalled. -/
def verifyDone (damaged : List Nat) (m : M) : M :=
  match m.jrn.verify with
  | none => m
  | some (d, first, n) =>
    let m1 := { m with jrn.verify := none }
    match firstMismatch m.jrn damaged first n with
    | none => finish d false (reply stOK 0 0xFF) m1
    | some s =>
      finish d false (reply stOK (1 + (s - first) * 2 ^ 16) 0xFF) (announce jrnUnit 0x0403 0 jrnOid [.u 8 s] 0 m1)

def execJrnVerifyDone (damaged : List Nat) (s : State) : Host.Outcome State Fault Refusal := lift (verifyDone damaged) s

/-! ## The flash mirror (R120) -/

/-- Records of 64 bytes in a 64 KiB sector, and in the mirror. -/
def sectorRecs : Nat := 1024
def mirrorRecs : Nat := 65536

/-- How many records the mirror holds after `n` were ever programmed: a sector is erased before it is entered. -/
def mirrorHeld (n : Nat) : Nat :=
  if n ≤ mirrorRecs then n else mirrorRecs - sectorRecs + ((n - 1) % sectorRecs + 1)

/-- One record programmed to flash. -/
def mirrorProgram (r : JRec) (j : JrnSt) : JrnSt :=
  { j with mirror := (r :: j.mirror).take (mirrorHeld (j.programmed + 1)), programmed := j.programmed + 1 }

/-- A mirror gap record with the count of records not mirrored (Table 05-6): it exists in the mirror only. DESIGN CHOICE (log
106): it carries the number the next record will take, the time of its making, and chain 0. -/
def mirrorGap (m : M) : JRec :=
  { seq := m.jrn.head, sec := m.dev / nsPerS, ns := m.dev % nsPerS, monoLo := m.vault.mono % 2 ^ 32, path := 7,
    origin := 3 * 8 + m.tim.quality * 2, result := 0, obj := jrnOid, opcode := 0x04C4, old := 0, new := m.jrn.unmirrored,
    chain := 0 }

/-- Space has returned to the backlog: the gap is written and raised with cause 1. -/
def mirrorSpace (m : M) : M :=
  if m.jrn.unmirrored = 0 then m
  else
    let n := m.jrn.unmirrored
    let m1 := { m with jrn.backlog := m.jrn.backlog ++ [mirrorGap m], jrn.unmirrored := 0 }
    raise 0x0402 1 jrnOid [.u 1 1, .u 4 n] (count .jrnMirrorGaps 0 0 0 m1)

/-- A flash program of the mirror ends: a failure is retried once, a second one stops mirroring until the next start. -/
def mirrorDone (ok : Bool) (m : M) : M :=
  if m.jrn.mirrorFault then m
  else match m.jrn.backlog with
  | [] => m
  | r :: rest =>
    if ok then
      mirrorSpace { m with jrn := mirrorProgram r { m.jrn with backlog := rest, retried := false } }
    else if !m.jrn.retried then { m with jrn.retried := true }
    else
      let lost := m.jrn.backlog.length + m.jrn.unmirrored
      announce jrnUnit 0x0402 1 jrnOid [.u 1 0, .u 4 lost] 0
        { m with jrn.mirrorFault := true, jrn.backlog := [], jrn.unmirrored := 0 }

def execJrnMirrorProgramDone (ok : Bool) (s : State) : Host.Outcome State Fault Refusal := lift (mirrorDone ok) s

/-- An anchor when 3,600 s of MONO have passed since the last (R117). -/
def anchorTimer (m : M) : M :=
  if m.jrn.anchors.isEmpty || decide (m.vault.mono < m.jrn.lastAnchor + 3600 * nsPerS) then m else jrnAnchor m

def execJrnAnchorTimer (s : State) : Host.Outcome State Fault Refusal := lift anchorTimer s

/-! ## Export queues (R123) -/

/-- A full queue reads the host's consumed count, at most every 10 µs. -/
def exportPoll (q consumed : Nat) (m : M) : M :=
  match exportGet m q with
  | none => m
  | some e =>
    if !e.full || decide (3 ≤ m.pwr.state) || (e.lastPoll != 0 && decide (m.vault.mono < e.lastPoll + 10000)) then m
    else exportAll (exportSet q { e with consumed := consumed % 2 ^ 32, full := false, lastPoll := m.vault.mono } m)

def execExportConsumedPoll (q consumed : Nat) (s : State) : Host.Outcome State Fault Refusal := lift (exportPoll q consumed) s

/-- 1 ms after the first record not yet signalled. -/
def exportTimeout (q : Nat) (m : M) : M :=
  match exportGet m q with
  | none => m
  | some e =>
    if e.unsignalled = 0 || decide (3 ≤ m.pwr.state) || decide (m.vault.mono < e.firstAt + 1000000) then m
    else msixRaise 1 e.vector (exportSet q { e with unsignalled := 0 } m)

def execExportInterruptTimeout (q : Nat) (s : State) : Host.Outcome State Fault Refusal := lift (exportTimeout q) s

end Sys2Proof.Machine
end

