-- ==== Sys2Proof/Machine/Traffic.lean ====
section
/-!
DEFINITION. Egress scheduling (R309 to R315): ports, classes and leg queues, start-time fair queuing, shapers, sojourn
and byte limits, latency observation, and the commands that set them.
-/
namespace Sys2Proof.Machine

/-! ## Shared accessors -/

/-- On a leading part, an outcome of Table 18-2 is noted for the decision record of the window that runs (R404). -/
def noteOut (o : Outcome) (m : M) : M :=
  if m.pair.role = 2 then { m with pair.outcomes := m.pair.outcomes ++ [o] } else m

/-- A key frame of its source reaches a muted output (Table 18-3). -/
def muteKey (out : Nat) (m : M) : M :=
  { m with pair.mutes := m.pair.mutes.map fun (u : Mute) => if u.out = out then { u with met := true } else u }

/-- The replay window (R403): the shortest audio window of the image. -/
def replayNs (m : M) : Nat := if (mediaDies m).any fun d => (imgMixer (img m) d).1 == 1 then 250000 else 1000000

/-- The commit delay in force (R403). -/
def commitDelay (m : M) : Nat := if m.pair.delay then replayNs m else 0

/-- Unit codes of a media die (Table 05-5). -/
def netUnit (die : Nat) : Nat := unitPath die 0x40
def trfUnit (die : Nat) : Nat := unitPath die 0x41
def tskUnit (die : Nat) : Nat := unitPath die 0x42

/-- A task due at device time `t` is made ready: its first tick of 1 µs at or after `t` has come (R323, R324). -/
def tickDue (m : M) (t : Nat) : Bool := decide (cdiv t 1000 * 1000 ≤ m.dev)

def legOid (leg : Nat) : Nat := mkOid 9 (keyDie leg) (keyIdx leg)

/-- The part's infrastructure object, die 0. -/
def partObj (d : Desc) (_ : M) : Bool := oid d == infraOid 0

/-- The boundary of the commands of R49's table that act on streams, queues, ports and lines: the next 1 ms window start at
or after their commit time, also at commit time zero (R99). -/
def netWhen (_ : Desc) (_ : M) : Option Boundary := some hubWindow

/-- A port's settings apply to the frames that arrive after the command, or after its commit time (R133). -/
def portWhen (d : Desc) (_ : M) : Option Boundary := if commitAt d = 0 then none else some hubWindow

def getLeg (m : M) (k : Nat) : Option Leg := tget? m.net.legs k
def getSend (m : M) (k : Nat) : Option Send := tget? m.snd.sends k
def updSend (k : Nat) (f : Send → Send) (m : M) : M := { m with snd.sends := tupd m.snd.sends k f }

/-- The leg of a stream, receive or send, and its slot (R132, R293). -/
def strmLeg (k : Nat) : Nat := mkKey (keyDie k) (keyIdx k / 4)
def sendLeg (k : Nat) : Nat := mkKey (keyDie k) ((keyIdx k - 4096) / 4)
def sendSlot (k : Nat) : Nat := (keyIdx k - 4096) % 4
def sendIndex (k : Nat) : Nat := keyIdx k - 4096
def sendOid (k : Nat) : Nat := mkOid 0xA (keyDie k) (keyIdx k)
def strmOid (k : Nat) : Nat := mkOid 0xA (keyDie k) (keyIdx k)

/-- ARMED or LIVE. -/
def legCarries (l : Leg) : Bool := l.state == 2 || l.state == 3

def legSends (m : M) (leg : Nat) : List (Nat × Send) := m.snd.sends.filter fun s => sendLeg s.1 == leg

/-- Defaults of a line profile (Table 13-6). -/
def profileReset : Profile where
  headroom := 850
  start := 2000
  min := 64
  max := 20000
  lossHi := 26
  lossLo := 5
  gradHi := 5000
  gradLo := 1000
  backoff := 850
  inc := 80
  upWait := 1000
  rtx := 200

def getProfile (m : M) (n : Nat) : Profile := tget m.snd.profiles n profileReset

/-- Queue and line settings of a leg before any command (Table 13-7). -/
def tlegReset : TLeg where
  cls := 0
  weight := 16
  kbps := 0
  burst := 0
  maxBytes := 1048576
  maxSoj := 50
  mode := 0
  value := 0
  auto := 0
  loss := 0
  rtt := 0
  prev := none
  sent := []
  others := []
  learnedAddr := 0
  learnedPort := 0
  destRaised := false

def getTLeg (m : M) (k : Nat) : TLeg := tget m.snd.legs k tlegReset
def setTLeg (k : Nat) (t : TLeg) (m : M) : M := { m with snd.legs := tset m.snd.legs k t }

/-! ## Shapers (R311) -/

def shaperNone : Shaper := { kbps := 0, burst := 0, tokens := 0, next := none }

/-- A shaper of a rate and burst that starts full. -/
def shaperFull (kbps burst : Nat) : Shaper := { kbps := kbps, burst := burst, tokens := burst * 8000, next := none }

/-- Tokens suffice for a counted length. -/
def shaperMay (s : Shaper) (len : Nat) : Bool := s.kbps == 0 || decide (len * 8000 ≤ s.tokens)

def shaperPay (s : Shaper) (len : Nat) : Shaper := if s.kbps = 0 then s else { s with tokens := s.tokens - len * 8000 }

/-- Refill over `us` microseconds. A waiting change applies at this step, with its clamp (R311). -/
def shaperRefill (us : Nat) (s : Shaper) : Shaper :=
  match s.next with
  | none => { s with tokens := hold (s.burst * 8000) (s.tokens + s.kbps * us) }
  | some (k, b) =>
    { kbps := k, burst := b, tokens := if s.kbps = 0 then b * 8000 else hold (b * 8000) (s.tokens + k * us), next := none }

/-! ## Queues, classes and ports -/

def tagReset : Tag := { s := 0, f := 0, live := false }

def classReset : TClass := { weight := 16, sh := shaperNone, tag := tagReset, v := 0, fMax := 0 }

def tportReset : TPort := { rate := 0, mac := 0, classes := [], v := 0, fMax := 0, busy := none }

def getTPort (m : M) (port : Nat) : TPort := tget m.snd.ports port tportReset
def setTPort (port : Nat) (p : TPort) (m : M) : M := { m with snd.ports := tset m.snd.ports port p }

def getClass (p : TPort) (c : Nat) : TClass := tget p.classes c classReset
def setClass (c : Nat) (x : TClass) (p : TPort) : TPort := { p with classes := tset p.classes c x }

def queueKey (die q : Nat) : Nat := die * 1536 + q
def getQueue (m : M) (qk : Nat) : Option EQueue := tget? m.snd.queues qk
def updQueue (qk : Nat) (f : EQueue → EQueue) (m : M) : M := { m with snd.queues := tupd m.snd.queues qk f }

/-- TRF_QUEUE_CNT of a queue. -/
def countQueue (qk k n : Nat) (m : M) : M := cntAdd { reg := .trfQueue, i := qk / 1536, j := qk % 1536, k := k } n m

/-- Bytes held, counted by R309. -/
def queueBytes (q : EQueue) : Nat := (q.pkts.map EPkt.len).sum

/-- The head of a read position (R314): paths are false for the primary and true for the secondary. -/
def pathHead (q : EQueue) (second : Bool) : Option EPkt := q.pkts.find? fun p => if second then p.b else p.a

def pathTag (q : EQueue) (second : Bool) : Tag := if second then q.tagB else q.tagA
def pathSh (q : EQueue) (second : Bool) : Shaper := if second then q.shB else q.shA
def setPathTag (second : Bool) (t : Tag) (q : EQueue) : EQueue := if second then { q with tagB := t } else { q with tagA := t }
def setPathSh (second : Bool) (t : Shaper) (q : EQueue) : EQueue := if second then { q with shB := t } else { q with shA := t }

/-- The first packet a path still owes passes it, `sent` or discarded; a packet both positions have passed is freed. -/
def passHead (second sent : Bool) : List EPkt → List EPkt
  | [] => []
  | p :: r =>
    if (if second then p.b else p.a) then
      let p1 := if second then { p with b := false, out := p.out || sent } else { p with a := false, out := p.out || sent }
      if p1.a || p1.b then p1 :: r else r
    else p :: passHead second sent r

/-- A path's head may be served: emitted no earlier than its instant, and its shaper holds the tokens. -/
def headEligible (m : M) (q : EQueue) (second : Bool) : Bool :=
  match pathHead q second with
  | some p => decide (p.due ≤ m.dev) && shaperMay (pathSh q second) p.len
  | none => false

/-- The queues that an Ethernet port serves, with their path: those of modem legs go out by their channel (R183). -/
def portQueues (m : M) (port : Nat) : List (Nat × Bool × EQueue) :=
  (m.snd.queues.filter fun q => match getLeg m q.2.leg with | some l => l.transport == 0 | none => true).flatMap fun q =>
    (if q.2.lane = port then [(q.1, false, q.2)] else []) ++ (if q.2.sec = some port then [(q.1, true, q.2)] else [])

def queueClass (m : M) (q : EQueue) : Nat := (getTLeg m q.leg).cls

/-- Eligible flows of a class, of least start tag first, ties to the lower queue number. -/
def classHead (m : M) (port c : Nat) : Option (Nat × Bool × EQueue) :=
  (portQueues m port).foldl (fun a x =>
    if queueClass m x.2.2 = c && (pathTag x.2.2 x.2.1).live then
      match a with
      | none => some x
      | some y => if (pathTag x.2.2 x.2.1).s < (pathTag y.2.2 y.2.1).s then some x else some y
    else a) none

/-- A flow that becomes eligible takes S = max(V, F); one that its shaper holds loses its place (R310). -/
def retag (v : Nat) (now : Bool) (t : Tag) : Tag :=
  if now && !t.live then { t with s := if v < t.f then t.f else v, live := true }
  else if now then t else { t with live := false }

/-- One queue of a port looks at its head again; a head that its shaper newly holds is counted. -/
def scanQueue (port : Nat) (x : Nat × Bool × EQueue) (m : M) : M :=
  match getQueue m x.1 with
  | none => m
  | some q =>
    let now := headEligible m q x.2.1
    let t := pathTag q x.2.1
    let v := (getClass (getTPort m port) (queueClass m q)).v
    let heldNow := t.live && !now && (match pathHead q x.2.1 with | some p => decide (p.due ≤ m.dev) | none => false)
    let m1 := updQueue x.1 (setPathTag x.2.1 (retag v now t)) m
    if heldNow then countQueue x.1 4 1 m1 else m1

/-- One class of a port looks at its head again; with none eligible its virtual time takes the largest tag served. -/
def scanClass (port c : Nat) (m : M) : M :=
  let p := getTPort m port
  let k := getClass p c
  match classHead m port c with
  | none => setTPort port (setClass c { k with v := if k.v < k.fMax then k.fMax else k.v, tag := { k.tag with live := false } } p) m
  | some x =>
    let len := match pathHead x.2.2 x.2.1 with | some e => e.len | none => 0
    setTPort port (setClass c { k with tag := retag p.v (shaperMay k.sh len) k.tag } p) m

def portScan (port : Nat) (m : M) : M :=
  let m1 := (portQueues m port).foldl (fun x q => scanQueue port q x) m
  (List.range 8).foldl (fun x c => scanClass port c x) m1

/-- The eligible class of least start tag, ties to the lower number. -/
def bestClass (p : TPort) : Option Nat :=
  (List.range 8).foldl (fun a c =>
    if (getClass p c).tag.live then
      match a with
      | none => some c
      | some b => if (getClass p c).tag.s < (getClass p b).tag.s then some c else some b
    else a) none

/-- A port's Ethernet link (Table 06-9). -/
def linkUp (m : M) (port : Nat) : Bool := match tget? m.net.ports port with
  | some p => p.linkUp
  | none => false

/-- Serve one frame: virtual times take its start tags, finish tags follow, tokens are paid, the position moves on. -/
def serveFrame (port c : Nat) (x : Nat × Bool × EQueue) (e : EPkt) (m : M) : M :=
  let p := getTPort m port
  let k := getClass p c
  let t := pathTag x.2.2 x.2.1
  let kf := k.tag.s + e.len * 65536 / k.weight
  let qf := t.s + e.len * 65536 / (getTLeg m x.2.2.leg).weight
  let k1 := { k with tag := { s := kf, f := kf, live := true }, sh := shaperPay k.sh e.len, v := t.s,
                     fMax := if k.fMax < qf then qf else k.fMax }
  let p1 := { setClass c k1 p with v := k.tag.s, fMax := if p.fMax < kf then kf else p.fMax, busy := some (x.1, x.2.1, e) }
  let q1 := setPathSh x.2.1 (shaperPay (pathSh x.2.2 x.2.1) e.len) (setPathTag x.2.1 { s := qf, f := qf, live := true } x.2.2)
  updQueue x.1 (fun _ => { q1 with pkts := passHead x.2.1 true q1.pkts }) (setTPort port p1 m)

/-- An idle port with a link takes the next frame by R309. -/
def portServe (port : Nat) (m : M) : M :=
  if (getTPort m port).busy.isSome || !linkUp m port then m
  else
    let m1 := portScan port m
    let p := getTPort m1 port
    match bestClass p with
    | none => setTPort port { p with v := if p.v < p.fMax then p.fMax else p.v } m1
    | some c =>
      match classHead m1 port c with
      | none => m1
      | some x => match pathHead x.2.2 x.2.1 with
        | none => m1
        | some e => portScan port (serveFrame port c x e m1)

/-- Both ports of a queue. -/
def queueServe (qk : Nat) (m : M) : M :=
  match getQueue m qk with
  | none => m
  | some q =>
    if (match getLeg m q.leg with | some l => l.transport == 2 | none => true) then m
    else
      let m1 := portServe q.lane m
      match q.sec with
      | some s => portServe s m1
      | none => m1

/-- Packets a queue drops (R312): counted; the event at most once per queue per second with the drops of that second. -/
def queueDropped (qk cause : Nat) (l : List EPkt) (m : M) : M :=
  match getQueue m qk with
  | none => m
  | some q =>
    let n := l.length
    let drops := List.replicate n m.vault.mono ++ q.drops.filter fun t => decide (m.vault.mono < t + nsPerS)
    let m1 := countQueue qk (1 + cause) n (updQueue qk (fun x => { x with drops := drops }) m)
    limited { ev := 0x0C02, i := qk, j := 0 } nsPerS
      (raise 0x0C02 3 (legOid q.leg) [.u 2 (legId q.leg), .u 1 cause, .u 4 drops.length])
      (noteOut (.queueDrop (qk / 1536) (qk % 1536) cause (l.map fun e => (e.send, e.seq))) m1)

/-- Note the largest depth since the last read, in KiB (Table 13-9). -/
def noteMax (qk k n : Nat) (m : M) : M :=
  let id : CntId := { reg := .trfMax, i := qk / 1536, j := qk % 1536, k := k }
  if cntGet m id < n then { m with cnt := cntPut m.cnt id (hold 0xFFFF n) } else m

/-- A packet enters a leg's queue (R312): discarded when it would take the queue above max_bytes. -/
def enqueue (qk : Nat) (e : EPkt) (m : M) : M :=
  match getQueue m qk with
  | none => m
  | some q =>
    if (getTLeg m q.leg).maxBytes < queueBytes q + e.len then queueDropped qk 0 [e] m
    else
      let e1 := { e with at_ := m.vault.mono, due := m.dev + commitDelay m }
      let m1 := updQueue qk (fun x => { x with pkts := x.pkts ++ [e1] }) m
      queueServe qk (noteMax qk 1 ((queueBytes q + e.len) / 1024) m1)

/-! ## Frames sent (R296, R305, R309, R314) -/

/-- Remote address and port as the leg gives them or has learned them. -/
def destOf (m : M) (leg : Nat) (l : Leg) : Nat × Nat :=
  let t := getTLeg m leg
  (if l.remoteAddr = 0 then t.learnedAddr else l.remoteAddr, if l.remotePort = 0 then t.learnedPort else l.remotePort)

/-- The last four octets of a leg's remote address, in their order (R9): an IPv6 address has sixteen octets, the first lowest. -/
def addrLow (l : Leg) (a : Nat) : Nat := if bit l.flags 0 then a / 2 ^ 96 % 2 ^ 32 else a % 2 ^ 32

/-- The MAC of a multicast group, first octet lowest: RFC 1112 takes the low 23 bits of an IPv4 group, RFC 2464 the last
four octets of an IPv6 one. -/
def groupMac (l : Leg) (a : Nat) : Nat :=
  if bit l.flags 0 then 0x3333 + addrLow l a * 2 ^ 16
  else 0x5E0001 + a / 2 ^ 8 % 128 * 2 ^ 24 + a / 2 ^ 16 % 2 ^ 16 * 2 ^ 32

/-- The destination address of a packet of a send stream on a path: on the secondary path the stream's alternative one, all
zero meaning the leg's (Table 13-3). -/
def altDest (m : M) (send : Nat) (second : Bool) (l : Leg) : Nat := match second, getSend m send with
  | true, some s => if bit l.flags 0 then s.alt else s.alt % 2 ^ 32
  | _, _ => 0

/-- What a frame of a leg carries ahead of its UDP payload (R296): VLAN tag, or −1 without one, destination and source MAC,
source address and port, destination address (`alt` where it is not zero) and port. -/
def wireHead (m : M) (port leg alt : Nat) (rtcp : Bool) : List Int :=
  match getLeg m leg with
  | none => []
  | some l =>
    let home := destOf m leg l
    let dst := (if alt = 0 then home.1 else alt, home.2)
    let own := match tget? m.net.ports port with
      | some p => (p.mac, if bit l.flags 0 then p.ip6 else p.ip4)
      | none => (0, 0)
    let mac := if bit l.flags 4 then groupMac l dst.1 else (getTPort m port).mac
    let off := b2n (rtcp && !bit l.flags 5)
    [if bit l.flags 1 then (l.vlan : Int) else -1, (mac : Int), (own.1 : Int), (own.2 : Int), ((l.localPort + off : Nat) : Int),
     (dst.1 : Int), ((dst.2 + off : Nat) : Int)]

/-- SSRC and payload type of a send stream (R297). -/
def rtpHead (m : M) (k : Nat) : List Int := match getSend m k with
  | some s => [(s.ssrc : Int), (s.pt : Int)]
  | none => []

/-- The driver of a lane is off (R453). -/
def txOff (m : M) (port : Nat) : Bool := match tget? m.pin.lanes (port / 16 * 8 + port % 16) with
  | some l => l.tx != 0
  | none => false

/-- A frame is driven on a lane: discarded and counted in the lane tests of modes 2 and 3; in mode 1 it goes to the lane's own
receiver alone (kind 8, the frame's own kind first); and nothing leaves where the driver is off (R392, R453). -/
def wireNet (port kind die idx : Nat) (vals : List Int) (m : M) : M :=
  if laneMode m port ≥ 2 then count .laneDropped (port / 16) (port % 16) 0 m
  else if laneMode m port = 1 then emit (.net 8 die idx ((kind : Int) :: vals)) m
  else if txOff m port then m
  else emit (.net kind die idx vals) m

/-! ## Event entries (R323) -/

def eventMax : Nat := 65536

/-- Event entries in use on a die: NACKs and their repeats, retransmission holds, report timers of legs and of their send
streams, PLI intervals. -/
def eventUsed (m : M) (die : Nat) : Nat :=
  ((m.net.streams.filter fun s => keyDie s.1 == die).map fun s => s.2.nacks.length).sum +
  ((m.snd.sends.filter fun s => keyDie s.1 == die).map fun s => s.2.rtx.length).sum +
  ((m.net.legs.filter fun l => keyDie l.1 == die && legCarries l.2 && bit l.2.flags 2).map fun l =>
    1 + (legSends m l.1).length).sum +
  (m.cod.ctxs.filter fun c => keyDie c.1 == die && c.2.pliWait).length

def eventRoom (m : M) (die : Nat) : Bool := decide (eventUsed m die < eventMax)

/-- An event task that finds no free entry is not made. -/
def eventFull (die : Nat) (m : M) : M :=
  let l := m.vault.mono :: (tget m.tsk.notMade die []).filter fun t => decide (m.vault.mono < t + nsPerS)
  limited { ev := 0x0D06, i := die, j := 0 } nsPerS (raise 0x0D06 2 (infraOid die) [.u 4 l.length])
    (noteOut (.notMade die) (count .tskCnt die 0 1 { m with tsk.notMade := tset m.tsk.notMade die l }))

/-- A frame leaves a port on a path: given out, and, where it is the packet's first on any path, counted, logged for R303
and R307, and kept for retransmission (R305). -/
def wireOut (port leg : Nat) (second : Bool) (e : EPkt) (m : M) : M :=
  if laneMode m port ≥ 2 then count .laneDropped (port / 16) (port % 16) 0 m
  else
    let muted := m.pair.mismatch != 0 || m.pair.mutes.any fun u => u.out == e.send
    let m2 := if muted then m else
      wireNet port (if second then 1 else 0) (keyDie e.send) (sendIndex e.send)
        ([(port : Int), (e.seq % 65536 : Nat), (e.ts : Int), (e.udp : Int)] ++ rtpHead m e.send ++ wireHead m port leg (match getLeg m leg with | some l => altDest m e.send second l | none => 0) false) m
    if e.out then m2
    else
      let t := getTLeg m2 leg
      let now := m.vault.mono
      let kind := match getSend m e.send with | some s => s.kind | none => 0
      let wants := match getSend m e.send, getLeg m leg with
        | some s, some l => !e.rtx && (s.kind == 0 || s.kind == 1) && bit l.flags 2 && (getProfile m l.profile).rtx != 0
        | _, _ => false
      let keep := wants && eventRoom m (keyDie leg)
      let t1 := { t with
        sent := if kind = 2 then t.sent else (now, e.udp) :: t.sent.filter fun x => decide (now < x.1 + nsPerS),
        others := if kind = 1 then t.others
          else (now, e.udp) :: t.others.filter fun x => decide (now < x.1 + 500000000) }
      let m3 := setTLeg leg t1 m2
      let m4 := updSend e.send (fun s =>
        { s with sentPkts := s.sentPkts + 1, sentBytes := s.sentBytes + e.udp,
                 rtx := if keep then s.rtx ++ [{ pkt := e, sentAt := m.dev, resent := false }] else s.rtx }) m3
      let m4 := if wants && !keep then eventFull (keyDie leg) m4 else m4
      if e.rtx then m4 else count .netSend (keyDie e.send) (sendIndex e.send) 0 m4

/-- A frame of an egress queue leaves. -/
def frameOut (port qk : Nat) (second : Bool) (e : EPkt) (m : M) : M :=
  match getQueue m qk with
  | none => m
  | some q => wireOut port q.leg second e (countQueue qk 0 1 m)

/-- EGRESS_FRAME_SENT (R310): the frame in service has left; the port serves the next. -/
def egressSent (die lane : Nat) (m : M) : M :=
  let port := die * 16 + lane
  match (getTPort m port).busy with
  | none => portServe port m
  | some (qk, second, e) =>
    portServe port (frameOut port qk second e (setTPort port { getTPort m port with busy := none } m))

def execEgressFrameSent (die lane : Nat) (s : State) : Host.Outcome State Fault Refusal := lift (egressSent die lane) s

/-- Periodic processes of this chapter, by their codes in `ticks`. -/
def tkShaper : Nat := 1
def tkSample : Nat := 0x100

/-- SHAPER_REFILL (R311): every shaper, for the microseconds of device time since the last refill. -/
def shapersRefill (m : M) : M :=
  if !tickOpen m tkShaper 1000 then m
  else
    let us := m.dev / 1000 - tget m.ticks tkShaper 0
    let m1 := tickMark tkShaper 1000 m
    let m2 := { m1 with
      snd.queues := tmap m1.snd.queues fun _ q => { q with shA := shaperRefill us q.shA, shB := shaperRefill us q.shB },
      snd.ports := tmap m1.snd.ports fun _ p => { p with classes := tmap p.classes fun _ c => { c with sh := shaperRefill us c.sh } } }
    ((m2.snd.queues.flatMap fun q => q.2.lane :: q.2.sec.toList).eraseDups).foldl (fun x p => portServe p x) m2

def execShaperRefill (s : State) : Host.Outcome State Fault Refusal := lift shapersRefill s

/-- Discard head packets of a path whose sojourn has reached the limit; answers which. -/
def sojournLoop (limit now : Nat) (second : Bool) : Nat → List EPkt → List EPkt × List EPkt
  | 0, l => (l, [])
  | n + 1, l =>
    match l.find? fun p => if second then p.b else p.a with
    | some p =>
      if p.at_ + limit ≤ now then
        let r := sojournLoop limit now second n (passHead second false l)
        (r.1, p :: r.2)
      else (l, [])
    | none => (l, [])

/-- Packets the leading part discarded (R404): those that stand here too, on the path of the cause, are discarded; an
admission drop is of the packet behind which the leader's queue was full. -/
def replayDrops (qk cause : Nat) (l : List (Nat × Nat)) (m : M) : M :=
  match getQueue m qk with
  | none => m
  | some q =>
    let mine (p : EPkt) : Bool := l.contains (p.send, p.seq) && (cause == 0 || if cause = 2 then p.b else p.a)
    let pass (p : EPkt) : EPkt :=
      if !mine p then p else if cause = 0 then { p with a := false, b := false } else if cause = 2 then { p with b := false } else { p with a := false }
    if q.pkts.any mine then
      queueDropped qk cause (q.pkts.filter mine) (updQueue qk (fun x => { x with pkts := (x.pkts.map pass).filter fun p => p.a || p.b }) m)
    else m

/-- SOJOURN_LIMIT (R312), on each path of a queue. -/
def sojournPath (qk : Nat) (second : Bool) (m : M) : M :=
  match getQueue m qk with
  | none => m
  | some q =>
    let r := sojournLoop ((getTLeg m q.leg).maxSoj * 1000000) m.vault.mono second q.pkts.length q.pkts
    if r.2.isEmpty then m
    else queueDropped qk (if second then 2 else 1) r.2 (updQueue qk (fun x => { x with pkts := r.1 }) m)

def sojournLimit (die queue : Nat) (m : M) : M :=
  let qk := queueKey die queue
  queueServe qk (sojournPath qk true (sojournPath qk false m))

def execSojournLimit (die queue : Nat) (s : State) : Host.Outcome State Fault Refusal := lift (sojournLimit die queue) s

/-! ## Latency observation (R315) -/

/-- Bin of a value by a base: bin 0 below it, then doubling, bin 15 open. -/
def histBin (base n : Nat) : Nat := ((List.range 15).find? fun b => decide (n < base * 2 ^ b)).getD 15

def sampleUs (m : M) (die : Nat) : Nat := tget m.snd.sample die 1000

/-- Sojourn of the head on the primary path in µs, 0 when it is empty. -/
def headSojourn (m : M) (q : EQueue) : Nat := match pathHead q false with
  | some p => (m.vault.mono - p.at_) / 1000
  | none => 0

def sampleQueue (qk : Nat) (q : EQueue) (m : M) : M :=
  let s := headSojourn m q
  let h (k : Nat) : CntId := { reg := .trfHist, i := qk / 1536, j := qk % 1536, k := k }
  noteMax qk 0 (s / 16) (cntAdd (h (16 + histBin 1024 (queueBytes q))) 1 (cntAdd (h (histBin 16 s)) 1 m))

def latencyTick (die : Nat) (m : M) : M :=
  if !dieRun m die || !tickOpen m (tkSample + die) (sampleUs m die * 1000) then m
  else (m.snd.queues.filter fun q => q.1 / 1536 == die).foldl (fun x q => sampleQueue q.1 q.2 x)
    (tickMark (tkSample + die) (sampleUs m die * 1000) m)

def execLatencySampleTick (die : Nat) (s : State) : Host.Outcome State Fault Refusal := lift (latencyTick die) s

/-! ## Allocation (R127, R315) -/

/-- A function's first queue number and its count on a die: grants are laid out in function order. -/
def egressRange (m : M) (die fn : Nat) : Nat × Nat :=
  (((List.range fn).map fun f => imgEgress (img m) die f).sum, imgEgress (img m) die fn)

/-- The lowest free queue of a function's grant on a die. -/
def freeQueue (m : M) (die fn : Nat) : Option Nat :=
  let r := egressRange m die fn
  ((List.range r.2).map (r.1 + ·)).find? fun q => (getQueue m (queueKey die q)).isNone

/-- Histograms and largest values of a queue start at zero when it is allocated. -/
def clearQueueHist (qk : Nat) (m : M) : M :=
  { m with cnt := m.cnt.filter fun p =>
      !((p.1.reg == .trfHist || p.1.reg == .trfMax) && p.1.i == qk / 1536 && p.1.j == qk % 1536) }

/-- Allocate a queue to a leg, its settings as the leg holds them. -/
def allocQueue (qk leg : Nat) (l : Leg) (m : M) : M :=
  let t := getTLeg m leg
  let sh := if t.kbps = 0 then shaperNone else shaperFull t.kbps t.burst
  let q : EQueue :=
    { leg := leg, lane := l.port, sec := if l.transport = 0 && l.secondary ≠ 0xFF then some l.secondary else none, pkts := [],
      shA := sh, shB := sh, tagA := tagReset, tagB := tagReset, drops := [] }
  clearQueueHist qk { m with snd.queues := tset m.snd.queues qk q }

/-- No die has this queue: a frame in service whose queue is gone belongs to it, and leaves no byte. -/
def noQueue : Nat := 8 * 1536

/-- A frame in service takes another queue's number, and another packet. -/
def busyRekey (old new : Nat) (f : EPkt → EPkt) (m : M) : M :=
  { m with snd.ports := tmap m.snd.ports fun _ p =>
      { p with busy := p.busy.map fun b => if b.1 = old then (new, b.2.1, f b.2.2) else b } }

/-- The frames of a queue that ports have in service. -/
def inFlight (m : M) (qk : Nat) : List EPkt :=
  (m.snd.ports.filterMap fun p => p.2.busy).filterMap fun b => if b.1 = qk then some b.2.2 else none

def freeQueueOf (qk : Nat) (m : M) : M := busyRekey qk noQueue id { m with snd.queues := tdel m.snd.queues qk }

/-- The queue of a leg. -/
def legQueueKey (leg : Nat) (l : Leg) : Option Nat := l.queue.map fun q => queueKey (keyDie leg) q

/-! ## Commands (Table 13-7) -/

def dieObj (d : Desc) (m : M) : Bool := oidOk m 3 false (oid d) && decide (1 ≤ oidDie (oid d))

/-- Line rate of an Ethernet personality in Mbit/s. -/
def lineRate (pers : Nat) : Nat := if pers = 1 then 10000 else if pers = 2 then 25000 else 100000

/-- Capacity of a port in Mbit/s. -/
def portRate (m : M) (port : Nat) : Nat :=
  let r := (getTPort m port).rate
  if r = 0 then lineRate (lanePers (img m) (port / 16) (port % 16)) else r

def trfPort (d : Desc) : Nat := oidDie (oid d) * 16 + pay d 0 1

/-- The lane byte names an Ethernet port of the die. -/
def laneOk (d : Desc) (m : M) : Bool := decide (pay d 0 1 < 8) && ethPort m (trfPort d)

def trfPortSetSpec : CmdSpec :=
  { baseSpec 0x0C01 permMedia with
    when := netWhen
    mask := mb 0 1 ||| mb 4 10
    obj := dieObj
    fields := fun d m => firstBad
      [(!laneOk d m, off 0),
       (decide (lineRate (lanePers (img m) (oidDie (oid d)) (pay d 0 1)) < pay d 4 4), off 4)]
    late := fun d m => dieLate m false (oid d)
    apply := fun d m =>
      (setTPort (trfPort d) { getTPort m (trfPort d) with rate := pay d 4 4, mac := pay d 8 6 } m, okReply 0xFF) }

def execTrfPortSet (d : Desc) (s : State) : Host.Outcome State Fault Refusal := lift (hostRow trfPortSetSpec d) s

/-- Shaper fields of a command: none, or rate and burst within R311. -/
def shaperBad (d : Desc) (o : Nat) : Option Nat :=
  if pay d o 4 = 0 then none
  else firstBad
    [(!(decide (64 ≤ pay d o 4) && decide (pay d o 4 ≤ 100000000)), off o),
     (!(decide (1538 ≤ pay d (o + 4) 4) && decide (pay d (o + 4) 4 ≤ 16777216)), off (o + 4))]

def weightBad (d : Desc) : Bool := !(decide (1 ≤ pay d 2 2) && decide (pay d 2 2 ≤ 4096))

def applyClassSet (d : Desc) (m0 : M) : M :=
  let m := shapersRefill m0
  let p := getTPort m (trfPort d)
  let c := getClass p (pay d 1 1)
  setTPort (trfPort d)
    (setClass (pay d 1 1) { c with weight := pay d 2 2, sh := { c.sh with next := some (pay d 4 4, pay d 8 4) } } p) m

def trfClassSetSpec : CmdSpec :=
  { baseSpec 0x0C02 permMedia with
    when := netWhen
    mask := mb 0 12
    obj := dieObj
    fields := fun d m =>
      match firstBad [(!laneOk d m, off 0), (decide (7 < pay d 1 1), off 1), (weightBad d, off 2)] with
      | some x => some x
      | none => shaperBad d 4
    late := fun d m => dieLate m false (oid d)
    apply := fun d m => (applyClassSet d m, okReply 0xFF) }

def execTrfClassSet (d : Desc) (s : State) : Host.Outcome State Fault Refusal := lift (hostRow trfClassSetSpec d) s

def legObj (d : Desc) (m : M) : Bool := oidOk m 9 false (oid d)
def legOfD (d : Desc) : Nat := oidKey (oid d)
def legState (d : Desc) (m : M) : Nat := match getLeg m (legOfD d) with
  | some l => l.state
  | none => 0

/-- Settings of a leg's queue: held with the leg, and on an allocated queue from the next refill, the steps up to now having
run at the old ones. -/
def applyQueueSet (d : Desc) (m0 : M) : M :=
  let m := shapersRefill m0
  let k := legOfD d
  let t := getTLeg m k
  let m1 := setTLeg k { t with cls := pay d 0 1, weight := pay d 2 2, kbps := pay d 4 4, burst := pay d 8 4,
                               maxBytes := pay d 12 4, maxSoj := pay d 16 2 } m
  match getLeg m k with
  | none => m1
  | some l => match legQueueKey k l with
    | none => m1
    | some qk => updQueue qk (fun q =>
        { q with shA := { q.shA with next := some (pay d 4 4, pay d 8 4) }, shB := { q.shB with next := some (pay d 4 4, pay d 8 4) },
                 tagA := if pay d 0 1 = t.cls then q.tagA else tagReset,
                 tagB := if pay d 0 1 = t.cls then q.tagB else tagReset }) m1

def trfQueueSetSpec : CmdSpec :=
  { baseSpec 0x0C03 permMedia with
    when := netWhen
    mask := mb 0 1 ||| mb 2 16
    obj := legObj
    fields := fun d _ =>
      match firstBad [(decide (7 < pay d 0 1), off 0), (weightBad d, off 2)] with
      | some x => some x
      | none => match shaperBad d 4 with
        | some x => some x
        | none => firstBad
          [(!(decide (16384 ≤ pay d 12 4) && decide (pay d 12 4 ≤ 16777216)), off 12),
           (!(decide (1 ≤ pay d 16 2) && decide (pay d 16 2 ≤ 1000)), off 16)]
    late := fun d m => match dieLate m false (oid d) with
      | some f => some f
      | none => firstFail [(legState d m == 0 || legState d m == 4, stConflict, 0)]
    ostate := legState
    apply := fun d m => (applyQueueSet d m, okReply (legState d m)) }

def execTrfQueueSet (d : Desc) (s : State) : Host.Outcome State Fault Refusal := lift (hostRow trfQueueSetSpec d) s

/-- A field of TRF_PROFILE_SET, 0 taking the default. -/
def orDef (n dflt : Nat) : Nat := if n = 0 then dflt else n

def profileOf (d : Desc) : Profile :=
  let r := profileReset
  { headroom := orDef (pay d 2 2) r.headroom, start := orDef (pay d 4 4) r.start, min := orDef (pay d 8 4) r.min,
    max := orDef (pay d 12 4) r.max, lossHi := orDef (pay d 16 1) r.lossHi, lossLo := pay d 17 1,
    gradHi := orDef (pay d 18 2) r.gradHi, gradLo := orDef (pay d 20 2) r.gradLo, backoff := orDef (pay d 22 2) r.backoff,
    inc := orDef (pay d 24 2) r.inc, upWait := orDef (pay d 26 2) r.upWait, rtx := pay d 28 2 }

def profileBad (d : Desc) : Option Nat :=
  let p := profileOf d
  let out (lo hi n : Nat) : Bool := decide (n < lo) || decide (hi < n)
  firstBad
    [(out 500 1000 p.headroom, off 2), (out 64 25000000 p.start, off 4), (out 64 p.start p.min, off 8),
     (out p.start 25000000 p.max, off 12), (decide (p.lossHi ≤ p.lossLo), off 17), (out 100 60000 p.gradHi, off 18),
     (decide (p.gradHi < p.gradLo), off 20), (out 500 990 p.backoff, off 22), (out 10 500 p.inc, off 24),
     (out 100 10000 p.upWait, off 26), (decide (500 < p.rtx), off 28)]

/-- The part's infrastructure object. -/
def trfProfileSetSpec : CmdSpec :=
  { baseSpec 0x0C04 permMedia with
    when := netWhen
    mask := mb 0 1 ||| mb 2 28
    obj := partObj
    fields := fun d _ => profileBad d
    apply := fun d m => ({ m with snd.profiles := tset m.snd.profiles (pay d 0 1) (profileOf d) }, okReply 0xFF) }

def execTrfProfileSet (d : Desc) (s : State) : Host.Outcome State Fault Refusal := lift (hostRow trfProfileSetSpec d) s

def trfLineSetSpec : CmdSpec :=
  { baseSpec 0x0C05 permMedia with
    when := netWhen
    mask := mb 0 1 ||| mb 4 4
    obj := legObj
    fields := fun d _ => firstBad
      [(decide (2 < pay d 0 1), off 0),
       (!(decide (64 ≤ pay d 4 4) && decide (pay d 4 4 ≤ 25000000)), off 4)]
    late := fun d m => match dieLate m false (oid d) with
      | some f => some f
      | none => firstFail [(legState d m == 0, stConflict, 0)]
    ostate := legState
    apply := fun d m =>
      (setTLeg (legOfD d) { getTLeg m (legOfD d) with mode := pay d 0 1, value := pay d 4 4 } m, okReply (legState d m)) }

def execTrfLineSet (d : Desc) (s : State) : Host.Outcome State Fault Refusal := lift (hostRow trfLineSetSpec d) s

def trfSampleSetSpec : CmdSpec :=
  { baseSpec 0x0C06 permMedia with
    when := netWhen
    mask := mb 0 4
    obj := dieObj
    fields := fun d _ => firstBad [(!(decide (125 ≤ pay d 0 4) && decide (pay d 0 4 ≤ 100000)), off 0)]
    late := fun d m => dieLate m false (oid d)
    apply := fun d m => ({ m with snd.sample := tset m.snd.sample (oidDie (oid d)) (pay d 0 4) }, okReply 0xFF) }

def execTrfSampleSet (d : Desc) (s : State) : Host.Outcome State Fault Refusal := lift (hostRow trfSampleSetSpec d) s

end Sys2Proof.Machine
end

