-- ==== Sys2Proof/Machine/Task.lean ====
section
/-!
DEFINITION. The task schedulers and the hub's arbiters (chapter 14): ordered flows and their reorder tokens, parked tasks,
event entries, deficit round robin, and the commands TSK_ARB_SET and TSK_PRIO_SET.
-/
namespace Sys2Proof.Machine

/-! ## Ordered flows (R325 to R327) -/

def flowKey (die f : Nat) : Nat := die * 4096 + f
def flowReset : OFlow := { next := 0, items := [], beyond := [] }
def getFlow (m : M) (die f : Nat) : OFlow := tget m.tsk.flows (flowKey die f) flowReset
def setFlow (die f : Nat) (x : OFlow) (m : M) : M := { m with tsk.flows := tset m.tsk.flows (flowKey die f) x }

/-- A flow holds at most 256 outstanding tokens. -/
def tokensMax : Nat := 256

/-- An item enters its flow: it takes the next token, or is passed over until one frees. -/
def flowPut (i : FItem) (now : Nat) (f : OFlow) : OFlow :=
  if tokensMax ≤ f.items.length then { f with beyond := f.beyond ++ [i] }
  else
    { f with next := (f.next + 1) % 65536,
             items := f.items ++ [{ i with token := f.next, low := if f.items.isEmpty then some now else none }] }

def newItem (body : FBody) : FItem := { token := 0, st := 0, low := none, op := none, body := body }

/-- Items at the head that are complete or void, in token order, and what stays. -/
def flowSplit : List FItem → List FItem × List FItem
  | [] => ([], [])
  | i :: r => if i.st = 0 then ([], i :: r) else let s := flowSplit r; (i :: s.1, s.2)

/-- Hand on what is complete: the bodies of completed items in token order; void ones leave nothing. -/
def flowHand (now : Nat) (f : OFlow) : OFlow × List FBody :=
  let s := flowSplit f.items
  let rest := match s.2 with
    | i :: r => if i.low.isSome then i :: r else { i with low := some now } :: r
    | [] => []
  ({ f with items := rest }, (s.1.filter fun i => i.st == 1).map FItem.body)

/-- Mark the items a test selects, unless they are marked already. -/
def flowMark (p : FItem → Bool) (st : Nat) (f : OFlow) : OFlow :=
  { f with items := f.items.map fun i => if p i && i.st == 0 then { i with st := st } else i }

/-- Egress flow `q` of a die hands its packets to its queue. -/
def egressSettle (die q : Nat) (m : M) : M :=
  let r := flowHand m.dev (getFlow m die q)
  r.2.foldl (fun x b => match b with
    | .pkt e => enqueue (queueKey die q) e x
    | _ => x) (setFlow die q r.1 m)

/-- The flow of a die whose item a cipher operation works on. -/
def flowOfOp (m : M) (die id : Nat) : Option Nat :=
  (m.tsk.flows.find? fun f => f.1 / 4096 == die && f.2.items.any fun i => i.op == some id).map fun f => f.1 % 4096

/-- An aborted item voids its token, so that it holds up nothing (R326). -/
def voidOp (die id : Nat) (m : M) : M :=
  match flowOfOp m die id with
  | none => m
  | some f => egressSettle die f (setFlow die f (flowMark (fun i => i.op == some id) 2 (getFlow m die f)) m)

/-- Window number of a die (R43). -/
def dieWin (m : M) (die : Nat) : Nat := m.dev / dieWindow (img m) die

/-- REORDER_TIMEOUT (R327): an item that has held the lowest token for 1 ms of device time is voided. -/
def reorderVoid (die f : Nat) (m : M) : Option M :=
  match (getFlow m die f).items with
  | i :: r =>
    if i.st = 0 && (match i.low with | some t => decide (t + 1000000 ≤ m.dev) | none => false) then
      let m1 := setFlow die f { getFlow m die f with items := { i with st := 2 } :: r } m
      let m2 := noteOut (.void die f i.token) (count .tskCnt die 0 0 m1)
      some (limited { ev := 0x0D05, i := flowKey die f, j := 0 } nsPerS
        (raise 0x0D05 2 (infraOid die) [.u 2 f, .u 2 i.token, .u 4 (dieWin m die % 2 ^ 32)]) m2)
    else none
  | [] => none

/-! ## Parked tasks (R323) -/

/-- A parked timed command comes within the horizon: it moves onto the delay list. -/
def parkedDue (m : M) : M :=
  let near (t : Nat × Nat × Nat) : Bool :=
    match m.pend.find? fun p => p.order == t.2.2 with
    | some p => decide (p.due ≤ m.dev + horizonNs)
    | none => true
  { m with tsk.parked := m.tsk.parked.filter fun t => !near t }

def execParkedTaskDue (s : State) : Host.Outcome State Fault Refusal := lift parkedDue s

/-! ## The hub's arbiters (R330 to R332) -/

def arbDieReset : ArbDie := { n := 0, deficit := 0, last := 0xFFFF, log := [] }
def arbReset : Arb := { dieEqual := false, dies := [] }

/-- Quantum of a resource (Table 14-5). -/
def arbQuantum (r : Nat) : Nat := if r < 4 then 1 else 4

/-- Cost of a request in the resource's service units: 64 bytes of a transfer, rounded up, or one. -/
def arbCost (r bytes : Nat) : Nat := if r < 4 || bytes = 0 then 1 else cdiv bytes 64

/-- The lower arbiter's next requester: round robin in ascending unit code after the last one served. -/
def lowerNext (last : Nat) (us : List (Nat × List Nat)) : Option (Nat × Nat) :=
  let ready := us.filter fun u => !u.2.isEmpty
  let least (l : List (Nat × List Nat)) : Option (Nat × List Nat) :=
    l.foldl (fun a u => match a with
      | none => some u
      | some b => if u.1 < b.1 then some u else some b) none
  let pick := match least (ready.filter fun u => decide (last < u.1)) with
    | some u => some u
    | none => least ready
  pick.map fun u => (u.1, u.2.headD 0)

/-- Drop the request a unit was served. -/
def lowerPop (unit : Nat) (us : List (Nat × List Nat)) : List (Nat × List Nat) :=
  us.map fun u => if u.1 = unit then (u.1, u.2.drop 1) else u

/-- What a visit to a die leaves: deficit, last unit, requests, served (unit, cost) in order. -/
structure ArbRun where
  deficit : Nat
  last : Nat
  units : List (Nat × List Nat)
  served : List (Nat × Nat)
deriving DecidableEq, Repr

/-- Serve while the head request fits the deficit. -/
def arbServe : Nat → ArbRun → ArbRun
  | 0, a => a
  | n + 1, a =>
    match lowerNext a.last a.units with
    | none => { a with deficit := 0 }
    | some (u, c) =>
      if a.deficit < c then a
      else arbServe n { deficit := a.deficit - c, last := u, units := lowerPop u a.units, served := a.served ++ [(u, c)] }

/-- Requests of a die, in all. -/
def arbCount (us : List (Nat × List Nat)) : Nat := (us.map fun u => u.2.length).sum

/-- The visit of one die in a round. -/
def arbVisit (r : Nat) (q : ArbReq) (m : M) : M :=
  let a := tget m.tsk.arbs r arbReset
  let x := tget a.dies q.die arbDieReset
  let n := (q.units.filter fun u => !u.2.isEmpty).length
  if n = 0 || decide (m.part.media < q.die) then
    { m with tsk.arbs := tset m.tsk.arbs r { a with dies := tset a.dies q.die { x with deficit := 0 } } }
  else
    let w := if a.dieEqual then 1 else n
    let run := arbServe (arbCount q.units + 1)
      { deficit := x.deficit + arbQuantum r * w, last := x.last, units := q.units.map fun u => (u.1, u.2.map (arbCost r)),
        served := [] }
    let units := (run.served.map Prod.snd).sum
    let x1 := { n := n, deficit := run.deficit, last := run.last,
                log := (m.vault.mono, units) :: x.log.filter fun e => decide (m.vault.mono < e.1 + 1000000) }
    let m1 := { m with tsk.arbs := tset m.tsk.arbs r { a with dies := tset a.dies q.die x1 } }
    run.served.foldl (fun y s => emit (.net 20 q.die r [s.1, s.2]) y) m1

/-- ARBITER_ROUND (R331): a round over the dies in ascending order; a new mode begins with deficits of zero (R332). -/
def arbRound (r : Nat) (reqs : List ArbReq) (m : M) : M :=
  if r > 10 || (4 ≤ r && decide (m.part.media < r - 3)) then m
  else
    let a := tget m.tsk.arbs r { arbReset with dieEqual := m.tsk.dieEqual }
    let a1 := if a.dieEqual = m.tsk.dieEqual then a
      else { dieEqual := m.tsk.dieEqual, dies := tmap a.dies fun _ x => { x with deficit := 0 } }
    let m1 := { m with tsk.arbs := tset m.tsk.arbs r a1 }
    (List.range 8).foldl (fun x d => arbVisit r ((reqs.find? fun q => q.die == d).getD { die := d, units := [] }) x) m1

def execArbiterRound (r : Nat) (reqs : List ArbReq) (s : State) : Host.Outcome State Fault Refusal := lift (arbRound r reqs) s

/-! ## Commands (Table 14-6) -/

def tskArbSetSpec : CmdSpec :=
  { baseSpec 0x0D01 permService with
    mask := mb 0 1
    obj := partObj
    fields := fun d _ => firstBad [(decide (1 < pay d 0 1), off 0)]
    plainNow := fun _ m => same (b2n m.tsk.dieEqual)
    apply := fun d m =>
      ({ m with tsk.dieEqual := pay d 0 1 == 1 },
       .done { reply stOK 0 0xFF with plain := some (b2n m.tsk.dieEqual, pay d 0 1) }) }

def execTskArbSet (d : Desc) (s : State) : Host.Outcome State Fault Refusal := lift (hostRow tskArbSetSpec d) s

/-- A stream of either direction: its state and level. -/
def streamSt (m : M) (k : Nat) : Nat :=
  if keyIdx k < 4096 then match tget? m.net.streams k with | some s => s.state | none => 0
  else match getSend m k with | some s => s.state | none => 0

def streamLevel (m : M) (k : Nat) : Nat :=
  if keyIdx k < 4096 then match tget? m.net.streams k with | some s => s.level | none => 0
  else match getSend m k with | some s => s.level | none => 0

def setLevel (k l : Nat) (m : M) : M :=
  { m with net.streams := tupd m.net.streams k fun s => { s with level := l },
           snd.sends := tupd m.snd.sends k fun s => { s with level := l } }

def streamObj (d : Desc) (m : M) : Bool := oidOk m 0xA false (oid d)

def tskPrioSetSpec : CmdSpec :=
  { baseSpec 0x0D02 permMedia with
    mask := mb 0 1
    obj := streamObj
    fields := fun d _ => firstBad [(pay d 0 1 == 0 || decide (15 < pay d 0 1), off 0)]
    late := fun d m => match dieLate m false (oid d) with
      | some f => some f
      | none => firstFail [(streamSt m (oidKey (oid d)) == 0, stConflict, 0)]
    when := fun _ _ => some hubWindow
    ostate := fun d m => streamSt m (oidKey (oid d))
    plainNow := fun d m => same (streamLevel m (oidKey (oid d)))
    apply := fun d m =>
      (setLevel (oidKey (oid d)) (pay d 0 1) m,
       .done { reply stOK 0 (streamSt m (oidKey (oid d))) with
                 plain := some (streamLevel m (oidKey (oid d)), pay d 0 1) }) }

def execTskPrioSet (d : Desc) (s : State) : Host.Outcome State Fault Refusal := lift (hostRow tskPrioSetSpec d) s

end Sys2Proof.Machine
end

