-- ==== Sys2Proof/Machine/Key.lean ====
section
/-!
DEFINITION. The key store and the cipher fabric (chapter 07): slots and generations, the die caches, operations,
retraction, authentication thresholds, erasure.
-/
namespace Sys2Proof.Machine

def keyUnit : Nat := 5
def keyOid (slot : Nat) : Nat := mkOid 6 0 slot

/-! ## Slots and generations (R151 to R153) -/

def slotEmpty : KeySlot := { counter := 0, cur := none, prev := none, old := [], erasedAt := none }

def getSlot (m : M) (i : Nat) : KeySlot := tget m.key.slots i slotEmpty

def setSlot (i : Nat) (k : KeySlot) (m : M) : M := { m with key.slots := tset m.key.slots i k }

/-- State of Table 07-3: 0 EMPTY, 1 LOADED, 2 CLEARING. -/
def slotCode (k : KeySlot) : Nat :=
  if k.cur.isSome then 1 else if k.prev.isSome || !k.old.isEmpty then 2 else 0

/-- Current generation, 0 while the slot has none (Table 07-8). -/
def slotGen (k : KeySlot) : Nat := match k.cur with
  | some g => g.gen
  | none => 0

/-- Operations bound to a generation. -/
def bound (m : M) (slot gen : Nat) : Nat := (m.key.ops.filter fun o => o.slot == slot && o.gen == gen).length

/-- A generation leaves hub and die caches: EV_KEY_RETIRED, journalled (R152). -/
def retire (slot gen : Nat) (m : M) : M :=
  announce keyUnit 0x0702 4 (keyOid slot) [.u 2 slot, .u 2 gen] 0
    { m with key.cache := tmap m.key.cache fun _ l => l.filter fun e => e != (slot, gen) }

/-- Generations no longer current nor in grace whose binding count is zero are destroyed. -/
def sweepSlot (slot : Nat) (m : M) : M :=
  let k := getSlot m slot
  let gone := k.old.filter fun g => bound m slot g.gen == 0
  let m1 := setSlot slot { k with old := k.old.filter fun g => bound m slot g.gen != 0 } m
  gone.foldl (fun x g => retire slot g.gen x) m1

/-- The next generation number: 1 to 65,535, never 0. -/
def nextGen (n : Nat) : Nat := if n = 65535 then 1 else n + 1

/-- What a KEY_WRITE buffer spells (Table 07-7). -/
def bufGen (d : Desc) (gen : Nat) : KeyGen :=
  { gen := gen, profile := bufByte d 0, mode := bufByte d 1, tagLen := bufByte d 2, halves := bufByte d 3,
    rx := BitVec.ofNat 640 (bufN d 16 80), tx := BitVec.ofNat 640 (bufN d 96 80) }

/-- The slot after a KEY_WRITE at its boundary: a new generation, and a grace for the one it replaces. -/
def slotWrite (d : Desc) (now : Nat) (k : KeySlot) : KeySlot :=
  let g := nextGen k.counter
  let grace := bufN d 4 2
  let ended := match k.prev with
    | some p => [p.1]
    | none => []
  match k.cur with
  | none => { k with counter := g, cur := some (bufGen d g), prev := none, old := k.old ++ ended }
  | some c =>
    if grace = 0 then { k with counter := g, cur := some (bufGen d g), prev := none, old := k.old ++ ended ++ [c] }
    else
      { k with counter := g, cur := some (bufGen d g), prev := some (c, now + grace * 1000000), old := k.old ++ ended }

/-- Legs that reference a slot (Table 07-8). -/
def slotRefs (m : M) (slot : Nat) : List (Nat × Leg) :=
  m.net.legs.filter fun l => l.2.transport == 0 && l.2.keySlot == slot

/-- Referencing legs that are ARMED, LIVE or DRAINING. -/
def slotUsers (m : M) (slot : Nat) : List (Nat × Leg) := (slotRefs m slot).filter fun l => decide (2 ≤ l.2.state)

/-! ## The die caches (R154) -/

def cacheMax : Nat := 2048

/-- Generations of a slot that a referencing leg or a grace makes required. -/
def slotRequired (k : KeySlot) : List Nat :=
  (match k.cur with | some g => [g.gen] | none => []) ++ (match k.prev with | some p => [p.1.gen] | none => [])

/-- The required entries of a die (R154): current generations that a leg of the die references, those of its cache and of its
legs that a grace holds, and those that an operation binds. -/
def required154 (m : M) (die : Nat) : List (Nat × Nat) :=
  let legs := m.net.legs.filter fun l => keyDie l.1 == die && decide (2 ≤ l.2.state) && decide (l.2.keySlot < 16384)
  let byLegs := (legs.map fun l => l.2.keySlot).eraseDups.flatMap fun s => (slotRequired (getSlot m s)).map fun g => (s, g)
  let byOps := (m.key.ops.filter fun o => o.die == die && o.gen != 0).map fun o => (o.slot, o.gen)
  let byGrace := (tget m.key.cache die []).filter fun e => match (getSlot m e.1).prev with
    | some p => p.1.gen == e.2
    | none => false
  (byLegs ++ byGrace ++ byOps).eraseDups

/-- A die whose required count exceeds its cache. -/
def cacheOver (m : M) : Option Nat := (mediaDies m).find? fun d => decide (cacheMax < (required154 m d).length)

/-- Load an entry, evicting the least recently used entry that is not required when the cache is full. -/
def cacheLoad (die slot gen : Nat) (m : M) : M :=
  let l := tget m.key.cache die []
  let req := required154 m die
  let kept := l.filter fun e => e != (slot, gen)
  let room := if kept.length < cacheMax then kept
    else match kept.find? fun e => !req.contains e with
      | some v => kept.erase v
      | none => kept
  { m with key.cache := tset m.key.cache die (room ++ [(slot, gen)]) }

def cached (m : M) (die slot gen : Nat) : Bool := (tget m.key.cache die []).contains (slot, gen)

/-! ## Rates of the fabric (R148, R150) -/

/-- A die's fabric is unrolled: DIE_UNITS code 1, or code 0 on a part whose default is unrolled (Table 00-2). -/
def unrolled (m : M) (die : Nat) : Bool :=
  let c := (imgUnits (img m) die).2.2.2.2.2
  c == 1 || (c == 0 && m.part.media != 7)

/-- Key length 256 and mode of a generation: 0 CBC, 1 CTR, 2 CFB, 3 OFB, 4 GCM. -/
def gen256 (g : KeyGen) : Bool := g.profile == 3 || (g.profile == 4 && bit g.mode 3)
def genMode (g : KeyGen) : Nat := if g.profile = 4 then bits g.mode 0 3 else if g.profile < 2 then 1 else 4

/-- Chained modes: OFB in both directions, CBC and CFB-128 on send. -/
def chained (g : KeyGen) (send : Bool) : Bool :=
  genMode g == 3 || (send && (genMode g == 0 || genMode g == 2))

/-- Per-stream rate in kbit/s of Table 07-2. -/
def streamRate (m : M) (die : Nat) (g : KeyGen) (send : Bool) : Nat :=
  if unrolled m die && !chained g send then 204800000 else if gen256 g then 14630000 else 20480000

/-- The limit of R150 for a slot: an empty one takes 20,480,000 kbit/s. -/
def rateLimit150 (m : M) (die slot : Nat) (send : Bool) : Nat :=
  match (getSlot m slot).cur with
  | some g => streamRate m die g send
  | none => 20480000

/-- SRTP legs: flag [3]. -/
def legSrtp (l : Leg) : Bool := bit l.flags 3

def legStreams (m : M) (leg : Nat) : List (Nat × Strm) :=
  m.net.streams.filter fun s => keyDie s.1 == keyDie leg && keyIdx s.1 / 4 == keyIdx leg

/-! ## Service of the fabric (R149) -/

/-- The generation an operation is bound to. -/
def opGen (m : M) (o : CipOp) : Option KeyGen :=
  let k := getSlot m o.slot
  (k.cur.toList ++ (k.prev.map Prod.fst).toList ++ k.old).find? fun g => g.gen == o.gen

def opChained (m : M) (o : CipOp) : Bool := match opGen m o with
  | some g => chained g (!o.rx)
  | none => false

def opsOn (m : M) (die : Nat) : List CipOp := m.key.ops.filter fun o => o.die == die

/-- The pipeline of an unrolled fabric with the fewest blocks waiting, the lowest of equals. -/
def leastPipe (m : M) (die : Nat) : Nat :=
  let load (u : Nat) : Nat := (((opsOn m die).filter fun o => o.st != 2 && o.pipe == u).map CipOp.blocks).sum
  (List.range 4).foldl (fun a u => if load u < load a then u else a) 0

/-- An operation may be served: in an unrolled fabric on an idle pipeline, or, chained, beside at most 13 other chained ones;
in an iterated one on a free unit of 56, when no packet of its stream is in service and none of a lower number waits. -/
def mayServe (m : M) (o : CipOp) : Bool :=
  let busy := (opsOn m o.die).filter fun p => p.st == 1
  o.st == 0 && !o.waiting &&
  (if unrolled m o.die then
     let here := busy.filter fun p => p.pipe == o.pipe
     here.isEmpty || (opChained m o && decide (here.length < 14) && here.all (opChained m))
   else decide (busy.length < 56) && !(opsOn m o.die).any fun p =>
     p.stream == o.stream && (p.st == 1 || (p.st == 0 && p.report.isNone && o.report.isNone && decide (p.seq < o.seq))))

/-- The operation served next: of the highest priority level (R321), the oldest. -/
def nextServed (m : M) (die : Nat) : Option CipOp :=
  ((opsOn m die).filter (mayServe m)).foldl (fun a o => match a with
    | none => some o
    | some b => if o.level < b.level then some o else some b) none

def fabricServe (die : Nat) : Nat → M → M
  | 0, m => m
  | n + 1, m => match nextServed m die with
    | none => m
    | some o => fabricServe die n { m with key.ops := m.key.ops.map fun p => if p.id = o.id then { p with st := 1 } else p }

/-- A die's fabric takes into service what it can. -/
def serveDie (die : Nat) (m : M) : M := fabricServe die (opsOn m die).length m

/-- The cipher work of an operation is done: its pipeline or unit is free. -/
def opDone (o : CipOp) (m : M) : M :=
  serveDie o.die { m with key.ops := m.key.ops.map fun p => if p.id = o.id then { p with st := 2 } else p }

/-- A wrapped generation that the die needs reaches it; operations that waited for it go on (R154). -/
def keyCacheLoaded (die slot gen : Nat) (m : M) : M :=
  if !(required154 m die).contains (slot, gen) then m
  else
    let m1 := cacheLoad die slot gen m
    serveDie die { m1 with key.ops := m1.key.ops.map fun o =>
      if o.die == die && o.slot == slot && o.gen == gen then { o with waiting := false } else o }

def execKeyCacheLoaded (die slot gen : Nat) (s : State) : Host.Outcome State Fault Refusal :=
  lift (keyCacheLoaded die slot gen) s

/-! ## Operations in the fabric (R152, R156 to R158) -/

/-- An operation ends: a generation whose last binding it was is destroyed when nothing else holds it. -/
def endOp (o : CipOp) (m : M) : M :=
  serveDie o.die (sweepSlot o.slot { m with key.ops := m.key.ops.filter fun x => x.id != o.id })

def updStream (key : Nat) (f : Strm → Strm) (m : M) : M := { m with net.streams := tupd m.net.streams key f }

/-- Drop a held packet. -/
def dropHeld (seq : Nat) (s : Strm) : Strm := { s with held := s.held.filter fun p => p.seq != seq }

/-- Clear a sequence number's mark in the duplicate window (R158). -/
def unmark (seq : Nat) (s : Strm) : Strm :=
  match s.top with
  | some t => if seq ≤ t && decide (t - seq < 1024) && s.marks.testBit (t - seq) then
      { s with marks := s.marks - 2 ^ (t - seq) } else s
  | none => s

/-- Drop the output of an aborted operation: a received packet counts as lost, a send packet leaves no byte (R156). -/
def poison (o : CipOp) (m : M) : M := if o.rx then updStream o.stream (dropHeld o.seq) m else voidOp o.die o.id m

/-- `n` operations of a leg abort: KEY_GONE counted and raised, at most once per leg per second. -/
def keyGone (leg slot n : Nat) (m : M) : M :=
  limited { ev := 0x0E02, i := leg, j := 0 } nsPerS
    (raise 0x0E02 2 (mkOid 9 (keyDie leg) (keyIdx leg)) [.u 2 (legId leg), .u 2 slot, .u 4 n])
    (cntAdd { reg := .cipLeg, i := keyDie leg, j := keyIdx leg, k := 1 } n m)

/-- Abort operations of one leg. -/
def abortLeg (ops : List CipOp) (leg : Nat) (m : M) : M :=
  let mine := ops.filter fun o => o.leg == leg
  keyGone leg ((mine.map CipOp.slot).headD 0) mine.length (mine.foldl (fun x o => poison o x) m)

/-- Abort every operation bound to a generation of the slots a test selects. -/
def abortOps (sel : Nat → Bool) (m : M) : M :=
  let hit (o : CipOp) : Bool := sel o.slot && o.gen != 0
  let ops := m.key.ops.filter hit
  let m1 := { m with key.ops := m.key.ops.filter fun o => !hit o }
  let m2 := (ops.map CipOp.leg).eraseDups.foldl (fun x l => abortLeg ops l x) m1
  (ops.map CipOp.die).eraseDups.foldl (fun x d => serveDie d x) m2

/-- A slot erased: its counter is kept. An EMPTY slot stays as it is. -/
def slotErased (now : Nat) (k : KeySlot) : KeySlot :=
  if slotCode k = 0 then k else { k with cur := none, prev := none, old := [], erasedAt := some now }

/-- Destroy every generation of a slot at once, bound or not (R156); its counter is kept. -/
def eraseSlot (i : Nat) (m : M) : M :=
  let m1 := abortOps (· == i) m
  { m1 with
    key.slots := tupd m1.key.slots i (slotErased m1.vault.mono),
    key.cache := tmap m1.key.cache fun _ l => l.filter fun e => e.1 != i }

/-- Slots that are not EMPTY. -/
def fullSlots (m : M) : List Nat := (m.key.slots.filter fun p => slotCode p.2 != 0).map Prod.fst

/-- Erase all 16,384 slots, every die cache and every derived key. -/
def eraseAll (m : M) : M :=
  let m1 := abortOps (fun _ => true) m
  { m1 with
    key.slots := tmap m1.key.slots fun _ k => slotErased m1.vault.mono k, key.cache := [] }

/-! ## Authentication failures (R158, R159) -/

def authReset : AuthSt := { f := 10, t := 10, fails := [], raisedAt := none, second := none }

def getAuth (m : M) (leg : Nat) : AuthSt := tget m.auth leg authReset

/-- Failures counted in the last `ns` before an instant. -/
def failsIn (a : AuthSt) (now ns : Nat) : Nat := (a.fails.filter fun t => decide (now < t + ns)).length

/-- Action 0x0EC0 with the failures of the second that runs on a leg, which ends. -/
def authRecord (leg : Nat) (m : M) : M :=
  match (getAuth m leg).second with
  | none => m
  | some (_, n) => action (unitPath (keyDie leg) 48) 0x0EC0 (legOid leg) (legId leg) n
      { m with auth := tupd m.auth leg fun a => { a with second := none } }

/-- Seconds of failures that have ended are recorded. -/
def authSeconds (m : M) : M :=
  let due (a : Nat × AuthSt) : Bool := match a.2.second with
    | some (t, _) => decide (t + nsPerS ≤ m.vault.mono)
    | none => false
  (m.auth.filter due).foldl (fun x a => authRecord a.1 x) m

/-- One authentication failure of a leg: counted, the threshold (raised again only once T seconds after the last raise
have held fewer than F failures), and the failures of its second, which begins at its first and is recorded at its end. -/
def authFail (leg : Nat) (m0 : M) : M :=
  let m := authSeconds m0
  let now := m.vault.mono
  let a0 := getAuth m leg
  let span := a0.t * nsPerS
  let again := match a0.raisedAt with
    | none => true
    | some r => decide (r + span ≤ now) && decide (failsIn a0 now span < a0.f)
  let a1 := { a0 with fails := now :: (a0.fails.filter fun t => decide (now < t + span)),
                      raisedAt := if again then none else a0.raisedAt }
  let n := failsIn a1 now span
  let fire := decide (a1.f ≤ n) && a1.raisedAt.isNone
  let a2 := { a1 with raisedAt := if fire then some now else a1.raisedAt,
                      second := match a1.second with | some (t, k) => some (t, k + 1) | none => some (now, 1) }
  let m1 := count .cipLeg (keyDie leg) (keyIdx leg) 0 { m with auth := tset m.auth leg a2 }
  if fire then raise 0x0E01 2 (legOid leg) [.u 2 (legId leg), .u 4 n, .u 2 a2.f, .u 2 a2.t] m1 else m1

/-- Retraction of a packet that failed (R158). -/
def retract (o : CipOp) (m : M) : M :=
  authFail o.leg (updStream o.stream (fun s => unmark o.seq (dropHeld o.seq s)) m)

/-- The index a receiver estimates for a sequence number (RFC 3711): its ROC is the one nearest the highest number
authenticated, or the present one before any. -/
def packetIndex (s : Strm) (seq : Nat) : Nat :=
  let v := match s.seqHigh with
    | none => s.roc
    | some h =>
      if h < 32768 then (if h + 32768 < seq then s.roc + 2 ^ 32 - 1 else s.roc)
      else if seq + 32768 < h then s.roc + 1 else s.roc
  v % 2 ^ 32 * 65536 + seq

/-- The estimate of a packet that authenticates is committed (R146). -/
def commitIndex (index : Nat) (s : Strm) : Strm :=
  let v := index / 65536
  let q := index % 65536
  if v = s.roc then { s with seqHigh := some (match s.seqHigh with | some h => if h < q then q else h | none => q) }
  else if v = (s.roc + 1) % 2 ^ 32 then { s with roc := v, seqHigh := some q } else s

/-- A generation whose packets carry no tag: the payload profile with neither HMAC nor GCM. -/
def noTag (g : KeyGen) : Bool := g.profile == 4 && bits g.mode 0 3 != 4 && bits g.mode 4 2 == 0

/-- Authentication tag bytes of a generation (Table 07-1): 10 or 4 for the SRTP profiles with HMAC, 16 for GCM, else its own, or
none. -/
def tagBytes (g : KeyGen) : Nat :=
  if g.profile = 0 then 10 else if g.profile = 1 then 4 else if g.profile < 4 then 16 else if noTag g then 0 else g.tagLen

/-- A received packet authenticates under a generation, whose tag is cut off: ordered release may hand it on, unless its number
was settled before it came, which drops it as late. -/
def passOp (o : CipOp) (g : Option KeyGen) (m : M) : M :=
  let tag := match g with | some x => tagBytes x | none => 0
  let late := match tget? m.net.streams o.stream with
    | some s => s.held.any fun p => p.seq == o.seq && p.dead
    | none => false
  let m1 := updStream o.stream (fun s => commitIndex o.index
    { s with held := (s.held.filter fun p => !(p.seq == o.seq && p.dead)).map fun p =>
        if p.seq == o.seq then { p with auth := 1, len := p.len - tag } else p }) m
  if late then
    noteOut (.lateDrop o.stream o.seq)
      (cntAdd { reg := .netStream, i := keyDie o.stream, j := keyIdx o.stream, k := 3 } 1 m1)
  else m1

/-- The authentication of a received packet ends: under its generation, then under the previous one while the grace
runs (R153); a generation without a key fails. Answers the machine with the operation ended. -/
def authEnds (o : CipOp) (ok prevOk : Bool) (m : M) : M :=
  let k := getSlot m o.slot
  let second := prevOk && (match k.prev with | some p => p.1.gen != o.gen && bit p.1.halves 0 | none => false)
  if o.gen ≠ 0 && ok then endOp o (passOp o (opGen m o) m)
  else if o.gen ≠ 0 && second then
    endOp o (count .cipLeg (keyDie o.leg) (keyIdx o.leg) 3 (passOp o (k.prev.map Prod.fst) m))
  else endOp o (retract o m)

def findOp (m : M) (id : Nat) : Option CipOp := m.key.ops.find? fun o => o.id == id

/-- GRACE_END (R153). -/
def graceEnd (slot : Nat) (m : M) : M :=
  let k := getSlot m slot
  match k.prev with
  | none => m
  | some p =>
    if m.vault.mono < p.2 then m else sweepSlot slot (setSlot slot { k with prev := none, old := k.old ++ [p.1] } m)

def execGraceEnd (slot : Nat) (s : State) : Host.Outcome State Fault Refusal := lift (graceEnd slot) s

/-! ## Commands (Table 07-6) -/

def slotObj (d : Desc) (m : M) : Bool := oidOk m 6 false (oid d)
def slotIdx (d : Desc) : Nat := oidIdx (oid d)
def slotState (d : Desc) (m : M) : Nat := slotCode (getSlot m (slotIdx d))

/-- The plain value of a slot (R165): generation in [15:0], state in [23:16]. -/
def slotPlain (k : KeySlot) : Nat := slotGen k + slotCode k * 2 ^ 16

/-- Lengths a profile uses: key, salt, salt extension, authentication key. -/
def keyLens (d : Desc) : Nat × Nat × Nat × Nat :=
  let md := bufByte d 1
  match bufByte d 0 with
  | 0 | 1 => (16, 14, 0, 20)
  | 2 => (16, 12, 0, 0)
  | 3 => (32, 12, 0, 0)
  | _ => (if bit md 3 then 32 else 16, 14, 2, if bits md 4 2 = 1 then 20 else if bits md 4 2 = 2 then 32 else 0)

/-- First byte of a half that must be zero and is not. -/
def halfBad (d : Desc) (base : Nat) (present : Bool) : Option Nat :=
  let l := keyLens d
  let bad (i : Nat) : Bool :=
    bufByte d (base + i) != 0 &&
    !(present && (if i < 32 then decide (i < l.1) else if i < 46 then decide (i < 32 + l.2.1)
      else if i < 48 then decide (i < 46 + l.2.2.1) else decide (i < 48 + l.2.2.2)))
  ((List.range 80).find? bad).map (base + ·)

/-- Range checks of bytes 0 to 5 and of the unused key bytes (R164). -/
def keyFields (d : Desc) : Option Nat :=
  let p := bufByte d 0
  let md := bufByte d 1
  let tag := bufByte d 2
  let modeBad := if p = 4 then decide (4 < bits md 0 3) || bits md 4 2 == 3 || decide (63 < md) ||
      (bits md 0 3 == 4 && bits md 4 2 != 0) else md != 0
  let tagBad := if p = 4 then (if bits md 0 3 = 4 then tag != 16 else !(decide (4 ≤ tag) && decide (tag ≤ 16))) else tag != 0
  match firstBad
    [(ptrLen d != 176, 0x20), (decide (4 < p), inBuf 0), (modeBad, inBuf 1), (tagBad, inBuf 2),
     (bufByte d 3 == 0 || decide (3 < bufByte d 3), inBuf 3), (decide (2000 < bufN d 4 2), inBuf 4)] with
  | some x => some x
  | none =>
    match halfBad d 16 (bit (bufByte d 3) 0), halfBad d 96 (bit (bufByte d 3) 1) with
    | some b, _ => some (inBuf b)
    | none, some b => some (inBuf b)
    | none, none => none

/-! ## The rate of a stream (R150, R295) -/

/-- Width and height of a size code (Table 11-1). -/
def sizeOf (code : Nat) : Nat × Nat :=
  match code with
  | 1 => (1280, 720) | 2 => (1920, 1080) | 3 => (2048, 1080) | 4 => (3840, 2160) | 5 => (4096, 2160)
  | 6 => (7680, 4320) | 7 => (8192, 4320)
  | _ => (0, 0)

/-- A format code with a listed size and rate and no other bit. -/
def formatOk (f : Nat) : Bool :=
  (sizeOf (bits f 8 4)).1 != 0 && (rateOf (bits f 0 4)).1 != 0 && bits f 8 4 * 256 + bits f 0 4 == f

def formatSize (f : Nat) : Nat × Nat := sizeOf (bits f 8 4)
def formatRate (f : Nat) : Nat × Nat := rateOf (bits f 0 4)

/-- Windows of a format's rate (R44). -/
def formatWindow (f : Nat) : Boundary := .video (formatRate f).1 (formatRate f).2

/-- Bits a paced stream sends in a second: the rate R295 computes from the format. -/
def formatBits (fmt : Nat) : Nat :=
  (formatSize fmt).1 * (formatSize fmt).2 * 20 * (formatRate fmt).1 / (formatRate fmt).2

/-- Bits a send stream may send in a second: its declared rate, or for kinds 2 and 3 the rate its format gives; kind 3 with
the RTP, UDP and IP headers of its packets. -/
def sendBits (kind format param rate : Nat) (ip6 : Bool) : Nat :=
  if kind = 2 then formatBits param
  else if kind = 3 then
    48000 * (if bit format 0 then 24 else 16) + (if bit format 1 then 8000 else 1000) * (if ip6 then 60 else 40) * 8
  else rate * 1000

/-- A leg that a rewrite of its slot would put over the limit of Table 07-2. -/
def rewriteOver (d : Desc) (m : M) : Option Nat :=
  let g := bufGen d 1
  let beyond (l : Nat × Leg) : Bool :=
    (legStreams m l.1).any (fun s => decide (streamRate m (keyDie l.1) g false < s.2.kbps)) ||
    (legSends m l.1).any (fun s => decide
      (streamRate m (keyDie l.1) g true * 1000 < sendBits s.2.kind s.2.format s.2.param s.2.rate (bit l.2.flags 0)))
  ((slotRefs m (slotIdx d)).find? fun l => legSrtp l.2 && beyond l).map fun l => legId l.1

/-- Operator writes are refused while an alarm holds ALARM_N low (R161). -/
def alarmHolds (d : Desc) (m : M) : Bool := m.key.alarmLow && pathDomain m d.path == 1

def keyWriteLate (d : Desc) (m : M) : Option (Nat × Nat) :=
  match rewriteOver d m with
  | some l => some (stResource, l)
  | none =>
    let after := setSlot (slotIdx d) (slotWrite d m.vault.mono (getSlot m (slotIdx d))) m
    match cacheOver after with
    | some die => some (stResource, die)
    | none => firstFail [(alarmHolds d m, stConflict, 1)]

def applyKeyWrite (d : Desc) (m : M) : M × Applied :=
  let i := slotIdx d
  let k := getSlot m i
  let k1 := slotWrite d m.vault.mono k
  let m1 := sweepSlot i (setSlot i k1 m)
  (m1, .done { status := stOK, detail := 0, plain := some (slotPlain k, slotPlain k1), before := slotCode k, after := 1 })

/-- Operator and Compliance write and clear slots; erasure and alarm policy are Compliance's (R163). -/
def permKey : Perm := { op := true, vf := true, co := true, se := false, pe := false }

/-- The plain values of a command that leaves its slot as it is. -/
def slotSame (d : Desc) (m : M) : Option (Nat × Nat) := same (slotPlain (getSlot m (slotIdx d)))

def keyWriteSpec : CmdSpec :=
  { baseSpec 0x0702 permKey with
    ptr := true
    bufRsv := fun d _ => ((List.range 10).find? fun i => bufByte d (6 + i) != 0).map (6 + ·)
    obj := slotObj
    fields := fun d _ => keyFields d
    late := keyWriteLate
    when := fun _ _ => some hubWindow
    ostate := slotState
    plainNow := slotSame
    apply := applyKeyWrite }

def execKeyWrite (d : Desc) (s : State) : Host.Outcome State Fault Refusal := lift (hostRow keyWriteSpec d) s

def applyKeyClear (d : Desc) (m : M) : M × Applied :=
  let i := slotIdx d
  let k := getSlot m i
  let m1 := sweepSlot i (setSlot i { k with cur := none, old := k.old ++ k.cur.toList } m)
  let k1 := getSlot m1 i
  (m1, .done { status := stOK, detail := 0, plain := some (slotPlain k, slotPlain k1), before := slotCode k,
               after := slotCode k1 })

def keyClearSpec : CmdSpec :=
  { baseSpec 0x0703 permKey with
    force := true
    obj := slotObj
    late := fun d m => firstFail
      [(slotState d m != 1, stConflict, 0),
       (!isForce d && !(slotUsers m (slotIdx d)).isEmpty, stConflict, (slotUsers m (slotIdx d)).length)]
    when := fun _ _ => some hubWindow
    ostate := slotState
    plainNow := slotSame
    apply := applyKeyClear }

def execKeyClear (d : Desc) (s : State) : Host.Outcome State Fault Refusal := lift (hostRow keyClearSpec d) s

/-! ## Work enters the fabric (R152, R155) -/

/-- The write and clear commands of a slot whose boundary has come are in force before work that enters at that instant
(R155). -/
def slotDue (slot : Nat) (m : M) : M :=
  let due := m.pend.filter fun p =>
    (p.d.opcode == 0x0702 || p.d.opcode == 0x0703) && slotIdx p.d == slot && !p.waits && decide (p.due ≤ m.dev)
  due.foldl (fun x p => applyPend (if p.d.opcode = 0x0702 then keyWriteSpec else keyClearSpec) p x) m

/-- An operation as its packet gives it, not yet in the fabric. -/
def newOp (die leg stream : Nat) (rx : Bool) (seq slot level bytes : Nat) : CipOp :=
  { id := 0, die := die, leg := leg, stream := stream, rx := rx, seq := seq, slot := slot, gen := 0, waiting := false,
    level := level, blocks := cdiv bytes 16, pipe := 0, st := 0, index := 0, report := none }

/-- Work that finds no key is dropped and counted key_gone; with the slot erased at this instant it aborts (R155, R156). -/
def keyMiss (leg slot : Nat) (m : M) : M :=
  if (getSlot m slot).erasedAt = some m.vault.mono then keyGone leg slot 1 m
  else count .cipLeg (keyDie leg) (keyIdx leg) 1 m

/-- An operation enters the fabric: it binds the slot's present generation, waits for the die's cache entry, and is served by
R149. One that enters as its slot is erased aborts. A received packet that finds no key has no cipher work. -/
def bindOp (o : CipOp) (m : M) : M :=
  let g := slotGen (getSlot m o.slot)
  let hit := cached m o.die o.slot g
  let m1 := if g ≠ 0 && hit then cacheLoad o.die o.slot g m else m
  let op := { o with id := m.key.nextOp, gen := g, waiting := g != 0 && !hit, pipe := leastPipe m o.die,
                     st := if g = 0 then 2 else 0 }
  if g = 0 && (getSlot m o.slot).erasedAt == some m.vault.mono then
    keyMiss o.leg o.slot (poison op { m with key.nextOp := m.key.nextOp + 1 })
  else serveDie o.die { m1 with key.ops := m1.key.ops ++ [op], key.nextOp := m.key.nextOp + 1 }

/-- The generation an erasure destroys: the current one, else the newest that is held. -/
def erasedGen (k : KeySlot) : Nat :=
  match k.cur, k.prev, k.old.getLast? with
  | some g, _, _ => g.gen
  | none, some p, _ => p.1.gen
  | none, none, some g => g.gen
  | none, none, none => 0

/-- KEY_ERASE of one slot, or of all: one record, then one action 0x07C0 for each slot that was not EMPTY (R165). -/
def applyKeyErase (d : Desc) (m : M) : M × Applied :=
  if payBit d 0 0 then
    let full := fullSlots m
    let m1 := eraseAll m
    let st := slotState d m
    let m2 := finish d false { status := stOK, detail := 0, plain := some (full.length, 0), before := st, after := 0 } m1
    (full.foldl (fun x i => action keyUnit 0x07C0 (keyOid i) (erasedGen (getSlot m i)) 0 x) m2, .ended)
  else
    let i := slotIdx d
    let k := getSlot m i
    (eraseSlot i m, .done { status := stOK, detail := 0, plain := some (slotPlain k, 0), before := slotCode k, after := 0 })

def keyEraseSpec : CmdSpec :=
  { baseSpec 0x0704 permCompliance with
    mask := mbits 0 1
    obj := fun d m => slotObj d m || (payBit d 0 0 && oidCls (oid d) == 6 && oidDie (oid d) == 0)
    ostate := slotState
    plainNow := fun d m => if payBit d 0 0 then same (fullSlots m).length else slotSame d m
    anyCommit := true
    apply := applyKeyErase }

def execKeyErase (d : Desc) (s : State) : Host.Outcome State Fault Refusal := lift (hostRow keyEraseSpec d) s

/-! ## Alarms (R160 to R162) -/

/-- An enabled source detects its condition (R161). -/
def alarmFire (source : Nat) (m : M) : M :=
  let n := (fullSlots m).length
  let m1 := eraseAll m
  let latched := m1.key.latched ||| 2 ^ source
  let m2 := emit (.pin 0x100 0 false)
    { m1 with key.latched := latched, key.alarmLow := true, key.count := hold 0xFF (m1.key.count + 1) }
  announce keyUnit 0x0701 0 (infraOid 0) [.u 1 latched, .u 1 source, .u 2 n] 0 m2

/-- Conditions that show as present: those of enabled sources (Table 07-9). -/
def alarmPresent (m : M) : Nat := m.key.present &&& m.key.enabled

/-- Light, electromagnetic and lid tamper are enabled or disabled; one enabled while its condition is present detects
it (R160). -/
def applyAlarmSet (d : Desc) (m : M) : M :=
  let en := 0x27 + b2n (payBit d 0 0) * 8 + b2n (payBit d 0 1) * 16 + b2n (payBit d 0 2) * 64
  let newly := [3, 4, 6].filter fun b => bit en b && !bit m.key.enabled b && bit m.key.present b
  newly.foldl (fun x b => alarmFire b x) { m with key.enabled := en }

def keyAlarmSetSpec : CmdSpec :=
  { baseSpec 0x0705 permCompliance with
    mask := mbits 0 7
    obj := partObj
    apply := fun d m => (applyAlarmSet d m, okReply 0xFF) }

def execKeyAlarmSet (d : Desc) (s : State) : Host.Outcome State Fault Refusal := lift (hostRow keyAlarmSetSpec d) s

def keyAlarmClearSpec : CmdSpec :=
  { baseSpec 0x0706 permCompliance with
    obj := partObj
    late := fun _ m => firstFail
      [(m.key.latched == 0, stConflict, 0), (alarmPresent m != 0, stConflict, alarmPresent m)]
    apply := fun _ m => (emit (.pin 0x100 0 true) { m with key.latched := 0, key.alarmLow := false }, okReply 0xFF) }

def execKeyAlarmClear (d : Desc) (s : State) : Host.Outcome State Fault Refusal := lift (hostRow keyAlarmClearSpec d) s

/-- The end of a source's condition: it no longer shows as present. -/
def alarmEnd (source : Nat) (m : M) : M :=
  if bit m.key.present source then { m with key.present := m.key.present - 2 ^ source } else m

/-- The onset of a source's condition: the Fold source's is the failed check alone and never shows as present. -/
def alarmOnset (source : Nat) (m : M) : M :=
  if source ≥ 7 || bit m.key.present source then m
  else
    let m1 := if source = 5 then m else { m with key.present := m.key.present + 2 ^ source }
    if m.key.armed && bit m.key.enabled source then alarmFire source m1 else m1

end Sys2Proof.Machine
end

