-- ==== Sys2Proof/Machine/Send.lean ====
section
/-!
DEFINITION. Send streams, the forwarding table, operating points, refresh requests, retransmission and line estimation
(R293 to R308), and RTCP.
-/
namespace Sys2Proof.Machine

/-! ## Refresh requests (R282, R304) -/

def getEnc (m : M) (k : Nat) : Option Enc := tget? m.enc.encs k
def updEnc (k : Nat) (f : Enc → Enc) (m : M) : M := { m with enc.encs := tupd m.enc.encs k f }

def countEnc (k c n : Nat) (m : M) : M := cntAdd { reg := .encCnt, i := keyDie k, j := keyIdx k - 4096, k := c } n m

/-- A request of R282 arrives at an encode context: it is pending, or merges into the one that is. -/
def encRequest (k scope s : Nat) (force : Bool) (m : M) : M :=
  match getEnc m k with
  | none => m
  | some e =>
    match e.req with
    | none => updEnc k (fun x => { x with req := some { scope := scope, s := s, merged := 0, at_ := m.vault.mono, force := force } }) m
    | some r =>
      let r1 : KeyReq :=
        { r with scope := if r.scope = 0 || scope = 0 then 0 else 1, s := if s < r.s then s else r.s, merged := r.merged + 1,
                 force := r.force || force }
      countEnc k 5 1 (updEnc k (fun x => { x with req := some r1 }) m)

/-- Feedback leaves only from a part that holds the claim (R409). -/
def feedbackOn (m : M) : Bool := m.pair.role != 3

/-- The leg of a stream of either direction. -/
def anyLeg (k : Nat) : Nat := if keyIdx k < 4096 then strmLeg k else sendLeg k

/-- SRTCP index of a stream's next RTCP packet (R146). -/
def srtcpOf (m : M) (k : Nat) : Nat :=
  if keyIdx k < 4096 then (match tget? m.net.streams k with | some s => s.srtcp | none => 0)
  else match getSend m k with | some s => s.srtcp | none => 0

def srtcpNext (k : Nat) (m : M) : M :=
  { m with net.streams := tupd m.net.streams k fun s => { s with srtcp := (s.srtcp + 1) % 2 ^ 31 },
           snd.sends := tupd m.snd.sends k fun s => { s with srtcp := (s.srtcp + 1) % 2 ^ 31 } }

/-- The leg's slot holds a send half. -/
def txKey (m : M) (l : Leg) : Bool := match (getSlot m l.keySlot).cur with
  | some g => bit g.halves 1
  | none => false

/-- An RTCP packet of a stream leaves, `kind` as it is emitted, under the header of R296. On an SRTP leg it takes its SRTCP
index, binds the present generation and leaves when its cipher work is done (R145, R152). -/
def rtcpOut (kind k : Nat) (vals : List Int) (m0 : M) : M :=
  match getLeg m0 (anyLeg k) with
  | none => m0
  | some l =>
    let m := if legSrtp l then slotDue l.keySlot m0 else m0
    let idx := if keyIdx k < 4096 then keyIdx k else sendIndex k
    let out := vals ++ wireHead m l.port (anyLeg k) 0 true
    if !linkUp m l.port then m
    else if !legSrtp l then wireNet l.port kind (keyDie k) idx out m
    else if !txKey m l then keyMiss (anyLeg k) l.keySlot m
    else
      let i := srtcpOf m k
      bindOp { newOp (keyDie k) (anyLeg k) k false i l.keySlot (streamLevel m k) (8 * vals.length) with
               report := some (kind, idx, out ++ [(i : Int)]) } (srtcpNext k m)

/-- A PLI leaves on the leg of a receive stream. -/
def sendPli (stream : Nat) (m : M) : M :=
  match tget? m.net.streams stream with
  | none => m
  | some s => if feedbackOn m then rtcpOut 4 stream [((s.learned.getD s.ssrc : Nat) : Int)] m else m

def getFwd (m : M) (e : Nat) : Option Fwd := tget? m.snd.fwds e
def updFwd (e : Nat) (f : Fwd → Fwd) (m : M) : M := { m with snd.fwds := tupd m.snd.fwds e f }

/-- Entries of a source, by index. -/
def fwdOfSource (m : M) (src : Nat) : List (Nat × Fwd) := m.snd.fwds.filter fun e => e.2.source == src

/-- Entries of which a send stream is a member. -/
def memberOf (m : M) (send : Nat) : List (Nat × Fwd) := m.snd.fwds.filter fun e => e.2.members.contains send

/-- The encode context that feeds a send stream. -/
def encOf (m : M) (s : Send) : Option (Nat × Enc) :=
  match s.feeder with
  | some o => if oidCls o = 0xB then (getEnc m (oidKey o)).map fun e => (oidKey o, e) else none
  | none => none

/-- The source of a kind 1 stream: itself for an origin, else the source its memberships name. -/
def sourceOf (m : M) (k : Nat) (s : Send) : Option Nat :=
  if (encOf m s).isSome then some (sendOid k) else (memberOf m k).head?.map fun e => e.2.source

/-- A PLI to an external source, at most one per pli_ms of the entry; further requests are counted (R304). -/
def pliEntry (e : Nat) (m : M) : M :=
  match getFwd m e with
  | none => m
  | some f =>
    let k := oidKey f.source
    match tget? m.net.streams k, getLeg m (strmLeg k) with
    | some _, some l =>
      if !bit l.flags 2 then m
      else
        let open_ := match f.lastPli with
          | none => true
          | some t => tickDue m (t + (if f.pliMs = 0 then 500 else f.pliMs) * 1000000)
        if open_ then sendPli k (updFwd e (fun x => { x with lastPli := some m.dev }) m)
        else count .fwdPli 0 e 0 m
    | _, _ => m

/-- The encode context behind an origin send stream. -/
def originEnc (m : M) (src : Nat) : Option (Nat × Enc) :=
  if oidIdx src < 4096 then none else match getSend m (oidKey src) with
    | some s => encOf m s
    | none => none

/-- A refresh request of a send stream (R304): scope 1 with `s` for a spatial layer above 0, else a key frame. -/
def refreshReq (k s : Nat) (m : M) : M :=
  match getSend m k with
  | none => m
  | some x => match sourceOf m k x with
    | none => m
    | some src =>
      let scope := if s = 0 then 0 else 1
      let m1 := noteOut (.refresh src scope s) m
      match originEnc m src with
      | some (ek, _) => encRequest ek scope s false m1
      | none =>
        let mine := memberOf m k
        match (match mine.find? fun e => e.2.layer == 3 * s with | some e => some e | none => mine.head?) with
        | some e => pliEntry e.1 m1
        | none => m1

/-! ## The send stream's own header (R296, R297) -/

def destKnown (m : M) (leg : Nat) (l : Leg) : Bool := (destOf m leg l).1 != 0 && (destOf m leg l).2 != 0

/-- A destination is learned from the first RTP or RTCP packet accepted on the leg: one event per arming (R296), which names
the leg's send stream in the lowest slot; a leg without one raises none (DESIGN CHOICE, assumption 131). -/
def learnDest (leg addr port : Nat) (m : M) : M :=
  match getLeg m leg with
  | none => m
  | some l =>
    let t := getTLeg m leg
    if (l.remoteAddr ≠ 0 || t.learnedAddr ≠ 0) && (l.remotePort ≠ 0 || t.learnedPort ≠ 0) then m
    else
      let t1 := { t with learnedAddr := if t.learnedAddr = 0 then addr else t.learnedAddr,
                         learnedPort := if t.learnedPort = 0 then port else t.learnedPort, destRaised := true }
      let m1 := noteOut (.learned leg addr port) (setTLeg leg t1 m)
      if t.destRaised then m1
      else
        let dst := destOf m1 leg l
        match (legSends m leg).head? with
        | some s => raise 0x0B08 4 (sendOid s.1) [.u 2 (sendIndex s.1), .u 2 dst.2, .u 4 (addrLow l dst.1)] m1
        | none => m1

/-- Bytes of an RTP packet after encryption: payload padding of the CBC mode (R147) and the tag. -/
def cipherLen (g : KeyGen) (udp : Nat) : Nat :=
  (if g.profile = 4 && bits g.mode 0 3 = 0 then 12 + cdiv (udp - 12) 16 * 16 else udp) + tagBytes g

/-- Bytes of the IP and UDP headers of a leg. -/
def ipBytes (l : Leg) : Nat := (if bit l.flags 0 then 40 else 20) + 8

/-- Counted length of R309: destination MAC through FCS, and 20 bytes. -/
def wireLen (l : Leg) (udp : Nat) : Nat := udp + ipBytes l + 18 + (if bit l.flags 1 then 4 else 0) + 20

def countSend (k c n : Nat) (m : M) : M := cntAdd { reg := .netSend, i := keyDie k, j := sendIndex k, k := c } n m

/-- MTU of a port. -/
def mtuOf (m : M) (port : Nat) : Nat := match tget? m.net.ports port with
  | some p => p.mtu
  | none => 1500

/-- The ports that take a packet of a send stream: the leg's, and its secondary where the stream sends on both (R314), but for
one whose MTU is below the frame (R296). -/
def mtuFits (m : M) (s : Send) (l : Leg) (len : Nat) : Bool × Bool :=
  let fits (port : Nat) : Bool := decide (len + ipBytes l ≤ mtuOf m port)
  (fits l.port, bit s.flags 0 && l.secondary != 0xFF && fits l.secondary)

/-- Frames a packet loses to an MTU. -/
def mtuDrops (s : Send) (l : Leg) (f : Bool × Bool) : Nat :=
  b2n (!f.1) + b2n (bit s.flags 0 && l.secondary != 0xFF && !f.2)

/-- The packet leaves its stage at once, or binds its generation and enters the cipher fabric (R152, R326); one that finds no
key is dropped. An item that is passed over waits without a token. -/
def sendEnter (k q : Nat) (l : Leg) (e : EPkt) (level : Nat) (m : M) : M :=
  let die := keyDie k
  let f := getFlow m die q
  if legSrtp l then
    let item := { newItem (.pkt e) with op := some m.key.nextOp }
    if tokensMax ≤ f.items.length then setFlow die q (flowPut (newItem (.pkt e)) m.dev f) m
    else if !txKey m l then keyMiss (sendLeg k) l.keySlot m
    else bindOp (newOp die (sendLeg k) k false e.seq l.keySlot level e.udp) (setFlow die q (flowPut item m.dev f) m)
  else egressSettle die q (setFlow die q (flowPut { newItem (.pkt e) with st := 1 } m.dev f) m)

/-- One RTP packet of a send stream: refused while the leg does not carry, has no destination or no port's MTU takes it; else
it takes the stream's header. `ts` is the timestamp before ts_offset, `udp` its UDP payload bytes. -/
def sendRtp (k ts udp : Nat) (m0 : M) : M :=
  match getSend m0 k, getLeg m0 (sendLeg k) with
  | some s, some l =>
    let m := if legSrtp l then slotDue l.keySlot m0 else m0
    if !legCarries l then countSend k 9 1 m
    else if !destKnown m (sendLeg k) l then countSend k 3 1 m
    else
      let g := (getSlot m l.keySlot).cur
      let len := if legSrtp l then (match g with | some x => cipherLen x udp | none => udp) else udp
      let f := mtuFits m s l len
      let m := countSend k 2 (mtuDrops s l f) m
      if !f.1 && !f.2 then m
      else if legSrtp l && !txKey m l then keyMiss (sendLeg k) l.keySlot m
      else
        match l.queue with
        | none => countSend k 9 1 m
        | some q =>
          let e : EPkt :=
            { send := k, seq := s.roc * 65536 + s.next, ts := (ts + s.tsOffset) % 2 ^ 32, udp := len, len := wireLen l len, at_ := 0,
              due := 0, rtx := false, out := false, a := f.1, b := f.2 }
          let m1 := updSend k (fun x =>
            { x with next := (x.next + 1) % 65536, roc := if x.next = 65535 then (x.roc + 1) % 2 ^ 32 else x.roc }) m
          sendEnter k q l e s.level m1
  | _, _ => m0

/-- Items that were passed over enter as tokens free. -/
def flowRefill (die q : Nat) : Nat → M → M
  | 0, m => m
  | n + 1, m =>
    let f := getFlow m die q
    match f.beyond with
    | [] => m
    | i :: r =>
      if tokensMax ≤ f.items.length then m
      else
        let m1 := setFlow die q { f with beyond := r } m
        match i.body with
        | .pkt e => match getLeg m (sendLeg e.send) with
          | some l => flowRefill die q n (sendEnter e.send q l e (streamLevel m e.send) (slotDue l.keySlot m1))
          | none => flowRefill die q n m1
        | _ => flowRefill die q n m1

/-- An egress flow hands on and refills. -/
def egressFlow (die q : Nat) (m : M) : M :=
  let m1 := egressSettle die q m
  flowRefill die q (getFlow m1 die q).beyond.length m1

/-! ## Codec frames of signal engines (R298, R340) -/

/-- Bytes of one codec frame: 64 kbit/s for G.711 and G.722; an Opus frame has the length its encoder gives it. -/
def codecBytes (s : Send) (m : M) : Nat := if s.format = 0 then Config.freeNat m.drawn % 1275 + 1 else s.param * 8

/-- A frame an encode instance has finished: one packet of its send stream. -/
def sendCodec (k ts : Nat) (m : M) : M :=
  match getSend m k with
  | none => m
  | some s => sendRtp k ts (12 + codecBytes s m) (draw m)

/-- A signal engine flow hands its items on in token order. -/
def dspSettle (die f : Nat) (m : M) : M :=
  let r := flowHand m.dev (getFlow m die f)
  r.2.foldl (fun x b => match b with
    | .dsp k ts _ => sendCodec k ts x
    | _ => x) (setFlow die f r.1 m)

def flowSettle (die f : Nat) (m : M) : M := if f < 1536 then egressFlow die f m else dspSettle die f m

/-- FLOW_ITEM_COMPLETE (R326): the completions that reached the flow are recorded, then handed on in token order. An item
whose cipher work runs completes by that work. -/
def flowComplete (die f : Nat) (tokens : List Nat) (m : M) : M :=
  flowSettle die f (setFlow die f (flowMark (fun i => tokens.contains i.token && i.op.isNone) 1 (getFlow m die f)) m)

def execFlowItemComplete (die flow : Nat) (tokens : List Nat) (s : State) : Host.Outcome State Fault Refusal :=
  lift (flowComplete die flow tokens) s

def reorderTimeout (die f : Nat) (m : M) : M := match reorderVoid die f m with
  | some x => flowSettle die f x
  | none => m

def execReorderTimeout (die flow : Nat) (s : State) : Host.Outcome State Fault Refusal := lift (reorderTimeout die flow) s

/-! ## Operating points (R302, R303) -/

/-- Spatial layers of the source are simulcast: an own H.265 encode. -/
def simulcast (m : M) (src : Nat) : Bool := match originEnc m src with
  | some (_, e) => e.codec == 17
  | none => false

/-- Layers of a point. -/
def pointLayers (sim : Bool) (s t : Nat) : List Nat :=
  (List.range (s + 1)).flatMap fun a => if sim && a ≠ s then [] else (List.range (t + 1)).map fun b => 3 * a + b

/-- Layers a stream can take. -/
def layersFor (m : M) (k : Nat) (s : Send) : List Nat :=
  match encOf m s with
  | some (_, e) => (List.range e.s).flatMap fun a => (List.range e.t).map fun b => 3 * a + b
  | none => (memberOf m k).map fun e => e.2.layer

def layerRate (m : M) (src layer : Nat) : Nat :=
  match m.snd.rates.find? fun r => r.source == src && r.layer == layer with
  | some r => r.kbps
  | none => 0

def pointRate (m : M) (src : Nat) (sim : Bool) (s t : Nat) : Nat := ((pointLayers sim s t).map fun y => layerRate m src y).sum

/-- The line estimate in force (R308). -/
def lineEst (t : TLeg) : Nat := if t.mode = 0 then t.auto else if t.mode = 1 then (if t.auto < t.value then t.auto else t.value) else t.value

/-- kbit/s of bytes logged over a span of ms. -/
def logRate (now spanMs : Nat) (log : List (Nat × Nat)) : Nat :=
  ((log.filter fun x => decide (now < x.1 + spanMs * 1000000)).map Prod.snd).sum * 8 / spanMs

/-- The budget of a kind 1 stream: the leg's video budget less the points of the streams in earlier slots. -/
def budgetFor (m : M) (k : Nat) (l : Leg) : Int :=
  let t := getTLeg m (sendLeg k)
  let video : Int := ((lineEst t * (getProfile m l.profile).headroom / 1000 : Nat) : Int) - (logRate m.vault.mono 500 t.others : Nat)
  let used := ((legSends m (sendLeg k)).filter fun s => s.2.kind == 1 && s.2.state == 2 && decide (sendSlot s.1 < sendSlot k)).map fun s =>
    match sourceOf m s.1 s.2 with
    | some src => if s.2.waiting then 0 else pointRate m src (simulcast m src) s.2.ps s.2.pt_
    | none => 0
  video - (used.sum : Nat)

/-- The nine points. -/
def allPoints : List (Nat × Nat) := (List.range 3).flatMap fun s => (List.range 3).map fun t => (s, t)

/-- The point of highest rate that fits, ties to the higher s; `none` when no point fits. -/
def bestPoint (m : M) (src : Nat) (sim : Bool) (avail : List Nat) (budget : Int) : Option (Nat × Nat) :=
  allPoints.foldl (fun a p =>
    if (pointLayers sim p.1 p.2).all avail.contains && decide ((pointRate m src sim p.1 p.2 : Int) ≤ budget) then
      match a with
      | none => some p
      | some q => if pointRate m src sim q.1 q.2 ≤ pointRate m src sim p.1 p.2 then some p else some q
    else a) none

/-- The first packet of a frame: its target, base_over, the wait for a spatial up-switch, and the request for a spatial
down-switch of a simulcast source. -/
def frameStart (k src : Nat) (sim : Bool) (p : Handed) (l : Leg) (m : M) : M :=
  match getSend m k with
  | none => m
  | some s =>
    let best := bestPoint m src sim (layersFor m k s) (budgetFor m k l)
    let tgt := best.getD (0, 0)
    let m1 := if best.isNone then countSend k 1 1 m else m
    let up := !s.waiting && decide (s.ps < tgt.1)
    let down := !s.waiting && sim && decide (tgt.1 < s.ps)
    let m2 := updSend k (fun x =>
      { x with ts_ := tgt.1, tt := tgt.2, frame := some p.ts, raised := false,
               upSince := if up || down then some (x.upSince.getD m.dev) else none }) m1
    if down && s.upSince.isNone then refreshReq k tgt.1 m2 else m2

/-- A random access point for every layer the stream may take. -/
def keyStarts (sim : Bool) (p : Handed) : Bool := p.media.key && (sim || p.media.spatial == 0)

/-- The point after a packet (Table 13-5): `own` an own encode, `first` the frame's first packet. -/
def movePoint (sim own first : Bool) (p : Handed) (s : Send) : Nat × Nat :=
  let a := p.media.spatial
  let b := p.media.temporal
  let ps :=
    if s.ts_ < s.ps then
      (if sim then (if p.media.switchPt && a == s.ts_ then s.ts_ else s.ps) else if first then s.ts_ else s.ps)
    else if s.ps < s.ts_ then
      (if sim then (if p.media.switchPt && a == s.ts_ then s.ts_ else s.ps)
       else if decide (s.ps < a) && decide (a ≤ s.ts_) && (p.media.key || p.media.switchPt) then a
       else if p.media.key && a == 0 then s.ts_ else s.ps)
    else s.ps
  let tt := if sim && decide (s.ts_ < ps) then 0 else s.tt
  let pt :=
    if tt < s.pt_ then (if first then tt else s.pt_)
    else if s.pt_ < tt then
      (if p.media.key then tt
       else if decide (s.pt_ < b) && decide (b ≤ tt) && (own || p.media.switchPt) then b else s.pt_)
    else s.pt_
  (ps, pt)

/-- EV_TRF_POINT, once for the changes of a frame (R303). -/
def pointEvent (k : Nat) (old new : Nat × Nat) (m : M) : M :=
  raise 0x0C01 5 (legOid (sendLeg k))
    [.u 2 (legId (sendLeg k)), .u 1 (sendSlot k), .u 1 old.1, .u 1 old.2, .u 1 new.1, .u 1 new.2,
     .u 4 (lineEst (getTLeg m (sendLeg k)))] m

/-- Put a new point in force. -/
def setPoint (k : Nat) (new : Nat × Nat) (m : M) : M :=
  match getSend m k with
  | none => m
  | some s =>
    if (s.ps, s.pt_) = new then m
    else
      let m1 := noteOut (.point k new.1 new.2)
        (updSend k (fun x => { x with ps := new.1, pt_ := new.2, raised := true,
                                      upSince := if x.ts_ = new.1 then none else x.upSince }) m)
      if s.raised then m1 else pointEvent k (s.ps, s.pt_) new m1

/-- One source packet at a kind 1 send stream: the point may move, then the layer passes or is filtered. -/
def memberTake (k src : Nat) (p : Handed) (m : M) : M :=
  match getSend m k, getLeg m (sendLeg k) with
  | some s, some l =>
    if !legCarries l then countSend k 9 1 m
    else
      let sim := simulcast m src
      let first := s.frame != some p.ts
      let m0 := if p.media.key && p.media.spatial == 0 then muteKey k m else m
      let m1 := if first then frameStart k src sim p l m0 else m0
      match getSend m1 k with
      | none => m1
      | some s1 =>
        let m2 :=
          if s1.waiting then
            (if keyStarts sim p then
              setPoint k (s1.ts_, s1.tt) (updSend k (fun x => { x with waiting := false }) m1) else m1)
          else setPoint k (movePoint sim (originEnc m1 src).isSome first p s1) m1
        match getSend m2 k with
        | none => m2
        | some s2 =>
          let layer := 3 * p.media.spatial + p.media.temporal
          if !s2.waiting && (pointLayers sim s2.ps s2.pt_).contains layer then sendRtp k p.ts p.len m2
          else countSend k 1 1 m2
  | _, _ => m

/-- Bytes of a layer of a source, its rate updated at each frame (R302). -/
def rateTake (src layer : Nat) (p : Handed) (m : M) : M :=
  let now := m.vault.mono
  let r0 := (m.snd.rates.find? fun r => r.source == src && r.layer == layer).getD
    { source := src, layer := layer, log := [], frame := none, kbps := 0 }
  let log := (now, p.len) :: r0.log.filter fun x => decide (now < x.1 + 500000000)
  let r1 := { r0 with log := log, frame := some p.ts, kbps := if r0.frame = some p.ts then r0.kbps else logRate now 500 r0.log }
  { m with snd.rates := r1 :: m.snd.rates.filter fun r => !(r.source == src && r.layer == layer) }

/-- A source packet is looked up and copied to every member in order; an origin receives its own packets directly. -/
def forwardPacket (src : Nat) (p : Handed) (m : M) : M :=
  let layer := 3 * p.media.spatial + p.media.temporal
  let m1 := rateTake src layer p m
  let members := ((fwdOfSource m1 src).filter fun e => e.2.layer == layer).flatMap fun e => e.2.members
  let self := if oidIdx src < 4096 then [] else [oidKey src]
  (self ++ members).foldl (fun x k => memberTake k src p x) m1

/-- SOURCE_PACKET_FORWARD (R300): the oldest packet of a source that waits. -/
def sourceForward (die idx : Nat) (m : M) : M :=
  let k := mkKey die idx
  if idx < 4096 then
    match tget? m.net.streams k with
    | some s => match s.forward with
      | p :: r => forwardPacket (strmOid k) p { m with net.streams := tupd m.net.streams k fun x => { x with forward := r } }
      | [] => m
    | none => m
  else match getSend m k with
    | some s => match s.srcq with
      | p :: r => forwardPacket (sendOid k) p (updSend k (fun x => { x with srcq := r }) m)
      | [] => m
    | none => m

def execSourcePacketForward (die idx : Nat) (s : State) : Host.Outcome State Fault Refusal := lift (sourceForward die idx) s

/-- UP_WAIT_EXPIRY (R304): a stream that has waited up_wait_ms asks for its target layer. -/
def upWait (die idx : Nat) (m : M) : M :=
  let k := mkKey die idx
  match getSend m k, getLeg m (sendLeg k) with
  | some s, some l =>
    match s.upSince with
    | some t =>
      if tickDue m (t + (getProfile m l.profile).upWait * 1000000) && legCarries l then
        refreshReq k s.ts_ (updSend k (fun x => { x with upSince := some m.dev }) m)
      else m
    | none => m
  | _, _ => m

def execUpWaitExpiry (die idx : Nat) (s : State) : Host.Outcome State Fault Refusal := lift (upWait die idx) s

/-- A stream that becomes BOUND, or whose leg becomes ARMED, waits for a key frame and asks for one at once (R304). -/
def joinWait (k : Nat) (m : M) : M :=
  match getSend m k with
  | some s =>
    if s.kind = 1 && s.state = 2 then
      refreshReq k 0 (updSend k (fun x => { x with waiting := true, frame := none, upSince := none }) m)
    else m
  | none => m

/-! ## Retransmission (R305) -/

/-- RTX_HOLD_EXPIRY: holds of a stream that have lasted rtx_ms end. -/
def rtxExpire (die idx : Nat) (m : M) : M :=
  let k := mkKey die idx
  match getLeg m (sendLeg k) with
  | none => m
  | some l =>
    let keep := (getProfile m l.profile).rtx * 1000000
    updSend k (fun s => { s with rtx := s.rtx.filter fun r => !tickDue m (r.sentAt + keep) }) m

def execRtxHoldExpiry (die idx : Nat) (s : State) : Host.Outcome State Fault Refusal := lift (rtxExpire die idx) s

/-- One sequence number of a generic NACK. -/
def nackOne (k seq : Nat) (m : M) : M :=
  match getSend m k, getLeg m (sendLeg k) with
  | some s, some l =>
    match s.rtx.find? (fun r => r.pkt.seq % 65536 == seq && !r.resent), l.queue with
    | some r, some q =>
      let f := mtuFits m s l r.pkt.udp
      let m1 := noteOut (.resent k seq) (updSend k (fun x =>
        { x with rtx := x.rtx.map fun y => if y.pkt.seq = r.pkt.seq then { y with resent := true } else y }) m)
      enqueue (queueKey (keyDie k) q) { r.pkt with rtx := true, out := false, a := f.1, b := f.2 } (countSend k 4 1 m1)
    | _, _ => countSend k 5 1 m
  | _, _ => m

/-! ## RTCP (R304, R305, R307) -/

/-- NTP seconds of device time: no UTC correction (R297). -/
def ntpSeconds (dev : Nat) : Nat := dev / nsPerS + 2208988800

/-- Middle 32 bits of the NTP time of an instant. -/
def ntpMid (dev : Nat) : Nat := (ntpSeconds dev * 65536 + dev % nsPerS * 65536 / nsPerS) % 2 ^ 32

/-- The stream whose block a report is evaluated by. -/
def reportStream (m : M) (leg : Nat) : Option (Nat × Send) :=
  match (legSends m leg).find? fun s => s.2.kind == 1 with
  | some s => some s
  | none => (legSends m leg).head?

/-- One evaluation of the automatic estimate (R307). A gradient over no time at all is a free value. -/
def lineEval (leg : Nat) (l : Leg) (b : ReportBlock) (m : M) : M :=
  let t := getTLeg m leg
  let p := getProfile m l.profile
  let arrival := m.dev / 1000
  let rtt : Int := (((ntpMid m.dev + 2 ^ 33 - b.lsr - b.dlsr) % 2 ^ 32 * 1000000 / 65536 : Nat) : Int)
  let g : Int := if b.lsr = 0 then 0 else match t.prev with
    | none => 0
    | some (r0, a0) => if a0 = arrival then Config.freeInt m.drawn else ((rtt - r0) * 1000000).tdiv ((arrival : Int) - a0)
  let rs := logRate m.vault.mono 1000 t.sent
  let a :=
    if p.lossHi ≤ b.lost then t.auto * (512 - b.lost) / 512
    else if (p.gradHi : Int) ≤ g then (if t.auto < rs * p.backoff / 1000 then t.auto else rs * p.backoff / 1000)
    else if b.lost ≤ p.lossLo && g ≤ (p.gradLo : Int) then t.auto * (1000 + p.inc) / 1000
    else t.auto
  let a1 := if a < p.min then p.min else if p.max < a then p.max else a
  noteOut (.estimate leg a1)
    (setTLeg leg { t with auto := a1, loss := b.lost,
                          rtt := if b.lsr = 0 then t.rtt else hold 0xFFFFF (rtt.toNat / 100),
                          prev := if b.lsr = 0 then t.prev else some (rtt, arrival) } (draw m))

/-- The send stream of a leg with an SSRC. -/
def sendOfSsrc (m : M) (leg ssrc : Nat) : Option (Nat × Send) := (legSends m leg).find? fun s => s.2.ssrc == ssrc

def rtcpNack (leg : Nat) (n : Nat × List Nat) (m : M) : M :=
  match sendOfSsrc m leg n.1 with
  | none => m
  | some (k, _) => n.2.foldl (fun x q => nackOne k q x) (countSend k 7 1 m)

def rtcpPli (leg ssrc : Nat) (m : M) : M :=
  match sendOfSsrc m leg ssrc with
  | none => m
  | some (k, s) => if s.kind = 1 then refreshReq k 0 (countSend k 6 1 m) else countSend k 8 1 m

def rtcpOther (leg ssrc : Nat) (m : M) : M :=
  match sendOfSsrc m leg ssrc with
  | none => m
  | some (k, _) => countSend k 8 1 m

/-- How a received RTCP packet authenticates: 2 under the present generation, or with no SRTP; 1 on its second try under the
previous one (R153); 0 not at all. A half that a generation lacks authenticates nothing. -/
def rtcpAuth (r : Rtcp) (l : Leg) (m : M) : Nat :=
  let k := getSlot m l.keySlot
  let half (g : Option KeyGen) : Bool := match g with | some x => bit x.halves 0 | none => false
  if !legSrtp l || (r.authOk && half k.cur) then 2 else if r.prevOk && half (k.prev.map Prod.fst) then 1 else 0

/-- RTCP_RECEIVED: an authenticated packet of an armed leg teaches the destination, evaluates the line estimate, resends
and asks for key frames. -/
def rtcpReceived (r : Rtcp) (m0 : M) : M :=
  match getLeg m0 r.leg with
  | none => m0
  | some l =>
    let m := if legSrtp l then slotDue l.keySlot m0 else m0
    if !legCarries l || l.transport ≠ 0 then m0
    else if rtcpAuth r l m = 0 then authFail r.leg m
    else
      let m := if rtcpAuth r l m = 1 then count .cipLeg (keyDie r.leg) (keyIdx r.leg) 3 m else m
      let m1 := learnDest r.leg r.src r.srcPort m
      let m2 := match reportStream m1 r.leg with
        | some (_, s) => match r.blocks.find? fun b => b.ssrc == s.ssrc with
          | some b => if r.hasReport then lineEval r.leg l b m1 else m1
          | none => m1
        | none => m1
      let m3 := r.nacks.foldl (fun x n => rtcpNack r.leg n x) m2
      let m4 := r.plis.foldl (fun x n => rtcpPli r.leg n x) m3
      r.others.foldl (fun x n => rtcpOther r.leg n x) m4

def execRtcpReceived (r : Rtcp) (s : State) : Host.Outcome State Fault Refusal := lift (rtcpReceived r) s

/-- An RTCP interval drawn around rtcp_ms (RFC 3550): from half to one and a half times it. -/
def drawGap (ms : Nat) (m : M) : Nat := ms * 500000 + Config.freeNat m.drawn % (ms * 1000000 + 1)

/-- RTCP_SENDER_REPORT_TIMER (R297). -/
def senderReport (die idx : Nat) (m : M) : M :=
  let k := mkKey die idx
  match getSend m k, getLeg m (sendLeg k) with
  | some s, some l =>
    if !bit l.flags 2 || !legCarries l || !tickDue m (s.srAt + s.srGap) then m
    else
      let m1 := updSend k (fun x => { x with srAt := m.dev, srGap := drawGap l.rtcpMs m }) (draw m)
      if feedbackOn m && destKnown m (sendLeg k) l then
        rtcpOut 5 k [s.ssrc, ntpSeconds m.dev, (m.dev % nsPerS * 2 ^ 32 / nsPerS : Nat), s.sentPkts, s.sentBytes] m1
      else m1
  | _, _ => m

def execRtcpSenderReportTimer (die idx : Nat) (s : State) : Host.Outcome State Fault Refusal := lift (senderReport die idx) s

/-! ## States of send streams (R294) -/

/-- A change of state that no command on the stream made: event and action 0x0B87. -/
def sendState (k new cause : Nat) (m : M) : M :=
  match getSend m k with
  | none => m
  | some s =>
    if s.state = new then m
    else
      announce (netUnit (keyDie k)) 0x0B07 3 (sendOid k) [.u 2 (sendIndex k), .u 1 s.state, .u 1 new, .u 1 cause] 0
        (updSend k (fun x => { x with state := new, feeder := if new = 1 then none else x.feeder, paced := if new = 1 then [] else x.paced }) m)

/-- A member left with no membership becomes DEFINED. -/
def memberLeft (k : Nat) (m : M) : M :=
  match getSend m k with
  | none => m
  | some s => if s.state = 2 && s.feeder.isNone && (memberOf m k).isEmpty then sendState k 1 1 m else m

/-- Drop a member from an entry. -/
def dropMember (e k : Nat) (m : M) : M := memberLeft k (updFwd e (fun f => { f with members := f.members.filter (· != k) }) m)

/-- Release every membership of an entry and remove it. -/
def removeFwd (e : Nat) (m : M) : M :=
  match getFwd m e with
  | none => m
  | some f =>
    let m1 := { m with snd.fwds := tdel m.snd.fwds e }
    f.members.foldl (fun x k => memberLeft k x) (disown (mkOid 7 0 e) m1)

/-- A source becomes ABSENT: its entries become ABSENT, EV_FWD_SOURCE and action 0x0881 for each (R299). -/
def sourceGone (src : Nat) (m : M) : M :=
  (fwdOfSource m src).foldl (fun x e =>
    announce (netUnit (oidDie src)) 0x0801 2 (mkOid 7 0 e.1) [.u 4 e.1, .u 4 src] 0 (removeFwd e.1 x)) m

/-! ## Forwarding commands (R299, Table 13-7) -/

def fwdObj (d : Desc) (m : M) : Bool := oidOk m 7 false (oid d)
def fwdIdx (d : Desc) : Nat := oidIdx (oid d)
def fwdState (d : Desc) (m : M) : Nat := b2n (getFwd m (fwdIdx d)).isSome

/-- Codec of a source: of a kind 1 receive stream its format, of an origin its format. -/
def sourceCodec (m : M) (o : Nat) : Option Nat :=
  if oidCls o ≠ 0xA || oidDie o = 0 || decide (m.part.media < oidDie o) then none
  else if oidIdx o < 4096 then match tget? m.net.streams (oidKey o) with
    | some s => if s.kind = 1 then some s.format else none
    | none => none
  else match getSend m (oidKey o) with
    | some s => if s.kind = 1 && (encOf m s).isSome then some s.format else none
    | none => none

/-- pli_ms: 0 or 100 to 10,000. -/
def pliBad (n : Nat) : Bool := n != 0 && (decide (n < 100) || decide (10000 < n))

/-- Another ACTIVE entry has the payload's source and layer: INVALID, at its boundary too (R299). -/
def fwdTwice (d : Desc) (m : M) : Bool :=
  m.snd.fwds.any fun e => e.1 != fwdIdx d && e.2.source == pay d 0 4 && e.2.layer == pay d 4 1

def fwdSetSpec : CmdSpec :=
  { baseSpec 0x0801 permMedia with
    mask := mb 0 5 ||| mb 6 2
    names := fun d _ => [(pay d 0 4, off 0)]
    obj := fwdObj
    fields := fun d m =>
      firstBad
        [((sourceCodec m (pay d 0 4)).isNone, off 0), (decide (8 < pay d 4 1), off 4), (pliBad (pay d 6 2), off 6),
         (fwdTwice d m, 0x1A)]
    late := fun d m =>
      match firstFail [(fwdState d m == 0 && quotaFull m d 7, stResource, 7)] with
      | some f => some f
      | none => match getFwd m (fwdIdx d) with
        | some f => firstFail [(f.source != pay d 0 4 || f.layer != pay d 4 1, stConflict, 0)]
        | none => firstFail [(fwdTwice d m, stInvalid, 0x1A)]
    when := fun _ _ => some hubWindow
    ostate := fwdState
    apply := fun d m =>
      let e := fwdIdx d
      let f : Fwd := match getFwd m e with
        | some f => { f with pliMs := pay d 6 2 }
        | none => { source := pay d 0 4, layer := pay d 4 1, pliMs := pay d 6 2, members := [], lastPli := none }
      let m1 := { m with snd.fwds := tset m.snd.fwds e f }
      (if fwdState d m = 0 then own (oid d) (pathFn m d.path) m1 else m1,
       .done { reply stOK 0 1 with before := fwdState d m }) }

def execFwdSet (d : Desc) (s : State) : Host.Outcome State Fault Refusal := lift (hostRow fwdSetSpec d) s

def fwdDeleteSpec : CmdSpec :=
  { baseSpec 0x0802 permMedia with
    obj := fwdObj
    late := fun d m => firstFail [(fwdState d m == 0, stConflict, 0)]
    when := fun _ _ => some hubWindow
    ostate := fwdState
    apply := fun d m => (removeFwd (fwdIdx d) m, .done { reply stOK 0 0 with before := 1 }) }

def execFwdDelete (d : Desc) (s : State) : Host.Outcome State Fault Refusal := lift (hostRow fwdDeleteSpec d) s

def memberKey (d : Desc) : Nat := oidKey (pay d 0 4)

/-- The payload names a send stream id. -/
def memberOid (d : Desc) (m : M) : Bool := oidOk m 0xA false (pay d 0 4) && decide (4096 ≤ oidIdx (pay d 0 4))

/-- A stream that may be a member: kind 1, the source's codec, a leg that is DEFINED, ARMED or LIVE. -/
def memberFit (d : Desc) (m : M) : Bool :=
  match getSend m (memberKey d), getLeg m (sendLeg (memberKey d)) with
  | some s, some l =>
    s.kind == 1 && l.state != 4 &&
    (match getFwd m (fwdIdx d) with
     | some f => sourceCodec m f.source == some s.format
     | none => true)
  | _, _ => false

/-- Memberships of the whole part. -/
def memberships (m : M) : Nat := (m.snd.fwds.map fun e => e.2.members.length).sum

def isMember (d : Desc) (m : M) : Bool := match getFwd m (fwdIdx d) with
  | some f => f.members.contains (memberKey d)
  | none => false

def fwdMemberAddSpec : CmdSpec :=
  { baseSpec 0x0803 permMedia with
    mask := mb 0 4
    names := fun d _ => [(pay d 0 4, off 0)]
    obj := fwdObj
    fields := fun d m => firstBad [(!memberOid d m || !memberFit d m, off 0)]
    late := fun d m => firstFail
      [(!memberFit d m, stInvalid, off 0),
       (!isMember d m && (match getFwd m (fwdIdx d) with | some f => decide (7168 ≤ f.members.length) | none => false), stResource, 0x09),
       (!isMember d m && decide (262144 ≤ memberships m), stResource, 0x0A),
       (fwdState d m == 0, stConflict, 0),
       ((match getFwd m (fwdIdx d), getSend m (memberKey d) with
         | some f, some s => s.feeder.isSome || (memberOf m (memberKey d)).any fun e => e.2.source != f.source
         | _, _ => false), stConflict, 0)]
    when := fun _ _ => some hubWindow
    ostate := fwdState
    apply := fun d m =>
      let k := memberKey d
      if isMember d m then (m, okReply 1)
      else
        let was := streamSt m k
        let m1 := updSend k (fun s => { s with state := 2 }) (updFwd (fwdIdx d) (fun f => { f with members := f.members ++ [k] }) m)
        (if was = 1 then joinWait k m1 else m1, okReply 1) }

def execFwdMemberAdd (d : Desc) (s : State) : Host.Outcome State Fault Refusal := lift (hostRow fwdMemberAddSpec d) s

def fwdMemberRemoveSpec : CmdSpec :=
  { baseSpec 0x0804 permMedia with
    mask := mb 0 4
    names := fun d _ => [(pay d 0 4, off 0)]
    obj := fwdObj
    fields := fun d m => firstBad [(!memberOid d m, off 0)]
    late := fun d m => firstFail [(fwdState d m == 0 || !isMember d m, stConflict, 0)]
    when := fun _ _ => some hubWindow
    ostate := fwdState
    apply := fun d m => (dropMember (fwdIdx d) (memberKey d) m, okReply 1) }

def execFwdMemberRemove (d : Desc) (s : State) : Host.Outcome State Fault Refusal := lift (hostRow fwdMemberRemoveSpec d) s

end Sys2Proof.Machine
end

