-- ==== Sys2Proof/Machine/Flags.lean ====
section
/-!
DEFINITION. The arithmetic and flag computations of the signal engines (R346 to R348): wrapping and clamping of 72-bit
accumulators with GV and SV, extraction and 32-bit operations with OV and SV, and the comparison flags.
-/
namespace Sys2Proof.Machine

/-- A result with the flags it sets. -/
structure Arith where
  val : Nat
  gv : Bool
  sv : Bool
  ov : Bool
deriving DecidableEq, Repr

/-- A value as a signed integer. -/
def acc2i (a : BitVec 72) : Int := a.toInt
def word2i (w : Word) : Int := w.toInt

/-- The exact product of two Q1.31 values as a Q1.63 value (R346). -/
def prod63 (x y : Word) : Int := x.toInt * y.toInt * 2

def accMax : Int := 2 ^ 71 - 1
def accMin : Int := -(2 ^ 71)

/-- The result of an accumulating operation (R347): exact when it fits; else wrapped with GV, or clamped with SV. -/
def accumulate (s : Bool) (i : Int) : Arith :=
  if accMin ≤ i && decide (i ≤ accMax) then { val := tc 72 i, gv := false, sv := false, ov := false }
  else if s then { val := tc 72 (if i < accMin then accMin else accMax), gv := false, sv := true, ov := false }
  else { val := tc 72 i, gv := true, sv := false, ov := false }

/-- A 32-bit operation (R348): exact when it fits; else wrapped with OV, or clamped with SV. -/
def result32 (s : Bool) (i : Int) : Arith :=
  if -(2 ^ 31) ≤ i && decide (i ≤ 2 ^ 31 - 1) then { val := tc 32 i, gv := false, sv := false, ov := false }
  else if s then { val := tc 32 (if i < 0 then -(2 ^ 31) else 2 ^ 31 - 1), gv := false, sv := true, ov := false }
  else { val := tc 32 i, gv := false, sv := false, ov := true }

/-- EXT (R348): bits [63 + k : 32 + k]; when bits [71 : 63 + k] are not all equal, clamped by the sign or taken as they
are. -/
def extract (s : Bool) (a : BitVec 72) (k : Nat) : Arith :=
  let top := bits a.toNat (63 + k) (9 - k)
  let fits := top == 0 || top == 2 ^ (9 - k) - 1
  if fits then { val := bits a.toNat (32 + k) 32, gv := false, sv := false, ov := false }
  else if s then { val := if a.toInt < 0 then 0x80000000 else 0x7FFFFFFF, gv := false, sv := true, ov := false }
  else { val := bits a.toNat (32 + k) 32, gv := false, sv := false, ov := true }

/-- Flags n and z of TST and CMP. -/
def flagN (i : Int) : Bool := decide (i < 0)
def flagZ (i : Int) : Bool := decide (i = 0)

/-- Set the sticky flags a result sets. -/
def stick (r : Arith) (l : DLane) : DLane := { l with gv := l.gv || r.gv, sv := l.sv || r.sv, ov := l.ov || r.ov }

end Sys2Proof.Machine
end

