-- ==== Sys2Proof/Machine/Operands.lean ====
section
/-!
DEFINITION. The operand forms of the signal engines (chapter 15): instruction fields (R358), register codes (R359),
memories (R343, R356), the addressing of pointer moves (R345), and the writes in flight (R351).
-/
namespace Sys2Proof.Machine

/-! ## Fields of an instruction word (Table 15-9) -/

def opOf (w : Nat) : Nat := bits w 58 6
def sOf (w : Nat) : Bool := bit w 57
def dOf (w : Nat) : Nat := bits w 53 4
def xOf (w : Nat) : Nat := bits w 49 4
def yOf (w : Nat) : Nat := bits w 45 4

/-- Accumulator destination and source of form A. -/
def adOf (w : Nat) : Nat := bits w 53 2
def asOf (w : Nat) : Nat := bits w 49 2

/-- Register codes of forms I, M and D; immediate and address. -/
def r1Of (w : Nat) : Nat := bits w 52 6
def r2Of (w : Nat) : Nat := bits w 46 6
def immOf (w : Nat) : Nat := bits w 0 32
def adrOf (w : Nat) : Nat := bits w 0 15

/-- Condition and register of forms C and S. -/
def ccOf (w : Nat) : Nat := bits w 54 4
def rsOf (w : Nat) : Nat := bits w 54 4

def pMove (w : Nat) : Nat := bits w 22 10
def xMove (w : Nat) : Nat := bits w 11 11
def yMove (w : Nat) : Nat := bits w 0 11

/-! ## Registers (Tables 15-4 and 15-10) -/

def dlane0 : DLane :=
  { d := List.replicate 16 0, a := List.replicate 4 0, gv := false, sv := false, ov := false, n := false, z := false }

def getLane (e : Dsp) (l : Nat) : DLane := e.lanes.getD l dlane0

def updLane (l : Nat) (f : DLane → DLane) (e : Dsp) : Dsp := { e with lanes := e.lanes.set l (f (getLane e l)) }

/-- Lanes that execute: two on a wide pair. -/
def laneList (e : Dsp) : List Nat := if e.wide then [0, 1] else [0]

def dReg (e : Dsp) (l i : Nat) : Word := (getLane e l).d.getD i 0
def aReg (e : Dsp) (l i : Nat) : BitVec 72 := (getLane e l).a.getD i 0

/-- Active loop levels, 0 to 4. -/
def loopDepth (e : Dsp) : Nat := if e.active then e.lstk.length + 1 else 0

/-- ST as a lane reads it (Table 15-6). -/
def stWord (e : Dsp) (l : Nat) : Nat :=
  let x := getLane e l
  b2n x.gv * 2 ^ 31 + b2n x.sv * 2 ^ 30 + b2n x.ov * 2 ^ 29 + b2n x.n * 2 ^ 28 + b2n x.z * 2 ^ 27 + b2n e.ie * 2 ^ 26 +
  b2n e.winEn * 2 ^ 25 + b2n e.parEn * 2 ^ 24 + b2n e.pb * 2 ^ 23 + b2n e.c3 * 2 ^ 22 + b2n e.wide * 2 ^ 21 +
  l * 2 ^ 20 + b2n e.shadow * 2 ^ 19 + loopDepth e

/-- A write of ST: the fields marked RW. The enables are single, taken from lane 0. -/
def stWrite (l v : Nat) (e : Dsp) : Dsp :=
  let e1 := updLane l (fun x => { x with gv := bit v 31, sv := bit v 30, ov := bit v 29, n := bit v 28, z := bit v 27 }) e
  if l = 0 then { e1 with ie := bit v 26, winEn := bit v 25, parEn := bit v 24 } else e1

def ptr (e : Dsp) (i : Nat) : Nat := (e.p.getD i 0).toNat
def setPtr (i v : Nat) (e : Dsp) : Dsp := { e with p := e.p.set i (BitVec.ofNat 16 v) }

/-- A register by its code, as a 32-bit word: pointers, bases and lengths zero-extended, modifiers and A.G sign-extended. -/
def regRead (e : Dsp) (l c : Nat) : Nat :=
  if c < 0x10 then (dReg e l c).toNat
  else if c < 0x18 then ptr e (c - 0x10)
  else if c < 0x20 then (e.b.getD (c - 0x18) 0).toNat
  else if c < 0x28 then (e.l.getD (c - 0x20) 0).toNat
  else if c < 0x30 then tc 32 (sext 16 (e.m.getD (c - 0x28) 0).toNat)
  else if c < 0x34 then (aReg e l (c - 0x30)).toNat % 2 ^ 32
  else if c < 0x38 then bits (aReg e l (c - 0x34)).toNat 32 32
  else if c < 0x3C then tc 32 (sext 8 (bits (aReg e l (c - 0x38)).toNat 64 8))
  else if c = 0x3C then stWord e l
  else if c = 0x3D then e.loop.lc
  else if c = 0x3E then e.loop.ls
  else e.loop.le

def setAcc (l i : Nat) (v : BitVec 72) (e : Dsp) : Dsp := updLane l (fun x => { x with a := x.a.set i v }) e

/-- Replace bits [lo + len − 1 : lo] of a number. -/
def putBits (n lo len v : Nat) : Nat := n - bits n lo len * 2 ^ lo + v % 2 ^ len * 2 ^ lo

/-- A write of a register by its code. A register the lanes share takes lane 0's value (R356). -/
def regWrite (l c v : Nat) (e : Dsp) : Dsp :=
  if c < 0x10 then updLane l (fun x => { x with d := x.d.set c (BitVec.ofNat 32 v) }) e
  else if c = 0x3C then stWrite l v e
  else if 0x30 ≤ c && decide (c < 0x3C) then
    let i := (c - 0x30) % 4
    let a := (aReg e l i).toNat
    setAcc l i (BitVec.ofNat 72 (if c < 0x34 then putBits a 0 32 v else if c < 0x38 then putBits a 32 32 v else putBits a 64 8 v)) e
  else if l ≠ 0 then e
  else if c < 0x18 then setPtr (c - 0x10) v e
  else if c < 0x20 then { e with b := e.b.set (c - 0x18) (BitVec.ofNat 16 v) }
  else if c < 0x28 then { e with l := e.l.set (c - 0x20) (BitVec.ofNat 16 v) }
  else if c < 0x30 then { e with m := e.m.set (c - 0x28) (BitVec.ofNat 16 v) }
  else if c = 0x3D then { e with loop.lc := v % 2 ^ 16 }
  else if c = 0x3E then { e with loop.ls := v % 2 ^ 15 }
  else { e with loop.le := v % 2 ^ 15 }

/-! ## Memories (R343, R356) -/

/-- Words of X or Y memory. -/
def memWords (e : Dsp) : Nat := if e.wide then 32768 else 16384

/-- The lane whose memory an address of a lane reaches: bit 14 selects the partner in wide mode. -/
def memLane (e : Dsp) (l a : Nat) : Nat := if e.wide && bit a 14 then 1 - l else l

def memGet (e : Dsp) (yMem : Bool) (l a : Nat) : Word :=
  let t := if yMem then (if memLane e l a = 0 then e.y0 else e.y1) else if memLane e l a = 0 then e.x0 else e.x1
  tget t (a % 16384) 0

/-- Sparse write: a zero word is not listed. -/
def wordSet (t : Tbl Word) (a : Nat) (v : Word) : Tbl Word := if v = 0 then tdel t a else tset t a v

def memPut (yMem : Bool) (l a : Nat) (v : Word) (e : Dsp) : Dsp :=
  let i := a % 16384
  if yMem then
    if memLane e l a = 0 then { e with y0 := wordSet e.y0 i v } else { e with y1 := wordSet e.y1 i v }
  else if memLane e l a = 0 then { e with x0 := wordSet e.x0 i v } else { e with x1 := wordSet e.x1 i v }

/-- Program word at an address. -/
def progAt (e : Dsp) (a : Nat) : Nat := (e.prog.getD (a % memWords e) 0).toNat

/-! ## Addressing (R345) -/

/-- The lowest `k` bits of a number in reverse. -/
def bitRev : Nat → Nat → Nat
  | 0, _ => 0
  | k + 1, n => n % 2 * 2 ^ k + bitRev k (n / 2)

/-- The pointer after a move through it. -/
def ptrNext (p b l : Nat) (m : Int) (mode : Nat) : Nat :=
  if mode = 3 then
    let k := if l = 0 then 14 else Nat.log2 l
    let r := bitRev k (tc k ((p : Int) - b))
    tc 16 ((b : Int) + (bitRev k (tc k ((r : Int) + m)) : Nat))
  else
    let p1 : Int := (p : Int) + (if mode = 0 then 1 else if mode = 1 then m else -1)
    let p2 := if l ≠ 0 && decide ((b : Int) + l ≤ p1) then p1 - l else if l ≠ 0 && decide (p1 < (b : Int)) then p1 + l else p1
    tc 16 p2

/-- Pointer `n` after a move in a mode. -/
def ptrStep (e : Dsp) (n mode : Nat) : Nat :=
  ptrNext (ptr e n) (e.b.getD n 0).toNat (e.l.getD n 0).toNat (sext 16 (e.m.getD n 0).toNat) mode

/-! ## Writes in flight (R351) -/

def wrReg (due l c v : Nat) : DWr := { due := due, lane := l, tgt := .reg c, val := v, mac := false }

/-- Let one write land. -/
def land (w : DWr) (e : Dsp) : Dsp :=
  match w.tgt with
  | .reg c => regWrite w.lane c w.val e
  | .acc i => setAcc w.lane i (BitVec.ofNat 72 w.val) e
  | .gv => updLane w.lane (fun x => { x with gv := true }) e
  | .sv => updLane w.lane (fun x => { x with sv := true }) e

/-- The writes due in `n` slots from a first one land, slot by slot, in order of instruction within a slot. -/
def landSpan (first n : Nat) (e : Dsp) : Dsp :=
  (List.range n).foldl (fun x k =>
    (x.flight.filter fun w => w.due == first + k).foldl (fun y w => land w y)
      { x with flight := x.flight.filter fun w => w.due != first + k }) e

/-- Every write due by the present slot lands. -/
def commit (e : Dsp) : Dsp :=
  let first := e.flight.foldl (fun a w => if w.due < a then w.due else a) e.slot
  landSpan first (e.slot + 1 - first) e

/-- Every write in flight lands (R353). -/
def commitAll (e : Dsp) : Dsp :=
  let first := e.flight.foldl (fun a w => if w.due < a then w.due else a) e.slot
  let last := e.flight.foldl (fun a w => if a < w.due then w.due else a) e.slot
  landSpan first (last + 1 - first) e

/-- Writes in flight of a lane that fall due by the next slot and give way to a write of the present instruction (R351). -/
def overtake (l : Nat) (hit : DTgt → Bool) (e : Dsp) : Dsp :=
  { e with flight := e.flight.filter fun w => !(w.lane == l && hit w.tgt && decide (w.due ≤ e.slot + 1)) }

/-- A write in flight goes to a register, or to the flags of ST. -/
def toReg (c : Nat) : DTgt → Bool
  | .reg k => k == c
  | .gv => c == 0x3C
  | .sv => c == 0x3C
  | .acc _ => false

/-- A write that the next slot sees: it lands at the end of its instruction. -/
def writeNow (l c v : Nat) (e : Dsp) : Dsp := regWrite l c v (overtake l (toReg c) e)

/-- An accumulator result that the next slot sees: loads of its parts give way to it. -/
def accNow (l i : Nat) (v : BitVec 72) (e : Dsp) : Dsp :=
  setAcc l i v (overtake l (fun t => toReg (0x30 + i) t || toReg (0x34 + i) t || toReg (0x38 + i) t) e)

/-- LC, LS and LE are written by the present instruction. -/
def loopNow (e : Dsp) : Dsp := overtake 0 (fun t => toReg 0x3D t || toReg 0x3E t || toReg 0x3F t) e

/-- Flags of a lane that the present instruction writes, as bits of ST: a load of ST that falls due with them keeps them. -/
def flagsNow (l : Nat) (mask : BitVec 32) (v : BitVec 32) (e : Dsp) : Dsp :=
  { e with flight := e.flight.map fun w =>
      if w.lane == l && w.tgt == .reg 0x3C && decide (w.due ≤ e.slot + 1) then
        { w with val := ((BitVec.ofNat 32 w.val &&& ~~~mask) ||| (v &&& mask)).toNat }
      else w }

/-- Put a write in flight. -/
def later (w : DWr) (e : Dsp) : Dsp := { e with flight := e.flight ++ [w] }

/-- An accumulator as a MAC or MSU into it sees it: the newest result of MPY, MAC or MSU, else the register. -/
def accFwd (e : Dsp) (l i : Nat) : BitVec 72 :=
  match (e.flight.filter fun w => w.lane == l && w.tgt == .acc i && w.mac).getLast? with
  | some w => BitVec.ofNat 72 w.val
  | none => aReg e l i

/-! ## Moves of form A and of REP -/

/-- An X or Y move: enable, direction, Dn, Pn, mode. Loads are seen in the second slot after, stores land at once, in
program order; pointers are seen in the next slot. `src` holds the registers as the instruction found them. -/
def xyMove (yMem : Bool) (f : Nat) (src e : Dsp) : Dsp :=
  if !bit f 10 then e
  else
    let dn := bits f 5 4
    let pn := bits f 2 3
    let a := ptr src pn
    let e1 := (laneList src).foldl (fun x l =>
      if bit f 9 then memPut yMem l a (dReg src l dn) x
      else later (wrReg (src.slot + 2) l dn (memGet src yMem l a).toNat) x) e
    writeNow 0 (0x10 + pn) (ptrStep src pn (bits f 0 2)) e1

/-- A P move: bits [63:32] of a program word to Dn and [31:0] to Dn + 1. -/
def pMoveDo (f : Nat) (src e : Dsp) : Dsp :=
  if !bit f 9 then e
  else
    let dn := bits f 5 4
    let pn := bits f 2 3
    let w := progAt src (ptr src pn)
    let e1 := (laneList src).foldl (fun x l =>
      later (wrReg (src.slot + 2) l (dn + 1) (w % 2 ^ 32)) (later (wrReg (src.slot + 2) l dn (w / 2 ^ 32)) x)) e
    writeNow 0 (0x10 + pn) (ptrStep src pn (bits f 0 2)) e1

/-- The moves of a form A word. -/
def movesA (w : Nat) (src e : Dsp) : Dsp := yMoveDo (xMoveDo (pMoveDo (pMove w) src e))
where
  xMoveDo (e : Dsp) : Dsp := xyMove false (xMove w) src e
  yMoveDo (e : Dsp) : Dsp := xyMove true (yMove w) src e

/-- The moves that REP carries. -/
def movesR (w : Nat) (src e : Dsp) : Dsp := xyMove true (yMove w) src (xyMove false (xMove w) src e)

/-- Registers the moves of a word write: data registers of loads, and pointers. -/
def moveTargets (w : Nat) (withP : Bool) : List Nat :=
  let m (f : Nat) : List Nat :=
    if bit f 10 then (if bit f 9 then [] else [bits f 5 4]) ++ [0x10 + bits f 2 3] else []
  let p := pMove w
  (if withP && bit p 9 then [bits p 5 4, bits p 5 4 + 1, 0x10 + bits p 2 3] else []) ++ m (xMove w) ++ m (yMove w)

end Sys2Proof.Machine
end

