-- ==== Sys2Proof/Machine/Dsp.lean ====
section
/-!
DEFINITION. The signal engines' instructions (chapter 15): what each does, its pipeline, loops, branches, interrupts and
faults. A row of an instruction acts when the engine's next instruction is that one (assumption 40).
-/
namespace Sys2Proof.Machine

/-! ## Engines -/

def dspKey (die n : Nat) : Nat := mkKey die (12 + n)
def dspOid (die n : Nat) : Nat := mkOid 0xE die (12 + n)
def getDsp (m : M) (die n : Nat) : Option Dsp := tget? m.dsp.engines (dspKey die n)
def setDsp (die n : Nat) (e : Dsp) (m : M) : M := { m with dsp.engines := tset m.dsp.engines (dspKey die n) e }

/-- DSP_CNT of an engine. -/
def countDsp (die n k c : Nat) (m : M) : M := cntAdd { reg := .dspCnt, i := die, j := n, k := k } c m

/-! ## Illegal words (R351, R358, Table 15-8) -/

/-- Opcodes with an S column entry in Table 15-11. -/
def sOps : List Nat := [2, 3, 4, 5, 6, 8, 9, 0xB, 0xC, 0xF, 0x10]

def formA (op : Nat) : Bool := decide (op ≤ 0x13)
def formC (op : Nat) : Bool := decide (0x30 ≤ op) && decide (op ≤ 0x33)

/-- A non-zero field that a form A opcode does not use. -/
def fieldsBadA (op w : Nat) : Bool :=
  let d := dOf w
  let x := xOf w
  let y := yOf w
  let acc (n : Nat) : Bool := decide (n < 4)
  !(if op = 0 then d == 0 && x == 0 && y == 0
    else if op ≤ 3 then acc d
    else if op ≤ 5 then acc d && y == 0
    else if op = 6 then acc d && acc x && y == 0
    else if op ≤ 9 then acc d && x == 0 && y == 0
    else if op ≤ 0xB then acc d && x == 0
    else if op = 0xC then acc x && decide (y ≤ 8)
    else if op = 0xD then d == 0 && acc x && y == 0
    else if op = 0xE then d == 0
    else true)

/-- A move field with its enable clear must be zero; a P move names an even Dn. -/
def movesBad (w : Nat) : Bool :=
  (!bit (xMove w) 10 && xMove w != 0) || (!bit (yMove w) 10 && yMove w != 0)

def pMoveBad (w : Nat) : Bool := (!bit (pMove w) 9 && pMove w != 0) || bit (pMove w) 5

/-- Fields of each form. -/
def wordBad (w : Nat) : Bool :=
  let op := opOf w
  if formA op then bits w 32 13 != 0 || (sOf w && !sOps.contains op) || fieldsBadA op w || movesBad w || pMoveBad w
  else if op = 0x20 then bits w 32 20 != 0
  else if op = 0x21 then bits w 0 46 != 0
  else if 0x22 ≤ op && decide (op ≤ 0x25) then bits w 15 37 != 0
  else if formC op then
    decide (10 < ccOf w) || bits w 15 39 != 0 || (decide (0x32 ≤ op) && adrOf w != 0) || (op == 0x33 && ccOf w != 0)
  else if op = 0x34 then bits w 22 5 != 0 || (bit w 57 && bits w 45 12 != 0) || movesBad w
  else if op = 0x35 || op = 0x38 then bits w 0 58 != 0
  else if op = 0x36 || op = 0x37 then bits w 0 54 != 0 || decide (8 ≤ rsOf w)
  else if op = 0x39 || op = 0x3A then bits w 0 54 != 0
  else true

/-- Registers the operation of a word writes, by code. -/
def opTargets (w : Nat) : List Nat :=
  let op := opOf w
  if op = 0xC || (0xF ≤ op && decide (op ≤ 0x13)) then [dOf w] else []

/-- The accumulator that a word other than MPY, MAC or MSU writes. -/
def accTarget (w : Nat) : Option Nat :=
  let op := opOf w
  if 4 ≤ op && decide (op ≤ 0xB) then some (adOf w)
  else if (op == 0x20 || op == 0x21 || op == 0x22 || op == 0x24) && decide (0x30 ≤ r1Of w) && decide (r1Of w < 0x3C) then
    some ((r1Of w - 0x30) % 4)
  else none

/-- Illegal by R351: an accumulator written in either slot after a multiply writes it, or two writes to one register. -/
def hazard (e : Dsp) (w : Nat) : Bool :=
  let op := opOf w
  (match accTarget w with
   | some a => e.macAt.any fun p => p.1 == a && (e.slot == p.2 + 1 || e.slot == p.2 + 2)
   | none => false) ||
  ((formA op || op == 0x34) && !(opTargets w ++ moveTargets w (formA op)).Nodup)

/-! ## Conditions and faults (R352, R357, R360) -/

def condTrue (e : Dsp) (cc : Nat) : Bool :=
  let l := getLane e 0
  match cc with
  | 0 => true
  | 1 => l.z
  | 2 => !l.z
  | 3 => l.n
  | 4 => !l.n
  | 5 => !l.n && !l.z
  | 6 => l.n || l.z
  | 7 => l.gv
  | 8 => l.sv
  | 9 => l.ov
  | _ => e.active && e.loop.lc == 1

/-- Count of a REP. -/
def repCount (e : Dsp) (w : Nat) : Nat := if bit w 57 then (dReg e 0 (bits w 41 4)).toNat % 65536 else bits w 41 16

/-- Loop levels that POPL reads, level 0 first: word 7 is read first, just below the pointer (assumption 41). -/
def poplWords (e : Dsp) (p : Nat) : List Nat × Nat :=
  (List.range 8).foldl (fun a _ =>
    let q := ptrNext a.2 (e.b.getD p 0).toNat (e.l.getD p 0).toNat 0 2
    ((memGet e false 0 q).toNat :: a.1, q)) ([], ptr e p)

def poplLevels (ws : List Nat) : List (Bool × Loop) :=
  (List.range 4).map fun j =>
    (bit (ws.getD (2 * j + 1) 0) 31,
     { lc := bits (ws.getD (2 * j) 0) 16 16, ls := bits (ws.getD (2 * j) 0) 0 15, le := bits (ws.getD (2 * j + 1) 0) 0 15,
       later := false })

/-- Valid levels come first. -/
def validFirst : List (Bool × Loop) → Bool
  | [] => true
  | (true, _) :: r => validFirst r
  | (false, _) :: r => r.all fun x => !x.1

/-- The fault a word raises before it takes effect, by code. -/
def wordFault (e : Dsp) (w : Nat) : Option Nat :=
  let op := opOf w
  if wordBad w || hazard e w then some 1
  else if e.delay && (formC op || op == 0x34 || op == 0x38 || op == 0x39) then some 2
  else if op = 0x34 && repCount e w ≠ 0 && e.active && decide (3 ≤ e.lstk.length) then some 3
  else if op = 0x37 && !validFirst (poplLevels (poplWords e (rsOf w)).1) then some 3
  else if op = 0x31 && condTrue e (ccOf w) && decide (16 ≤ e.pcstk.length) then some 4
  else if (op = 0x33 || (op = 0x32 && condTrue e (ccOf w))) && e.pcstk.isEmpty then some 5
  else if op = 0x3A && !(e.hand.any fun h => h.1 == (dReg e 0 (rsOf w)).toNat) then some 6
  else none

/-! ## Halts (R357) -/

/-- The state of an engine changes: EV_DSP_STATE, journalled when no command made the change (R366). -/
def dspState (die n old new cause : Nat) (m : M) : M :=
  if cause = 0 then raise 0x1503 3 (dspOid die n) [.u 1 old, .u 1 new, .u 1 cause] m
  else announce (unitPath die (12 + n)) 0x1503 3 (dspOid die n) [.u 1 old, .u 1 new, .u 1 cause] 0 m

/-- The item of an encode task is complete or void; the task's flow is named with its die. -/
def flowEnd (t : DTask) (st : Nat) (m : M) : M :=
  let die := t.flow / 4096
  let f := t.flow % 4096
  dspSettle die f (setFlow die f (flowMark (fun i => i.token == t.token) st (getFlow m die f)) m)

/-- A task that falls to a halted engine is voided (R357). -/
def voidTask (die n : Nat) (t : DTask) (m : M) : M :=
  let m1 := countDsp die n 3 1 m
  if t.decode then m1
  else flowEnd t 2 m1

/-- A task belongs to an instance of the engine. -/
def taskOf (m : M) (n : Nat) (t : DTask) : Bool := match tget? m.dsp.insts t.stream with
  | some i => i.engine == n
  | none => false

/-- Tasks of an engine, waiting and in hand, are voided. -/
def voidTasks (die n : Nat) (m : M) : M :=
  let l := tget m.tsk.ready die []
  let mine := l.filter (taskOf m n)
  let inHand := match getDsp m die n with
    | some e => e.hand.map Prod.snd
    | none => []
  let m1 := { m with tsk.ready := tset m.tsk.ready die (l.filter fun t => !taskOf m n t) }
  let m2 := match getDsp m1 die n with
    | some e => setDsp die n { e with hand := [] } m1
    | none => m1
  (inHand ++ mine).foldl (fun x t => voidTask die n t x) m2

/-- Halt an engine with a fault code at its PC: HALTED, recorded, raised, and journalled unless DSP_HALT did it. -/
def dspHalt (die n code : Nat) (m : M) : M :=
  match getDsp m die n with
  | none => m
  | some e =>
    let data : List Item := [.u 1 code, .u 2 e.pc]
    let m1 := setDsp die n { e with state := 2, fault := code, faultPc := e.pc } (countDsp die n 4 1 m)
    let m2 := if code = 7 then raise 0x1501 1 (dspOid die n) data m1
      else announce (unitPath die (12 + n)) 0x1501 1 (dspOid die n) data 0 m1
    voidTasks die n (dspState die n e.state 2 (if code = 7 then 0 else 1) m2)

/-! ## Completing an instruction (R349 to R353) -/

/-- The repeat cache supplies the instruction: an iteration after the first of an innermost loop of 16 words or fewer. -/
def cached350 (e : Dsp) : Bool :=
  e.active && e.loop.later && decide (e.loop.ls ≤ e.pc) && decide (e.pc ≤ e.loop.le) && decide (e.loop.le + 1 - e.loop.ls ≤ 16)

/-- Slots an instruction costs. -/
def slotCost (e : Dsp) (w : Nat) : Nat :=
  (if opOf w = 0x36 || opOf w = 0x37 then 8 else 1) + (if formA (opOf w) && bit (pMove w) 9 && !cached350 e then 1 else 0)

/-- The active loop ends: LSTK pops into LC, LS and LE. -/
def popLoop (e : Dsp) : Dsp :=
  match e.lstk with
  | l :: r => { e with loop := l, lstk := r }
  | [] => { e with active := false, loop := { lc := 0, ls := 0, le := 0, later := false } }

/-- After an instruction in sequence: loop back, end the loop, or go on. -/
def sequence (pc : Nat) (e : Dsp) : Dsp :=
  let next := (pc + 1) % 32768
  if e.active && e.loop.le == pc then
    if 1 < e.loop.lc then
      let e1 := overtake 0 (toReg 0x3D) e
      { e1 with loop.lc := e.loop.lc - 1, loop.later := true, pc := e.loop.ls }
    else if e.loop.lc = 1 then { popLoop (loopNow e) with pc := next }
    else { e with pc := next }
  else { e with pc := next }

/-- Exchange the C3 shadow set (R355). -/
def swapShadow (e : Dsp) : Dsp :=
  let lanes := [0, 1].map fun l =>
    let x := getLane e l
    { x with d := e.sset.d.getD l (List.replicate 8 0) ++ x.d.drop 8, a := e.sset.a.getD l (List.replicate 2 0) ++ x.a.drop 2 }
  let kept : DShadow :=
    { d := [0, 1].map fun l => (getLane e l).d.take 8, a := [0, 1].map fun l => (getLane e l).a.take 2, p := e.p.take 4,
      active := e.active, loop := e.loop, lstk := e.lstk }
  { e with lanes := lanes, p := e.sset.p ++ e.p.drop 4, active := e.sset.active, loop := e.sset.loop, lstk := e.sset.lstk,
           sset := kept, shadow := !e.shadow }

/-- The end of an RTI's delay slot: PC and ST come back, and in C3 the set. -/
def rtiEnd (e : Dsp) : Dsp :=
  match e.pcstk with
  | (pc, st) :: r =>
    let e1 := stWrite 0 st { e with pc := pc, pcstk := r }
    if e1.c3 && e1.shadow then swapShadow e1 else e1
  | [] => e

/-- Complete an instruction: its cost in slots, and where execution goes on. `old` is the engine as the instruction found
it; `next` a place the instruction itself chose. -/
def complete (old : Dsp) (w : Nat) (e : Dsp) (next : Option Nat) : Dsp :=
  let e1 := { e with macAt := e.macAt.filter fun p => decide (old.slot < p.2 + 4) }
  let e2 :=
    if old.delay && old.rti then rtiEnd e1
    else match (if old.delay then old.target else none) with
      | some t => { e1 with pc := t }
      | none => match next with
        | some n => { e1 with pc := n % 32768 }
        | none => sequence old.pc e1
  { e2 with slot := old.slot + slotCost old w }

/-- What an instruction does to its engine: the engine after it, and a place to go on at. -/
abbrev DBody := Nat → Dsp → Dsp × Option Nat

/-- The engine may issue: RUNNING, begun, and not waiting; a GETT that waits is issued again. -/
def mayIssue (e : Dsp) (op : Nat) : Bool := e.state == 1 && e.started && (e.idle == 0 || (e.idle == 2 && op == 0x39))

/-- The row of an instruction: it acts when the next instruction of the engine has its opcode, unless that faults. -/
def dspDo (op : Nat) (body : DBody) (die n : Nat) (m : M) : M :=
  match getDsp m die n with
  | none => m
  | some e0 =>
    if !mayIssue e0 op then m
    else
      let e := commit e0
      let w := progAt e e.pc
      if opOf w ≠ op then m
      else match wordFault e w with
        | some c => dspHalt die n c (setDsp die n e m)
        | none =>
          let r := body w { e with delay := false, target := none, rti := false }
          setDsp die n (complete e w r.1 r.2) m

/-! ## Form A operations -/

/-- The sticky flags of a result. -/
def stickNow (l : Nat) (r : Arith) (e : Dsp) : Dsp :=
  let f : BitVec 32 := BitVec.ofNat 32 (b2n r.gv * 2 ^ 31 + b2n r.sv * 2 ^ 30 + b2n r.ov * 2 ^ 29)
  updLane l (stick r) (flagsNow l f f e)

/-- A result into an accumulator that the next slot sees. -/
def putAcc (l i : Nat) (r : Arith) (e : Dsp) : Dsp := stickNow l r (accNow l i (BitVec.ofNat 72 r.val) e)

/-- A result into a data register that the next slot sees. -/
def putD (l i : Nat) (r : Arith) (e : Dsp) : Dsp := stickNow l r (writeNow l i r.val e)

/-- A multiply result: it falls due three slots later, with its flags (Table 15-7). -/
def putMac (src : Dsp) (l i : Nat) (r : Arith) (e : Dsp) : Dsp :=
  let due := src.slot + 3
  let fl (b : Bool) (t : DTgt) (x : Dsp) : Dsp := if b then later { due := due, lane := l, tgt := t, val := 1, mac := true } x else x
  fl r.sv .sv (fl r.gv .gv (later { due := due, lane := l, tgt := .acc i, val := r.val, mac := true } e))

/-- A per-lane operation with the moves of its word; operands are read before any result is written. -/
def aluA (f : Nat → Dsp → Dsp) : DBody := fun w e =>
  (movesA w e ((laneList e).foldl (fun x l => f l x) e), none)

def macBody (mul : Bool) (sign : Int) : DBody := fun w e =>
  let f (l : Nat) (x : Dsp) : Dsp :=
    let p := prod63 (dReg e l (xOf w)) (dReg e l (yOf w))
    putMac e l (adOf w)
      (if mul then { val := tc 72 p, gv := false, sv := false, ov := false }
       else accumulate (sOf w) (acc2i (accFwd e l (adOf w)) + sign * p)) x
  let r := aluA f w e
  ({ r.1 with macAt := (adOf w, e.slot) :: r.1.macAt }, r.2)

/-- An accumulating operation other than a multiply: the exact value, then R347. -/
def accBody (f : Nat → Dsp → Nat → Int) : DBody := fun w e =>
  aluA (fun l x => putAcc l (adOf w) (accumulate (sOf w) (f w e l)) x) w e

def parBody : DBody := aluA fun _ x => x
def mpyBody : DBody := macBody true 1
def addBody (sign : Int) : DBody := accBody fun w e l =>
  acc2i (aReg e l (adOf w)) + sign * (word2i (dReg e l (xOf w)) * 2 ^ 32)
def addaBody : DBody := accBody fun w e l => acc2i (aReg e l (adOf w)) + acc2i (aReg e l (asOf w))
def clrBody : DBody := fun w e => aluA (fun l x => accNow l (adOf w) 0 x) w e
def negBody : DBody := accBody fun w e l => -acc2i (aReg e l (adOf w))
def absBody : DBody := accBody fun w e l => ((acc2i (aReg e l (adOf w))).natAbs : Int)
def asrBody : DBody := fun w e =>
  aluA (fun l x => accNow l (adOf w) (BitVec.ofInt 72 (acc2i (aReg e l (adOf w)) / 2 ^ (yOf w + 1))) x) w e
def aslBody : DBody := accBody fun w e l => acc2i (aReg e l (adOf w)) * 2 ^ (yOf w + 1)
def extBody : DBody := fun w e => aluA (fun l x => putD l (dOf w) (extract (sOf w) (aReg e l (asOf w)) (yOf w)) x) w e

def setNZ (l : Nat) (n z : Bool) (e : Dsp) : Dsp :=
  updLane l (fun x => { x with n := n, z := z }) (flagsNow l 0x18000000 (BitVec.ofNat 32 (b2n n * 2 ^ 28 + b2n z * 2 ^ 27)) e)

def tstBody : DBody := fun w e =>
  aluA (fun l x => setNZ l (flagN (acc2i (aReg e l (asOf w)))) (flagZ (acc2i (aReg e l (asOf w)))) x) w e
def cmpBody : DBody := fun w e =>
  aluA (fun l x =>
    let a := word2i (dReg e l (xOf w))
    let b := word2i (dReg e l (yOf w))
    setNZ l (flagN (a - b)) (flagZ (a - b)) x) w e
def arith32Body (sign : Int) : DBody := fun w e =>
  aluA (fun l x => putD l (dOf w)
    (result32 (sOf w) (word2i (dReg e l (xOf w)) + sign * word2i (dReg e l (yOf w)))) x) w e
def logicBody (f : Word → Word → Word) : DBody := fun w e =>
  aluA (fun l x => writeNow l (dOf w) (f (dReg e l (xOf w)) (dReg e l (yOf w))).toNat x) w e

/-! ## Other forms -/

def perLane (f : Nat → Dsp → Dsp) (e : Dsp) : Dsp × Option Nat := ((laneList e).foldl (fun x l => f l x) e, none)

def ldiBody : DBody := fun w e => perLane (fun l x => writeNow l (r1Of w) (immOf w) x) e
def movBody : DBody := fun w e => perLane (fun l x => writeNow l (r1Of w) (regRead e l (r2Of w)) x) e
def ldBody (yMem : Bool) : DBody := fun w e =>
  perLane (fun l x => later (wrReg (e.slot + 2) l (r1Of w) (memGet e yMem l (adrOf w)).toNat) x) e
def stBody (yMem : Bool) : DBody := fun w e =>
  perLane (fun l x => memPut yMem l (adrOf w) (BitVec.ofNat 32 (regRead e l (r1Of w))) x) e

/-- A branch: one delay slot, then the target when it is taken. -/
def brBody : DBody := fun w e =>
  ({ e with delay := true, target := if condTrue e (ccOf w) then some (adrOf w) else none }, none)

def callBody : DBody := fun w e =>
  if condTrue e (ccOf w) then
    ({ e with delay := true, target := some (adrOf w), pcstk := ((e.pc + 2) % 32768, stWord e 0) :: e.pcstk }, none)
  else ({ e with delay := true }, none)

def retBody : DBody := fun w e =>
  if condTrue e (ccOf w) then
    ({ e with delay := true, target := e.pcstk.head?.map Prod.fst, pcstk := e.pcstk.drop 1 }, none)
  else ({ e with delay := true }, none)

def rtiBody : DBody := fun _ e => ({ e with delay := true, rti := true }, none)

/-- REP (R349): count 0 skips the body; an active loop is pushed. -/
def repBody : DBody := fun w e =>
  let c := repCount e w
  let ls := (e.pc + 1) % 32768
  let le := (ls + bits w 27 14) % 32768
  let e1 := movesR w e e
  if c = 0 then (e1, some (le + 1))
  else ({ loopNow e1 with
            active := true, loop := { lc := c, ls := ls, le := le, later := false },
            lstk := if e.active then e.loop :: e.lstk else e.lstk }, none)

def endlBody : DBody := fun _ e => (if e.active then popLoop (loopNow e) else e, none)

/-- Loop levels, outermost first. -/
def levels (e : Dsp) : List Loop := if e.active then e.lstk.reverse ++ [e.loop] else []

/-- The 8 words of PUSHL. -/
def pushlWords (e : Dsp) : List Nat :=
  (List.range 4).flatMap fun j => match (levels e)[j]? with
    | some l => [l.lc * 2 ^ 16 + l.ls, 2 ^ 31 + l.le]
    | none => [0, 0]

def pushlBody : DBody := fun w e =>
  let p := rsOf w
  let r := (pushlWords e).foldl (fun a v =>
    ((laneList e).foldl (fun x l => memPut false l a.2 (BitVec.ofNat 32 v) x) a.1,
     ptrNext a.2 (e.b.getD p 0).toNat (e.l.getD p 0).toNat 0 0)) (loopNow e, ptr e p)
  (writeNow 0 (0x10 + p) r.2 { r.1 with active := false, loop := { lc := 0, ls := 0, le := 0, later := false }, lstk := [] }, none)

def poplBody : DBody := fun w e =>
  let p := rsOf w
  let r := poplWords e p
  let ls := ((poplLevels r.1).filter fun x => x.1).map Prod.snd
  let e1 := writeNow 0 (0x10 + p) r.2 (loopNow e)
  (match ls.reverse with
   | l :: outer => { e1 with active := true, loop := l, lstk := outer }
   | [] => { e1 with active := false, loop := { lc := 0, ls := 0, le := 0, later := false }, lstk := [] }, none)

def idleBody : DBody := fun _ e => ({ e with idle := 1 }, none)

def execPar (die n : Nat) (s : State) : Host.Outcome State Fault Refusal := lift (dspDo 0x00 parBody die n) s
def execMpy (die n : Nat) (s : State) : Host.Outcome State Fault Refusal := lift (dspDo 0x01 mpyBody die n) s
def execMac (die n : Nat) (s : State) : Host.Outcome State Fault Refusal := lift (dspDo 0x02 (macBody false 1) die n) s
def execMsu (die n : Nat) (s : State) : Host.Outcome State Fault Refusal := lift (dspDo 0x03 (macBody false (-1)) die n) s
def execAdd (die n : Nat) (s : State) : Host.Outcome State Fault Refusal := lift (dspDo 0x04 (addBody 1) die n) s
def execSub (die n : Nat) (s : State) : Host.Outcome State Fault Refusal := lift (dspDo 0x05 (addBody (-1)) die n) s
def execAdda (die n : Nat) (s : State) : Host.Outcome State Fault Refusal := lift (dspDo 0x06 addaBody die n) s
def execClr (die n : Nat) (s : State) : Host.Outcome State Fault Refusal := lift (dspDo 0x07 clrBody die n) s
def execNeg (die n : Nat) (s : State) : Host.Outcome State Fault Refusal := lift (dspDo 0x08 negBody die n) s
def execAbs (die n : Nat) (s : State) : Host.Outcome State Fault Refusal := lift (dspDo 0x09 absBody die n) s
def execAsr (die n : Nat) (s : State) : Host.Outcome State Fault Refusal := lift (dspDo 0x0A asrBody die n) s
def execAsl (die n : Nat) (s : State) : Host.Outcome State Fault Refusal := lift (dspDo 0x0B aslBody die n) s
def execExt (die n : Nat) (s : State) : Host.Outcome State Fault Refusal := lift (dspDo 0x0C extBody die n) s
def execTst (die n : Nat) (s : State) : Host.Outcome State Fault Refusal := lift (dspDo 0x0D tstBody die n) s
def execCmp (die n : Nat) (s : State) : Host.Outcome State Fault Refusal := lift (dspDo 0x0E cmpBody die n) s
def execAddd (die n : Nat) (s : State) : Host.Outcome State Fault Refusal := lift (dspDo 0x0F (arith32Body 1) die n) s
def execSubd (die n : Nat) (s : State) : Host.Outcome State Fault Refusal := lift (dspDo 0x10 (arith32Body (-1)) die n) s
def execAnd (die n : Nat) (s : State) : Host.Outcome State Fault Refusal := lift (dspDo 0x11 (logicBody (· &&& ·)) die n) s
def execOr (die n : Nat) (s : State) : Host.Outcome State Fault Refusal := lift (dspDo 0x12 (logicBody (· ||| ·)) die n) s
def execXor (die n : Nat) (s : State) : Host.Outcome State Fault Refusal := lift (dspDo 0x13 (logicBody (· ^^^ ·)) die n) s
def execLdi (die n : Nat) (s : State) : Host.Outcome State Fault Refusal := lift (dspDo 0x20 ldiBody die n) s
def execMov (die n : Nat) (s : State) : Host.Outcome State Fault Refusal := lift (dspDo 0x21 movBody die n) s
def execLdx (die n : Nat) (s : State) : Host.Outcome State Fault Refusal := lift (dspDo 0x22 (ldBody false) die n) s
def execStx (die n : Nat) (s : State) : Host.Outcome State Fault Refusal := lift (dspDo 0x23 (stBody false) die n) s
def execLdy (die n : Nat) (s : State) : Host.Outcome State Fault Refusal := lift (dspDo 0x24 (ldBody true) die n) s
def execSty (die n : Nat) (s : State) : Host.Outcome State Fault Refusal := lift (dspDo 0x25 (stBody true) die n) s
def execBr (die n : Nat) (s : State) : Host.Outcome State Fault Refusal := lift (dspDo 0x30 brBody die n) s
def execCall (die n : Nat) (s : State) : Host.Outcome State Fault Refusal := lift (dspDo 0x31 callBody die n) s
def execRet (die n : Nat) (s : State) : Host.Outcome State Fault Refusal := lift (dspDo 0x32 retBody die n) s
def execRti (die n : Nat) (s : State) : Host.Outcome State Fault Refusal := lift (dspDo 0x33 rtiBody die n) s
def execRep (die n : Nat) (s : State) : Host.Outcome State Fault Refusal := lift (dspDo 0x34 repBody die n) s
def execEndl (die n : Nat) (s : State) : Host.Outcome State Fault Refusal := lift (dspDo 0x35 endlBody die n) s
def execPushl (die n : Nat) (s : State) : Host.Outcome State Fault Refusal := lift (dspDo 0x36 pushlBody die n) s
def execPopl (die n : Nat) (s : State) : Host.Outcome State Fault Refusal := lift (dspDo 0x37 poplBody die n) s
def execIdle (die n : Nat) (s : State) : Host.Outcome State Fault Refusal := lift (dspDo 0x38 idleBody die n) s

/-! ## Tasks (R321, R364) -/

/-- The task an engine takes next: the highest level that holds one of its instances' tasks, then the oldest. -/
def nextTask (m : M) (die n : Nat) : Option DTask :=
  ((tget m.tsk.ready die []).filter (taskOf m n)).foldl (fun a t => match a with
    | none => some t
    | some b => if t.level < b.level then some t else some b) none

/-- GETT Dd: the task's descriptor goes to X 0x0000 to 0x0007 and its handle to Dd; their contents belong to the firmware
and are free values. With no task it waits, not busy, and is issued again. -/
def dspGett (die n : Nat) (m : M) : M :=
  match getDsp m die n with
  | none => m
  | some e0 =>
    if !mayIssue e0 0x39 then m
    else
      let e := commit e0
      let w := progAt e e.pc
      if opOf w ≠ 0x39 then m
      else match wordFault e w with
        | some c => dspHalt die n c (setDsp die n e m)
        | none =>
          match nextTask m die n with
          | none => setDsp die n { e with idle := 2 } m
          | some t =>
            let h := Config.freeNat m.drawn % 2 ^ 32
            let e1 := (List.range 8).foldl (fun x i =>
              memPut false 0 i (BitVec.ofNat 32 (Config.freeNat (m.drawn + 1 + i))) x)
              { e with delay := false, target := none, rti := false, idle := 0, hand := e.hand ++ [(h, t)] }
            let e2 := writeNow 0 (rsOf w) h e1
            let m1 := { m with drawn := m.drawn + 9, tsk.ready := tset m.tsk.ready die ((tget m.tsk.ready die []).erase t) }
            setDsp die n (complete e w e2 none) m1

def execGett (die n : Nat) (s : State) : Host.Outcome State Fault Refusal := lift (dspGett die n) s

/-- Samples of a decoded frame reach the mixer at their presentation time (R234). -/
def pcmTake (stream seq at_ : Nat) (chans : List (List Int)) (m : M) : M :=
  { m with net.streams := tupd m.net.streams stream fun s =>
      { s with pcm := s.pcm ++ [{ seq := seq, at_ := at_, chans := chans }] } }

/-- A task completes: its item is handed on under R326. -/
def taskDone (die n : Nat) (t : DTask) (m : M) : M :=
  let m1 := countDsp die n 2 1 m
  if t.decode then pcmTake t.stream t.token t.ts t.samples m1
  else flowEnd t 1 m1

/-- PUTT Ds. -/
def dspPutt (die n : Nat) (m : M) : M :=
  match getDsp m die n with
  | none => m
  | some e0 =>
    if !mayIssue e0 0x3A then m
    else
      let e := commit e0
      let w := progAt e e.pc
      if opOf w ≠ 0x3A then m
      else match wordFault e w with
        | some c => dspHalt die n c (setDsp die n e m)
        | none =>
          match e.hand.find? fun h => h.1 == (dReg e 0 (rsOf w)).toNat with
          | none => m
          | some h =>
            let e1 := { e with delay := false, target := none, rti := false, hand := e.hand.erase h }
            taskDone die n h.2 (setDsp die n (complete e w e1 none) m)

def execPutt (die n : Nat) (s : State) : Host.Outcome State Fault Refusal := lift (dspPutt die n) s

/-- A task for the signal engines is made ready, unless its engine is halted: it is then voided (R357). -/
def taskReady (die : Nat) (t : DTask) (m : M) : M :=
  match tget? m.dsp.insts t.stream with
  | none => m
  | some i =>
    match getDsp m die i.engine with
    | none => m
    | some e =>
      if e.state = 2 then voidTask die i.engine t m
      else { m with tsk.ready := tset m.tsk.ready die (tget m.tsk.ready die [] ++ [t]) }

/-! ## Interrupts and faults -/

/-- DSP_INTERRUPT_ENTRY (R353, R355): the window interrupt before the parameter interrupt. -/
def dspInterrupt (die n : Nat) (m : M) : M :=
  match getDsp m die n with
  | none => m
  | some e0 =>
    let win := e0.winEn && e0.winDue
    let par := e0.parEn && e0.parDue
    if e0.state ≠ 1 || !e0.started || e0.delay || !e0.ie || !(win || par) || (e0.c3 && e0.shadow) then m
    else
      let e := commitAll e0
      if 16 ≤ e.pcstk.length then dspHalt die n 4 (setDsp die n e m)
      else
        let e1 := { e with pcstk := (e.pc, stWord e 0) :: e.pcstk }
        let e2 := if e1.c3 then swapShadow e1 else e1
        setDsp die n { e2 with
          ie := false, pc := if win then 2 else 4, winDue := if win then false else e2.winDue,
          parDue := if win then e2.parDue else false, idle := 0, slot := e2.slot + 3 } m

def execDspInterruptEntry (die n : Nat) (s : State) : Host.Outcome State Fault Refusal := lift (dspInterrupt die n) s

/-- DSP_FAULT (R357): the next instruction faults and the engine halts before it takes effect. -/
def dspFault (die n : Nat) (m : M) : M :=
  match getDsp m die n with
  | none => m
  | some e0 =>
    let e := commit e0
    let w := progAt e e.pc
    if !mayIssue e0 (opOf w) then m
    else match wordFault e w with
      | some c => dspHalt die n c (setDsp die n e m)
      | none => m

def execDspFault (die n : Nat) (s : State) : Host.Outcome State Fault Refusal := lift (dspFault die n) s

/-! ## Loading (R337) -/

def shadowReset : DShadow :=
  { d := [List.replicate 8 0, List.replicate 8 0], a := [List.replicate 2 0, List.replicate 2 0], p := List.replicate 4 0,
    active := false, loop := { lc := 0, ls := 0, le := 0, later := false }, lstk := [] }

/-- Words of an image from address 0, zeros unlisted. -/
def memOf (ws : List Word) : Tbl Word := (ws.zipIdx.filter fun p => p.1 != 0).map fun p => (p.2, p.1)

/-- An engine as loading leaves it: memories from the blob, every register zero, execution from the reset vector at the
next audio window start of the die. -/
def dspLoad (b : Blob) (c3 wide : Bool) : Dsp where
  state := 1
  blob := b.id
  c3 := c3
  wide := wide
  fault := 0
  faultPc := 0
  prog := b.prog
  x0 := memOf b.x
  y0 := memOf b.y
  x1 := []
  y1 := []
  started := false
  lanes := [dlane0, dlane0]
  p := List.replicate 8 0
  b := List.replicate 8 0
  l := List.replicate 8 0
  m := List.replicate 8 0
  pc := 0
  ie := false
  winEn := false
  parEn := false
  pb := false
  shadow := false
  active := false
  loop := { lc := 0, ls := 0, le := 0, later := false }
  lstk := []
  pcstk := []
  sset := shadowReset
  slot := 0
  flight := []
  delay := false
  target := none
  rti := false
  macAt := []
  winDue := false
  parDue := false
  idle := 0
  hand := []
  ports := []
  params := []
  swapAt := none

/-- The odd engine of a wide pair (R356, R389). -/
def dspPaired : Dsp :=
  { dspLoad { id := 0, wide := false, service := false, reserved := [], functions := [], prog := [], x := [], y := [] } false false with
    state := 3 }

end Sys2Proof.Machine
end

