-- ==== Sys2Proof/Machine/Pool.lean ====
section
/-!
DEFINITION. The frame-buffer pool (R202, R204 to R206): buffer sizes, reservations, descriptors and their marks.
-/
namespace Sys2Proof.Machine

/-- The GDDR6 channels of a die that are usable (R370). -/
def usableChans (m : M) (die : Nat) : List (Nat × MemChan) := m.mem.chans.filter fun c => c.1 / 8 == die && c.2.state == 2

/-! ## The aperture of BAR4 (R470) -/

/-- Size of the aperture in MiB: the smaller of the BAR and its backing, none with one hub channel. -/
def apertureMib (m : M) : Nat := if (usableChans m 0).length ≤ 1 then 0 else if m.host.bar4Mib < 512 then m.host.bar4Mib else 512

/-- Write bytes from an address on. The list is sorted and lists no zero. -/
def cellsBlock (a : Nat) (l : List Nat) (w : List Host.Cell) : List Host.Cell :=
  (w.filter fun c => decide (c.1 < a)) ++
  (l.zipIdx.filterMap fun p => if BitVec.ofNat 8 p.1 = 0#8 then none else some (a + p.2, BitVec.ofNat 8 p.1)) ++
  (w.filter fun c => decide (a + l.length ≤ c.1))

/-! ## Buffers (R202) -/

/-- Bytes of a picture in the tile format: format 0 8-bit 4:2:0, 1 10-bit 4:2:0, 2 10-bit 4:2:2. -/
def tileBytes (w h fmt : Nat) : Nat :=
  let across := cdiv w 64
  (across * cdiv h 16 + across * (if fmt = 2 then cdiv h 16 else cdiv h 32)) * (if fmt = 0 then 1024 else 2048)

def tileKib (w h fmt : Nat) : Nat := tileBytes w h fmt / 1024

/-- Mid-grey (R207), and the largest value of a sample: format 0 is 8-bit. -/
def greyOf (fmt : Nat) : Nat := if fmt = 0 then 128 else 512
def sampleTop (fmt : Nat) : Nat := if fmt = 0 then 256 else 1024

/-- Luma samples that a chroma sample covers, across and down. -/
def chromaStep (c fmt : Nat) : Nat × Nat := if c = 0 then (1, 1) else (2, if fmt = 2 then 1 else 2)

/-- A sample of a plane lies in an area. -/
def inArea (c fmt x y : Nat) (a : Area) : Bool :=
  let s := chromaStep c fmt
  decide (a.x ≤ x * s.1) && decide (x * s.1 < a.x + a.w) && decide (a.y ≤ y * s.2) && decide (y * s.2 < a.y + a.h)

/-- A sample lies in a tile of its plane: 64 values across, Cb and Cr interleaved, and 16 rows down (R202). -/
def inTile (c x y : Nat) (chroma : Bool) (tx ty : Nat) : Bool :=
  (chroma == (c != 0)) && (if c = 0 then x else 2 * x + (c - 1)) / 64 == tx && y / 16 == ty

/-- A sample of a picture: component (0 luma, 1 Cb, 2 Cr) and position in its plane. -/
def sampleAt (fmt c x y : Nat) : Pix → Nat
  | .free n => Config.sample n c x y % sampleTop fmt
  | .grey => greyOf fmt
  | .concealed b l p => if l.any (inArea c fmt x y) then sampleAt fmt c x y p else sampleAt fmt c x y b
  | .tile b chroma tx ty => if inTile c x y chroma tx ty then greyOf fmt else sampleAt fmt c x y b

/-- Bytes of a stored value: one, or a 16-bit little-endian container. -/
def valueBytes (fmt v : Nat) : List Nat := if fmt = 0 then [v] else [v % 256, v / 256]

/-- The bytes of a plane by tiles: `w` values across, `h` rows; positions beyond it are undefined, here the free value `pad`. -/
def planeBytes (fmt w h : Nat) (value pad : Nat → Nat → Nat) : List Nat :=
  (List.range (cdiv h 16)).flatMap fun ty => (List.range (cdiv w 64)).flatMap fun tx =>
    (List.range 16).flatMap fun r => (List.range 64).flatMap fun i =>
      let x := tx * 64 + i
      let y := ty * 16 + r
      valueBytes fmt (if x < w && decide (y < h) then value x y else pad x y % sampleTop fmt)

/-- The bytes of a picture in the tile format: its luma plane, then the plane of Cb and Cr interleaved, Cb first. -/
def pictureBytes (b : Buf) (seed : Nat) : List Nat :=
  planeBytes b.format b.width b.height (fun x y => sampleAt b.format 0 x y b.pix) (Config.sample seed 3) ++
  planeBytes b.format b.width (if b.format = 2 then b.height else b.height / 2)
    (fun x y => sampleAt b.format (1 + x % 2) (x / 2) y b.pix) (Config.sample seed 4)

/-! ## Descriptors and marks (R206) -/

def poolReset : Pool := { bufs := [], resDesc := 0, resKib := 0, totalKib := 0, snap := none }

def getPool (m : M) (die : Nat) : Pool := tget m.cod.pools die poolReset
def setPool (die : Nat) (p : Pool) (m : M) : M := { m with cod.pools := tset m.cod.pools die p }

/-- The pool holds 8,192 descriptors. -/
def descMax : Nat := 8192

def bufMarked (b : Buf) : Bool := b.short || b.long || b.out || b.cmpHold != 0 || b.encRef != 0 || b.peer

def getBuf (m : M) (die n : Nat) : Option Buf := tget? (getPool m die).bufs n

/-- Change a descriptor's marks: a buffer whose last mark clears returns to the pool. -/
def modBuf (die n : Nat) (f : Buf → Buf) (m : M) : M :=
  match getBuf m die n with
  | none => m
  | some b =>
    let p := getPool m die
    let b1 := f b
    setPool die { p with bufs := if bufMarked b1 then tset p.bufs n b1 else tdel p.bufs n } m

/-- The lowest free descriptor. -/
def freeDesc (m : M) (die : Nat) : Option Nat := firstBelow (fun n => (getBuf m die n).isNone) descMax

/-- A descriptor is given to a new picture: no context's clean picture is in it any longer. -/
def addBuf (die n : Nat) (b : Buf) (m : M) : M :=
  let lose (c : Nat) (x : Ctx) : Ctx := if keyDie c = die && x.clean == some n then { x with clean := none } else x
  let m1 := { m with cod.ctxs := tmap m.cod.ctxs lose }
  let p := getPool m1 die
  setPool die { p with bufs := tset p.bufs n b } m1

/-- Take or drop a hold of a compositor, and of an encoder. -/
def cmpHold (d : Nat × Nat) (m : M) : M := modBuf d.1 d.2 (fun b => { b with cmpHold := b.cmpHold + 1 }) m
def cmpDrop (d : Nat × Nat) (m : M) : M := modBuf d.1 d.2 (fun b => { b with cmpHold := b.cmpHold - 1 }) m
def encHold (d : Nat × Nat) (m : M) : M := modBuf d.1 d.2 (fun b => { b with encRef := b.encRef + 1 }) m
def encDrop (d : Nat × Nat) (m : M) : M := modBuf d.1 d.2 (fun b => { b with encRef := b.encRef - 1 }) m
def outDrop (die n : Nat) (m : M) : M := modBuf die n (fun b => { b with out := false }) m

/-- A frame of a stream, a compositor or an encoder: 10-bit 4:2:2 unless said otherwise, held under the mark its writer
gives it. Such buffers hold no decoded picture, so the context reads 0xFFF. `seed`: the serial number of its contents. -/
def plainBuf (w h fmt seed : Nat) : Buf :=
  { short := false, long := false, out := true, cmpHold := 0, encRef := 0, peer := false, concealed := false,
    tainted := false, format := fmt, context := 0xFFF, width := w, height := h, colour := 0, s := 0, t := 0, pix := .free seed,
    spare := false }

/-! ## Reservations (R205) -/

/-- Descriptors and KiB of a pool that are taken without a reservation. -/
def spareTaken (p : Pool) : Nat × Nat :=
  let l := p.bufs.filter fun b => b.2.spare
  (l.length, (l.map fun b => tileKib b.2.width b.2.height b.2.format).sum)

/-- Status and detail of a reservation that cannot be met: reservations and what is taken beside them share the pool
(DESIGN CHOICE, log 126). -/
def reserveFail (m : M) (die desc kib : Nat) : Option (Nat × Nat) :=
  let p := getPool m die
  let x := spareTaken p
  firstListed [(decide (descMax < p.resDesc + x.1 + desc), stResource, 0x02),
    (decide (p.totalKib < p.resKib + x.2 + kib), stResource, 0x03)]

/-- A descriptor for a frame that no reservation covers: one is given only while every reservation could still be met. -/
def spareDesc (m : M) (die w h fmt : Nat) : Option Nat :=
  if (reserveFail m die 1 (tileKib w h fmt)).isSome then none else freeDesc m die

def reserve (die desc kib : Nat) (m : M) : M :=
  let p := getPool m die
  setPool die { p with resDesc := p.resDesc + desc, resKib := p.resKib + kib } m

def unreserve (die desc kib : Nat) (m : M) : M :=
  let p := getPool m die
  if die = 0 then m else setPool die { p with resDesc := p.resDesc - desc, resKib := p.resKib - kib } m

end Sys2Proof.Machine
end

