-- ==== Sys2Proof/Machine/Net.lean ====
section
/-!
DEFINITION. Arrival (chapter 06): ports, ingress stages, policing, duplicate removal, playout and ordered release, NACK and
RTCP timers, SDI inputs and frame synchronisation, and the rows by which the cipher fabric ends a received packet.
-/
namespace Sys2Proof.Machine

/-! ## Accessors and counters -/

def getStrm (m : M) (k : Nat) : Option Strm := tget? m.net.streams k

/-- NET_STREAM_CNT and NET_PORT_CNT. -/
def countStrm (k c n : Nat) (m : M) : M := cntAdd { reg := .netStream, i := keyDie k, j := keyIdx k, k := c } n m
def countPort (port c : Nat) (m : M) : M := count .netPort (port / 16) (port % 16) c m

def portReset : PortSt :=
  { linkUp := false, sdiRate := 0, sdiFrac := false, st352 := none, mac := 0, ip4 := 0, ip6en := false, ip6 := 0, mtu := 1500 }

def getPort (m : M) (port : Nat) : PortSt := tget m.net.ports port portReset
def setPort (port : Nat) (p : PortSt) (m : M) : M := { m with net.ports := tset m.net.ports port p }

def updLeg (k : Nat) (f : Leg → Leg) (m : M) : M := { m with net.legs := tupd m.net.legs k f }

/-- RTP kinds. -/
def rtpKind (n : Nat) : Bool := decide (n ≤ 5)

/-- Media clock of a stream in Hz (R138). -/
def mediaClock (s : Strm) : Nat :=
  if s.kind = 0 then (if s.format = 0 then 48000 else 8000) else if s.kind = 3 || s.kind = 4 then 48000 else 90000

/-- Path delay of a source in ns (Table 10-6). -/
def pathDelay (s : Strm) : Nat :=
  if s.kind ≠ 0 then 0 else if s.format = 0 then 2500000 else if s.format = 3 then 2000000 else 1000000

/-- EV_LEG_STATE with its action 0x0A81 (R128, R129). -/
def legEvent (k old new cause : Nat) (m : M) : M :=
  announce (netUnit (keyDie k)) 0x0A01 3 (legOid k) [.u 2 (legId k), .u 1 old, .u 1 new, .u 1 cause] 0 m

/-- EV_NET_STREAM_STALL (R140). -/
def stallEvent (k new : Nat) (m : M) : M := raise 0x0B06 3 (strmOid k) [.u 2 (keyIdx k), .u 1 new] m

/-- A stream enters STALLED, once. -/
def stallStream (k : Nat) (m : M) : M :=
  match getStrm m k with
  | some s => if s.state = 3 then m else stallEvent k 3 (updStream k (fun x => { x with state := 3 }) m)
  | none => m

/-! ## Frame synchronisation (R141) -/

/-- A complete frame of a video stream: the input of the next window; an earlier one of the same window is dropped. -/
def frameDone (k : Nat) (m : M) : M :=
  match getStrm m k with
  | none => m
  | some s =>
    let die := keyDie k
    let m1 := match s.sync.fresh with
      | some d => countStrm k 1 1 (outDrop die d m)
      | none => m
    match spareDesc m1 die (formatSize s.vfmt).1 (formatSize s.vfmt).2 2 with
    | none => countStrm k 1 1 (updStream k (fun x => { x with sync := { x.sync with fresh := none } }) m1)
    | some n =>
      let sz := formatSize s.vfmt
      updStream k (fun x => { x with sync := { x.sync with fresh := some n } }) (addBuf die n { plainBuf sz.1 sz.2 2 m1.drawn with spare := true } (draw m1))

/-- A window of a video stream starts: the frame completed in the window before is its input, or the previous one is
repeated. -/
def syncStart (k : Nat) (m : M) : M :=
  match getStrm m k with
  | none => m
  | some s =>
    let w := boundaryNo (formatWindow s.vfmt) m.dev
    if !(s.kind == 2 || s.kind == 6) || decide (w ≤ s.sync.window) then m
    else match s.sync.fresh with
      | some n =>
        let m1 := updStream k (fun x => { x with sync := { window := w, fresh := none, current := some n } }) m
        match s.sync.current with
        | some o => outDrop (keyDie k) o m1
        | none => m1
      | none =>
        let m1 := updStream k (fun x => { x with sync := { x.sync with window := w } }) m
        if s.sync.current.isSome then countStrm k 2 1 m1 else m1

/-! ## Ordered release (R139) -/

/-- RUNNING decode contexts that name a stream. -/
def ctxsOf (m : M) (k : Nat) : List (Nat × Ctx) := m.cod.ctxs.filter fun c => c.2.stream == k && c.2.state == 2 && !c.2.streamLost

/-- A context takes what ordered release hands on; of a transport stream only its PID, the packets of others counting in
ts_other_pid, and a packet with transport_error_indicator as lost (R191). -/
def handCtx (ts : Bool) (h : Handed) (m : M) (c : Nat × Ctx) : M :=
  if ts && h.media.pid != c.2.pid then cntAdd { reg := .codCnt, i := keyDie c.1, j := keyIdx c.1, k := 8 } 1 m
  else
    let x := if ts then { h with lost := h.lost || h.media.tei } else h
    { m with cod.ctxs := tupd m.cod.ctxs c.1 fun y => { y with inbox := y.inbox ++ [x] } }

def handTo (k : Nat) (h : Handed) (m : M) : M :=
  let ts := match getStrm m k with
    | some s => s.kind == 8
    | none => false
  let m1 := (ctxsOf m k).foldl (handCtx ts h) m
  if (fwdOfSource m (strmOid k)).isEmpty || h.lost then m1
  else updStream k (fun s => { s with forward := s.forward ++ [h] }) m1

/-- Kind 4 send streams whose source is a receive stream (Table 13-4). -/
def passSends (m : M) (k : Nat) : List Nat :=
  (m.snd.sends.filter fun s => s.2.kind == 4 && s.2.source == strmOid k && s.2.state == 2).map Prod.fst

/-- Samples of an audio stream as 24-bit values: those of L16 are shifted left 8 bits (Table 10-6). -/
def pcmWords (s : Strm) (l : List (List Int)) : List (List Int) :=
  if s.kind = 3 && !bit s.format 0 then l.map fun c => c.map (· * 256) else l

/-- A released packet goes to its consumers, by its stream's kind. -/
def deliver (k : Nat) (s : Strm) (p : Pkt) (m : M) : M :=
  let h : Handed := { seq := p.seq, ts := p.ts, lost := false, len := p.len, media := p.media }
  match s.kind with
  | 0 => taskReady (keyDie k)
      { stream := k, decode := true, ts := p.playout + pathDelay s, samples := p.media.samples, flow := 0, token := p.seq,
        level := s.level } m
  | 1 => handTo k h m
  | 2 => if p.media.marker then frameDone k m else m
  | 3 => pcmTake k p.seq p.playout (pcmWords s p.media.samples) m
  | 4 | 5 => (passSends m k).foldl (fun x q => sendRtp q p.ts p.len x) m
  | 6 => frameDone k m
  | 7 => pcmTake k p.seq p.playout p.media.samples m
  | 8 => handTo k h m
  | _ => m

/-- A leg's first release makes it LIVE (R128); a release arms EV_LEG_SILENT again. -/
def legReleased (leg : Nat) (m : M) : M :=
  match getLeg m leg with
  | none => m
  | some l =>
    let m1 := updLeg leg (fun x => { x with lastRelease := m.dev, silent := false }) m
    if l.state = 2 then legEvent leg 2 3 1 (updLeg leg (fun x => { x with state := 3 }) m1) else m1

/-- One packet is released. -/
def releaseOne (k : Nat) (p : Pkt) (m : M) : M :=
  match getStrm m k with
  | none => m
  | some s =>
    let m1 := updStream k (fun x =>
      { x with held := x.held.filter (fun q => q.seq != p.seq), done := some p.seq, released := true,
               lastRelease := m.dev, state := if x.mismatch then x.state else 2,
               lostAhead := x.lostAhead.filter fun q => decide (p.seq < q) }) m
    let m2 := noteOut (.released k p.seq) m1
    let m3 := if p.late then countStrm k 7 1 m2 else m2
    let m4 := if s.state = 3 && !s.mismatch then stallEvent k 2 m3 else m3
    deliver k s p (legReleased (strmLeg k) m4)

/-- NACK tasks of a sequence number end: a repeat that had not been sent counts as cancelled (Table 14-4). -/
def nackEnd (k seq : Nat) (m : M) : M :=
  match getStrm m k with
  | none => m
  | some s =>
    let m1 := updStream k (fun x => { x with nacks := x.nacks.filter fun n => n.seq != seq }) m
    if s.nacks.any fun n => n.seq == seq && n.sent then count .tskCnt (keyDie k) 0 2 m1 else m1

/-- A missing sequence number is declared lost. -/
def declareLost (k seq : Nat) (m : M) : M :=
  noteOut (.lost k seq) (countStrm k 5 1 (updStream k (fun x => { x with lostAhead := x.lostAhead ++ [seq] }) (nackEnd k seq m)))

/-- Ordered release reaches a number declared lost: the loss is passed to the consumer in its turn. -/
def handLoss (k seq : Nat) (m : M) : M :=
  match getStrm m k with
  | none => m
  | some s =>
    let m1 := updStream k (fun x => { x with done := some seq, lostAhead := x.lostAhead.filter fun q => decide (seq < q) }) m
    if s.kind = 1 then
      handTo k { seq := seq, ts := 0, lost := true, len := 0,
                 media := { samples := [], marker := false, spatial := 0, temporal := 0, key := false, switchPt := false,
                            unit := 0, tei := false, pid := 0 } } m1
    else m1

/-- Held packets that ordered release is to hand on. -/
def liveHeld (s : Strm) : List Pkt := s.held.filter fun p => !p.dead

/-- The number ordered release hands on next: after the last one, or the lowest accepted. -/
def nextSeq (s : Strm) : Option Nat := match s.done with
  | some d => some (d + 1)
  | none => s.base

/-- A number that has been released or declared lost. -/
def settled (s : Strm) (seq : Nat) : Bool :=
  (match s.done with | some d => decide (seq ≤ d) | none => false) || s.lostAhead.contains seq

/-- The missing numbers just below a held packet: above the next lower one held, and not yet settled. -/
def missingBelow (s : Strm) (seq : Nat) : List Nat :=
  let lo := (liveHeld s).foldl (fun a p => if p.seq < seq && decide (a ≤ p.seq) then p.seq + 1 else a) ((nextSeq s).getD seq)
  ((List.range (seq - lo)).map (lo + ·)).filter fun q => !settled s q

/-- Missing numbers are declared lost when the playout time of the first held packet above them has come. -/
def declareDue (k : Nat) (m : M) : M :=
  match getStrm m k with
  | none => m
  | some s => (((liveHeld s).filter fun p => tickDue m p.playout).flatMap fun p => missingBelow s p.seq).foldl
    (fun x q => declareLost k q x) m

/-- Hand on what may be handed on, in order, at most `n` numbers: a loss, or a packet whose playout time has come and whose
authentication has completed. -/
def releaseLoop (k : Nat) : Nat → M → M
  | 0, m => m
  | n + 1, m =>
    match getStrm m k with
    | none => m
    | some s =>
      match nextSeq s with
      | none => m
      | some q =>
        if s.lostAhead.contains q then releaseLoop k n (handLoss k q m)
        else match (liveHeld s).find? fun p => p.seq == q with
          | some p => if p.auth = 1 && tickDue m p.playout then releaseLoop k n (releaseOne k p m) else m
          | none => m

/-- Ordered release of a stream (R139). Kinds 6, 7 and 8 carry no sequence numbers: they are released in arrival order by the
same loop. -/
def releaseAll (k : Nat) (m : M) : M :=
  let m1 := declareDue k m
  match getStrm m1 k with
  | some s => releaseLoop k (s.held.length + s.lostAhead.length) m1
  | none => m1

def execPlayoutTimeReached (die idx : Nat) (s : State) : Host.Outcome State Fault Refusal := lift (releaseAll (mkKey die idx)) s

/-! ## Policing (R136) -/

def pathReset (burst now : Nat) : PathSt :=
  { tokens := burst * 8000, refillAt := now, last := none, up := false, drops := [] }

/-- Refill a bucket for the microseconds since its last refill, at a waiting change's rate and with its clamp. -/
def pathRefill (s : Strm) (now : Nat) (p : PathSt) : PathSt :=
  if now ≤ p.refillAt then p
  else
    let q := s.police.getD (s.kbps, s.burst)
    { p with tokens := hold (q.2 * 8000) (p.tokens + q.1 * (now - p.refillAt)), refillAt := now }

def strmRefill (now : Nat) (s : Strm) : Strm :=
  if now ≤ s.pathA.refillAt && now ≤ s.pathB.refillAt then s
  else
    let q := s.police.getD (s.kbps, s.burst)
    { s with pathA := pathRefill s now s.pathA, pathB := pathRefill s now s.pathB, kbps := q.1, burst := q.2, police := none }

/-- POLICER_REFILL: every bucket of every stream. -/
def policerRefill (m : M) : M := { m with net.streams := tmap m.net.streams fun _ s => strmRefill (m.dev / 1000) s }

def execPolicerRefill (s : State) : Host.Outcome State Fault Refusal := lift policerRefill s

def pathOf (s : Strm) (second : Bool) : PathSt := if second then s.pathB else s.pathA
def setPath (second : Bool) (p : PathSt) (s : Strm) : Strm := if second then { s with pathB := p } else { s with pathA := p }

/-- A policed drop: counted; the event once per second with the drops of that second. -/
def policed (k : Nat) (second : Bool) (m : M) : M :=
  match getStrm m k with
  | none => m
  | some s =>
    let p := pathOf s second
    let drops := m.vault.mono :: p.drops.filter fun t => decide (m.vault.mono < t + nsPerS)
    let m1 := countStrm k 6 1 (updStream k (setPath second { p with drops := drops }) m)
    limited { ev := 0x0B03, i := k, j := 0 } nsPerS
      (raise 0x0B03 4 (strmOid k) [.u 2 (keyIdx k), .u 1 (b2n second), .u 4 drops.length]) m1

/-! ## Paths (R137) -/

def pathEvent (k : Nat) (second up : Bool) (m : M) : M :=
  raise 0x0B01 2 (strmOid k) [.u 2 (keyIdx k), .u 1 (b2n second), .u 1 (b2n up)] m

/-- A path delivers an accepted or duplicate packet. -/
def pathAlive (k : Nat) (second : Bool) (m : M) : M :=
  match getStrm m k with
  | none => m
  | some s =>
    let p := pathOf s second
    let m1 := updStream k (setPath second { p with last := some m.vault.mono, up := true }) m
    if p.up then m1 else pathEvent k second true m1

def pathExpire (k : Nat) (second : Bool) (m : M) : M :=
  match getStrm m k with
  | none => m
  | some s =>
    let p := pathOf s second
    match p.last with
    | some t =>
      if p.up && decide (t + 100000000 ≤ m.vault.mono) then
        pathEvent k second false (updStream k (setPath second { p with up := false }) m)
      else m
    | none => m

def pathTimeout (die idx : Nat) (m : M) : M := pathExpire (mkKey die idx) true (pathExpire (mkKey die idx) false m)

def execNetPathTimeout (die idx : Nat) (s : State) : Host.Outcome State Fault Refusal := lift (pathTimeout die idx) s

/-! ## Playout (R138) -/

/-- A 32-bit timestamp unwrapped to the value nearest a given one. -/
def unwrap32 (near : Int) (ts : Nat) : Int :=
  let base := near - (near % (2 ^ 32 : Nat) : Int) + ts
  let c := [base - (2 ^ 32 : Nat), base, base + (2 ^ 32 : Nat)]
  c.foldl (fun a x => if (x - near).natAbs < (a - near).natAbs then x else a) base

/-- The extended sequence number of a packet, nearest the highest accepted (RFC 3550). The first is taken as 2^32 above its 16
bits, so that numbers behind it exist; what is shown is the low 32 bits. -/
def extSeq (s : Strm) (seq : Nat) : Nat :=
  match s.top with
  | none => 2 ^ 32 + seq
  | some t =>
    let base := t - t % 65536 + seq
    if t + 32768 < base && 65536 ≤ base then base - 65536 else if base + 32768 < t then base + 65536 else base

/-- Ceiling of a non-negative quotient, 0 for a negative one. -/
def ceilQ (a : Int) (b : Nat) : Nat := if a ≤ 0 then 0 else cdiv a.toNat b

/-- The extended timestamp of a packet. -/
def extTs (s : Strm) (arrival ts : Nat) : Int :=
  if 2 ≤ s.kind then unwrap32 ((arrival * mediaClock s / nsPerS : Nat) : Int) ts
  else match s.tsExt with
    | some t => unwrap32 t ts
    | none => ts

/-- Arrival less timestamp, times the clock. -/
def arrivalAnchor (s : Strm) (arrival : Nat) (te : Int) : Int := (arrival * mediaClock s : Nat) - te * nsPerS

/-- Playout time in ns, rounded up to a whole microsecond. -/
def playoutAt (s : Strm) (te : Int) : Nat :=
  let clk := mediaClock s
  let a : Int := if 2 ≤ s.kind then 0 else s.anchor.getD 0
  ceilQ (a + te * nsPerS + (s.target * 100000 * clk : Nat)) (1000 * clk) * 1000

/-- Follow a packet's timestamp: the anchor is set by the first, and the least value of the second is kept. -/
def followTs (arrival : Nat) (te : Int) (s : Strm) : Strm :=
  let v := arrivalAnchor s arrival te
  let s1 := { s with tsExt := some te }
  if 2 ≤ s.kind then s1
  else match s.anchor with
    | none => { s1 with anchor := some v, anchorMin := none, anchorAt := arrival }
    | some _ => { s1 with anchorMin := match s.anchorMin with
        | some x => some (if v < x then v else x)
        | none => some v }

/-- PLAYOUT_ANCHOR_ADJUST: each second the anchor moves toward the least value seen, by at most 100 µs. -/
def anchorAdjust (die idx : Nat) (m : M) : M :=
  let k := mkKey die idx
  match getStrm m k with
  | none => m
  | some s =>
    match s.anchor with
    | none => m
    | some a =>
      if m.dev < s.anchorAt + nsPerS then m
      else
        let lim : Int := (100000 * mediaClock s : Nat)
        let a1 := match s.anchorMin with
          | none => a
          | some x => if a + lim < x then a + lim else if x < a - lim then a - lim else x
        noteOut (.anchor k a1)
          (updStream k (fun y => { y with anchor := some a1, anchorMin := none, anchorAt := m.dev }) m)

def execPlayoutAnchorAdjust (die idx : Nat) (s : State) : Host.Outcome State Fault Refusal := lift (anchorAdjust die idx) s

/-! ## NACK (R139) -/

/-- A generic NACK leaves. -/
def sendNack (k seq : Nat) (m : M) : M :=
  match getStrm m k with
  | some s => if feedbackOn m then rtcpOut 3 k [((s.learned.getD s.ssrc : Nat) : Int), ((seq % 65536 : Nat) : Int)] m else m
  | none => m

/-- A missing number below an accepted one: the NACK goes at once, or waits 2 ms on a leg with a secondary path. Its wait
and its repeat are event tasks, not made when the die has no entry. -/
def nackMissing (k seq : Nat) (dual : Bool) (m : M) : M :=
  let now := m.dev
  let add (n : Nack) (x : M) : M :=
    if eventRoom x (keyDie k) then updStream k (fun s => { s with nacks := s.nacks ++ [n] }) x else eventFull (keyDie k) x
  if dual then add { seq := seq, dueAt := now + 2000000, sent := false, repeatAt := 0 } m
  else add { seq := seq, dueAt := now, sent := true, repeatAt := now + 20000000 } (sendNack k seq m)

/-- Numbers missing below a newly accepted highest number. -/
def nackGap (k lo hi : Nat) (m : M) : M :=
  match getLeg m (strmLeg k) with
  | none => m
  | some l =>
    if !bit l.flags 2 then m
    else ((List.range (hi - lo)).map (lo + ·)).foldl (fun x q => nackMissing k q (l.secondary != 0xFF) x) m

/-- NACK_DELAY_EXPIRY: waits of 2 ms that have passed. -/
def nackDelay (die idx : Nat) (m : M) : M :=
  let k := mkKey die idx
  match getStrm m k with
  | none => m
  | some s =>
    let now := m.dev
    (s.nacks.filter fun n => !n.sent && tickDue m n.dueAt).foldl (fun x n =>
      updStream k (fun y => { y with nacks := y.nacks.map fun q =>
        if q.seq = n.seq then { q with sent := true, repeatAt := now + 20000000 } else q }) (sendNack k n.seq x)) m

def execNackDelayExpiry (die idx : Nat) (s : State) : Host.Outcome State Fault Refusal := lift (nackDelay die idx) s

/-- NACK_REPEAT_EXPIRY: one repeat 20 ms after the first. -/
def nackRepeat (die idx : Nat) (m : M) : M :=
  let k := mkKey die idx
  match getStrm m k with
  | none => m
  | some s =>
    (s.nacks.filter fun n => n.sent && tickDue m n.repeatAt).foldl (fun x n =>
      updStream k (fun y => { y with nacks := y.nacks.filter fun q => q.seq != n.seq }) (sendNack k n.seq x)) m

def execNackRepeatExpiry (die idx : Nat) (s : State) : Host.Outcome State Fault Refusal := lift (nackRepeat die idx) s

/-! ## Stages 7 to 9 -/

/-- Slots of packets held on a die: those on delay lists, those in egress queues until both positions have passed them, and
those kept for retransmission (R135, R305, R314). -/
def slotsUsed (m : M) (die : Nat) : Nat :=
  ((m.snd.queues.filter fun q => q.1 / 1536 == die).map fun q =>
    ((q.2.pkts.filter fun p => !p.rtx).map fun p => cdiv p.udp 2048).sum).sum +
  ((m.net.streams.filter fun s => keyDie s.1 == die).map fun s => (s.2.held.map Pkt.slots).sum).sum +
  ((m.snd.sends.filter fun s => keyDie s.1 == die).map fun s => (s.2.rtx.map fun r => cdiv r.pkt.udp 2048).sum).sum

def slotsMax : Nat := 262144

/-- The oldest packet kept for retransmission on a die. -/
def oldestRtx (m : M) (die : Nat) : Option (Nat × Rtx) :=
  ((m.snd.sends.filter fun s => keyDie s.1 == die).flatMap fun s => s.2.rtx.map fun r => (s.1, r)).foldl (fun a r =>
    match a with
    | none => some r
    | some b => if r.2.sentAt < b.2.sentAt then some r else some b) none

/-- Free held packets, oldest first, until enough slots are free or none is left; their tasks count as cancelled. -/
def freeSlots (die need : Nat) : Nat → M → M
  | 0, m => m
  | n + 1, m =>
    if slotsUsed m die + need ≤ slotsMax then m
    else match oldestRtx m die with
      | none => m
      | some (k, r) =>
        freeSlots die need n (count .tskCnt die 0 2 (updSend k (fun s => { s with rtx := s.rtx.erase r }) m))

/-- How many packets a die keeps for retransmission. -/
def rtxCount (m : M) (die : Nat) : Nat := ((m.snd.sends.filter fun s => keyDie s.1 == die).map fun s => s.2.rtx.length).sum

/-- UDP payload bytes of a frame whose length counts from the destination MAC through the FCS. -/
def udpBytes (l : Leg) (f : Frame) : Nat := f.length - 18 - (if bit l.flags 1 then 4 else 0) - ipBytes l

/-- The receive generation that would take a packet of a leg. -/
def legGen (m : M) (l : Leg) : Option KeyGen := (getSlot m l.keySlot).cur

/-- A CBC payload that is no multiple of 16 bytes (R147). -/
def cbcBad (m : M) (l : Leg) (f : Frame) : Bool :=
  match legGen m l with
  | some g => legSrtp l && g.profile == 4 && bits g.mode 0 3 == 0 && (udpBytes l f - 12 - tagBytes g) % 16 != 0
  | none => false

/-- Stages 8 to 10: early check, slots, the delay list, the cipher fabric. A packet whose number is settled is dropped as late,
on an SRTP leg once it has authenticated; another late packet may go at once. -/
def placePacket (k ext : Nat) (second : Bool) (l : Leg) (f : Frame) (m0 : M) : M :=
  let m := if legSrtp l then slotDue l.keySlot m0 else m0
  match getStrm m k with
  | none => m
  | some s =>
    let te := extTs s m.dev f.ts
    let s1 := followTs m.dev te s
    let m1 := updStream k (fun _ => s1) m
    let play := playoutAt s1 te
    let die := keyDie k
    let need := cdiv f.length 2048
    if m.dev + s.early * 100000 < play then countStrm k 4 1 m1
    else
      let m2 := freeSlots die need (rtxCount m1 die) m1
      if slotsMax < slotsUsed m2 die + need then countPort (f.die * 16 + f.lane) 3 m2
      else if cbcBad m2 l f then count .cipLeg die (keyIdx (strmLeg k)) 2 m2
      else if settled s ext && !legSrtp l then noteOut (.lateDrop k ext) (countStrm k 3 1 m2)
      else
        let p : Pkt :=
          { seq := ext, ts := f.ts, arrival := m.dev, playout := play, path := b2n second, len := udpBytes l f, slots := need,
            auth := if legSrtp l then 0 else 1, late := decide (play < m.dev), dead := settled s ext, media := f.media }
        let m3 := updStream k (fun x => { x with held := x.held ++ [p] }) m2
        let m4 := if legSrtp l then
            bindOp { newOp die (strmLeg k) k true ext l.keySlot s.level (udpBytes l f) with index := packetIndex s f.seq } m3
          else m3
        if play ≤ m.dev then releaseAll k m4 else m4

/-- An accepted packet: it teaches an SSRC and a destination, ends the NACK of its number, and is placed. -/
def acceptPacket (k ext : Nat) (second : Bool) (l : Leg) (f : Frame) (m : M) : M :=
  let m1 := updStream k (fun s =>
    { s with learned := if s.learn then some (s.learned.getD f.ssrc) else s.learned,
             base := match s.base with | some b => some (if ext < b then ext else b) | none => some ext }) m
  let m2 := learnDest (strmLeg k) f.src f.srcPort (nackEnd k ext (pathAlive k second (countStrm k 0 1 m1)))
  placePacket k ext second l f m2

/-- The window restarts at a packet: what is held of the old sequence is dropped as late. -/
def seqRestart (k ext : Nat) (second : Bool) (l : Leg) (f : Frame) (m : M) : M :=
  match getStrm m k with
  | none => m
  | some s =>
    let m1 := countStrm k 3 s.held.length (updStream k (fun x =>
      { x with top := some ext, marks := 1, staleRun := 0, held := [], base := none, done := none, lostAhead := [], released := false, nacks := [] }) m)
    acceptPacket k ext second l f (raise 0x0B02 3 (strmOid k) [.u 2 (keyIdx k), .u 4 (ext % 2 ^ 32)] m1)

/-- Duplicates and stale packets are counted, but on kind 2, whose counts 1 and 2 are those of frames (Table 06-10). -/
def countDup (k c : Nat) (s : Strm) (m : M) : M := if s.kind = 2 then m else countStrm k c 1 m

/-- Stage 7: the duplicate window of 1,024 numbers. -/
def dupStage (k : Nat) (second : Bool) (l : Leg) (f : Frame) (m : M) : M :=
  match getStrm m k with
  | none => m
  | some s =>
    let ext := extSeq s f.seq
    match s.top with
    | none => acceptPacket k ext second l f (updStream k (fun x => { x with top := some ext, marks := 1, staleRun := 0 }) m)
    | some t =>
      if t < ext then
        let m1 := updStream k (fun x =>
          { x with top := some ext, marks := (x.marks * 2 ^ (ext - t) + 1) % 2 ^ 1024, staleRun := 0 }) m
        nackGap k (t + 1) ext (acceptPacket k ext second l f m1)
      else if t < ext + 1024 then
        if s.marks.testBit (t - ext) then
          pathAlive k second (countDup k 1 s (updStream k (fun x => { x with staleRun := 0 }) m))
        else
          acceptPacket k ext second l f (updStream k (fun x => { x with marks := x.marks + 2 ^ (t - ext), staleRun := 0 }) m)
      else if 64 ≤ s.staleRun then seqRestart k ext second l f m
      else countDup k 2 s (updStream k (fun x => { x with staleRun := x.staleRun + 1 }) m)

/-! ## Stages 1 to 6 -/

/-- Whether a leg's port takes a frame from this lane: the primary or the secondary path. -/
def legPath (l : Leg) (port : Nat) : Option Bool :=
  if l.transport ≠ 0 then none else if l.port = port then some false else if l.secondary = port then some true else none

def vlanOk (l : Leg) (f : Frame) : Bool :=
  if bit l.flags 1 then f.vlan == some (bits l.vlan 0 12) else f.vlan.isNone

/-- The destination is the port's own address, or the multicast group of a leg. -/
def dstOk (p : PortSt) (l : Leg) (f : Frame) : Bool :=
  if bit l.flags 4 then f.dst == l.remoteAddr
  else if f.etype = 1 then p.ip6en && f.dst == p.ip6 else f.dst == p.ip4

/-- RTCP of a leg: its own port, or a second byte of 200 to 206 on a shared one. -/
def isRtcp (l : Leg) (f : Frame) : Bool :=
  if bit l.flags 5 then f.dstPort == l.localPort && decide (200 ≤ f.second) && decide (f.second ≤ 206)
  else f.dstPort == l.localPort + 1

/-- How well a leg matches by remote address and port: 3 both exact, 2 the address, 1 any; 0 no match. -/
def legScore (l : Leg) (f : Frame) : Nat :=
  let exact := bit l.flags 4 || l.remoteAddr == f.src
  let any := !bit l.flags 4 && l.remoteAddr == 0
  if !(f.dstPort == l.localPort || isRtcp l f) || !(exact || any) || !(l.remotePort == 0 || l.remotePort == f.srcPort) then 0
  else if exact && l.remotePort != 0 then 3 else if exact then 2 else 1

/-- The leg of best match, ties to the lower key. -/
def bestLeg (f : Frame) (ls : List (Nat × Leg)) : Option (Nat × Leg) :=
  ls.foldl (fun a x =>
    if legScore x.2 f = 0 then a
    else match a with
      | none => some x
      | some y => if legScore y.2 f < legScore x.2 f then some x else some y) none

/-- The stream of a leg that takes a packet by payload type and SSRC. -/
def matchStrm (m : M) (leg : Nat) (f : Frame) : Option (Nat × Strm) :=
  (legStreams m leg).find? fun s =>
    rtpKind s.2.kind && s.2.pt == f.pt &&
    (if s.2.learn then (match s.2.learned with | some x => x == f.ssrc | none => true) else s.2.ssrc == f.ssrc)

/-- The stream an unmatched or drained packet counts on: the one of its payload type, else the lowest slot. -/
def blameStrm (m : M) (leg : Nat) (f : Frame) : Option Nat :=
  match (legStreams m leg).find? fun s => s.2.pt == f.pt with
  | some s => some s.1
  | none => (legStreams m leg).head?.map Prod.fst

def blame (leg c : Nat) (f : Frame) (m : M) : M := match blameStrm m leg f with
  | some k => countStrm k c 1 m
  | none => m

/-- Stage 6: the stream and its policing. -/
def streamStage (leg : Nat) (l : Leg) (second : Bool) (f : Frame) (m : M) : M :=
  match matchStrm m leg f with
  | none => blame leg 8 f m
  | some (k, s0) =>
    let s := strmRefill (m.dev / 1000) s0
    let p := pathOf s second
    if p.tokens < f.length * 8000 then policed k second (updStream k (fun _ => s) m)
    else dupStage k second l f (updStream k (fun _ => setPath second { p with tokens := p.tokens - f.length * 8000 } s) m)

/-- Stage 5. -/
def classify (port : Nat) (legs : List (Nat × Leg)) (f : Frame) (m : M) : M :=
  match bestLeg f (legs.filter fun l => legCarries l.2) with
  | some (k, l) =>
    if isRtcp l f then m else streamStage k l ((legPath l port).getD false) f m
  | none => match bestLeg f (legs.filter fun l => l.2.state == 4) with
    | some (k, _) => blame k 9 f m
    | none => countPort port 0 m

/-- Stages 3 to 5 of an IP frame. -/
def ipStages (port : Nat) (p : PortSt) (f : Frame) (m : M) : M :=
  let here := m.net.legs.filter fun l => (legPath l.2 port).isSome && vlanOk l.2 f
  if here.isEmpty then countPort port 0 m
  else if !f.hdrOk then countPort port 2 m
  else
    let mine := here.filter fun l => bit l.2.flags 0 == (f.etype == 1) && dstOk p l.2 f
    let own := if f.etype = 1 then p.ip6en && f.dst == p.ip6 else f.dst == p.ip4
    if !own && mine.isEmpty then countPort port 2 m
    else if f.fragment then countPort port 5 m
    else classify port mine f m

/-- Stages 1 and 2. -/
def frameReceive (f : Frame) (m : M) : M :=
  let port := f.die * 16 + f.lane
  let p := getPort m port
  if f.lane ≥ 8 || !ethPort m port || !dieRun m f.die || m.start.phase != .ready || !inRun m || !p.linkUp || laneMode m port == 3 then m
  else if !f.fcsOk || decide (f.length < 64) || decide (p.mtu + 18 + (if f.vlan.isSome then 4 else 0) < f.length) then
    countPort port 1 m
  else match f.etype with
    | 0 | 1 => ipStages port p f m
    | 2 => m
    | 3 => if f.dst = p.ip4 then wireNet port 6 f.die f.lane [p.ip4, p.mac] m else m
    | 4 => if p.ip6en && f.dst == p.ip6 then wireNet port 7 f.die f.lane [p.ip6, p.mac] m else m
    | 5 => countPort port 4 m
    | _ => countPort port 0 m

def execEthFrameReceive (f : Frame) (s : State) : Host.Outcome State Fault Refusal := lift (frameReceive f) s

/-! ## Timers (R128, R139, R140) -/

/-- STREAM_STALL_TIMEOUT: a RECEIVING stream from which nothing has been released for stall_ms. -/
def stallTimeout (die idx : Nat) (m : M) : M :=
  let k := mkKey die idx
  match getStrm m k with
  | some s => if s.state = 2 && tickDue m (s.lastRelease + s.stallMs * 1000000) then stallStream k m else m
  | none => m

def execStreamStallTimeout (die idx : Nat) (s : State) : Host.Outcome State Fault Refusal := lift (stallTimeout die idx) s

/-- LEG_SILENCE_TIMEOUT: a LIVE leg, once until its next release. -/
def legSilence (die idx : Nat) (m : M) : M :=
  let k := mkKey die idx
  match getLeg m k with
  | some l =>
    if l.state = 3 && l.silenceS ≠ 0 && !l.silent && tickDue m (l.lastRelease + l.silenceS * nsPerS) then
      raise 0x0A02 3 (legOid k) [.u 2 (legId k), .u 2 l.silenceS] (updLeg k (fun x => { x with silent := true }) m)
    else m
  | none => m

def execLegSilenceTimeout (die idx : Nat) (s : State) : Host.Outcome State Fault Refusal := lift (legSilence die idx) s

/-- RTCP_REPORT_TIMER: receiver reports of each RTP stream of a leg, every randomised rtcp_ms. -/
def rtcpReport (die idx : Nat) (m : M) : M :=
  let k := mkKey die idx
  match getLeg m k with
  | some l =>
    if !bit l.flags 2 || !legCarries l || !tickDue m (l.rtcpAt + l.rtcpGap) then m
    else
      let m1 := updLeg k (fun x => { x with rtcpAt := m.dev, rtcpGap := drawGap l.rtcpMs m }) (draw m)
      if feedbackOn m then
        (legStreams m k).foldl (fun x s =>
          if rtpKind s.2.kind then
            rtcpOut 2 s.1
              [((s.2.learned.getD s.2.ssrc : Nat) : Int), ((s.2.top.getD 0 % 2 ^ 32 : Nat) : Int),
               ((cntGet x { reg := .netStream, i := die, j := keyIdx s.1, k := 5 } : Nat) : Int)] x
          else x) m1
      else m1
  | none => m

def execRtcpReportTimer (die idx : Nat) (s : State) : Host.Outcome State Fault Refusal := lift (rtcpReport die idx) s

/-! ## SDI inputs (R141, R142) -/

/-- Streams of the legs on an SDI lane. -/
def sdiStreams (m : M) (port : Nat) : List (Nat × Strm) :=
  m.net.streams.filter fun s => match getLeg m (strmLeg s.1) with
    | some l => l.transport == 1 && l.port == port
    | none => false

/-- A receiver has locked with the sense found (R452). -/
def laneSensed (die lane : Nat) (inverted : Bool) (m : M) : M :=
  let lp : LanePin := tget m.pin.lanes (die * 8 + lane) { tx := 0, rxInverted := false, los := true, order := 0xE4 }
  { m with pin.lanes := tset m.pin.lanes (die * 8 + lane) { lp with los := false, rxInverted := inverted } }

/-- SDI_LOCK_CHANGE: an SDI lane locks at a rate (1 3G, 2 6G, 3 12G; divided by 1.001 or not), with what ST 352 says, or
loses lock. -/
def sdiLock (die lane : Nat) (lock : Option (Nat × Bool)) (st352 : Option Nat) (inverted : Bool) (m : M) : M :=
  let port := die * 16 + lane
  let p := getPort m port
  let ok := match lock with | some r => decide (1 ≤ r.1) && decide (r.1 ≤ 3) | none => true
  if lanePers (img m) die lane ≠ 4 || lane ≥ 8 || !dieRun m die || !ok then m
  else
    let p1 := match lock with
      | some r => { p with linkUp := true, sdiRate := r.1, sdiFrac := r.2, st352 := st352 }
      | none => { p with linkUp := false, sdiRate := 0, sdiFrac := false, st352 := none }
    if p1 = p then m
    else
      let m0 := if lock.isSome then laneSensed die lane inverted m else m
      let m1 := raise 0x0B04 1 (infraOid die)
        [.u 1 port, .u 1 (b2n lock.isSome), .u 1 p1.sdiRate, .u 4 ((st352.getD 0) % 2 ^ 32)] (setPort port p1 m0)
      if lock.isSome then m1
      else (sdiStreams m1 port).foldl (fun x s => stallStream s.1 x) m1

def execSdiLockChange (die lane : Nat) (lock : Option (Nat × Bool)) (st352 : Option Nat) (inverted : Bool) (s : State) :
    Host.Outcome State Fault Refusal := lift (sdiLock die lane lock st352 inverted) s

/-- A video stream's format against the one read: a difference stalls it with format_mismatch. -/
def sdiFormat (k format st352 : Nat) (m : M) : M :=
  match getStrm m k with
  | none => m
  | some s =>
    if format = s.vfmt then updStream k (fun x => { x with mismatch := false }) m
    else if s.mismatch then m
    else raise 0x0B05 2 (strmOid k) [.u 2 (keyIdx k), .u 4 (st352 % 2 ^ 32)]
      (stallStream k (updStream k (fun x => { x with mismatch := true }) m))

/-- What arrives without a sequence number (kinds 6 to 8) waits for its playout time. -/
def arriveNow (k len : Nat) (media : Payload) (m : M) : M :=
  match getStrm m k with
  | none => m
  | some s =>
    let seq := (s.top.getD 0) + 1
    let play := cdiv (m.dev + s.target * 100000) 1000 * 1000
    let p : Pkt :=
      { seq := seq, ts := 0, arrival := m.dev, playout := play, path := 0, len := len, slots := 0, auth := 1, late := false,
        dead := false, media := media }
    if m.dev + s.early * 100000 < play then countStrm k 4 1 m
    else
      let m1 := countStrm k 0 1 (updStream k (fun x =>
        { x with top := some seq, base := some (x.base.getD seq), held := x.held ++ [p] }) m)
      if play ≤ m.dev then releaseAll k m1 else m1

/-- What an SDI stream takes at the end of a frame. -/
def sdiTake (k : Nat) (samples : List (List Int)) (m : M) : M :=
  arriveNow k 0
    { samples := samples, marker := true, spatial := 0, temporal := 0, key := false, switchPt := false, unit := 0, tei := false,
      pid := 0 } m

/-- Channels of the groups a kind 7 stream selects: four a group, silence where a group is absent; groups 5 to 8 exist
only on 6G and 12G signals. -/
def sdiChannels (mask rate : Nat) (groups : List (Nat × List (List Int))) : List (List Int) :=
  let usable := groups.filter fun g => decide (g.1 ≤ 4) || decide (2 ≤ rate)
  let len := (usable.flatMap fun g => g.2.map List.length).foldl (fun a b => if a < b then b else a) 0
  ((List.range 8).map (· + 1)).flatMap fun g =>
    if !bit mask (g - 1) then []
    else match usable.find? fun x => x.1 == g with
      | some x => (List.range 4).map fun c => x.2.getD c (List.replicate len 0)
      | none => List.replicate 4 (List.replicate len 0)

/-- A channel whose control packet marks it asynchronous, or not at 48 kHz. -/
def sdiMuted (k : SdiMarks) (g c : Nat) : Bool :=
  k.control.any fun x => x.group == g && x.chan == c && (x.async || x.rate != 48000)

/-- Samples of a channel whose packets failed their ECC take the channel's previous sample, `last` before the frame's
first. -/
def sdiRepair (bad : Nat → Bool) (last : Int) : Nat → List Int → List Int
  | _, [] => []
  | i, v :: r => let x := if bad i then last else v; x :: sdiRepair bad x (i + 1) r

/-- One embedded channel as it is delivered, and how many of its samples were muted or replaced (R142). -/
def sdiChannel (k : SdiMarks) (last : Tbl Int) (g c : Nat) (v : List Int) : List Int × Nat :=
  if sdiMuted k g c then (List.replicate v.length 0, v.length)
  else
    let bad (i : Nat) : Bool := k.ecc.any fun x => x.group == g && x.chan == c && x.at_ == i
    (sdiRepair bad (tget last (g * 4 + c) 0) 0 v, ((List.range v.length).filter bad).length)

/-- The groups of a frame with muted and repaired samples in place. -/
def sdiGroups (k : SdiMarks) (last : Tbl Int) (groups : List (Nat × List (List Int))) : List (Nat × List (List Int)) :=
  groups.map fun g => (g.1, (List.range g.2.length).map fun c => (sdiChannel k last g.1 c (g.2.getD c [])).1)

/-- Muted and replaced samples of the channels a mask selects. -/
def sdiBadCount (k : SdiMarks) (mask rate : Nat) (groups : List (Nat × List (List Int))) : Nat :=
  ((groups.filter fun g => decide (1 ≤ g.1) && bit mask (g.1 - 1) && (decide (g.1 ≤ 4) || decide (2 ≤ rate))).map fun g =>
    ((List.range g.2.length).map fun c => (sdiChannel k [] g.1 c (g.2.getD c [])).2).sum).sum

/-- The last samples of a frame's channels. -/
def sdiLasts (groups : List (Nat × List (List Int))) (last : Tbl Int) : Tbl Int :=
  groups.foldl (fun t g => (List.range g.2.length).foldl (fun u c => match (g.2.getD c []).getLast? with
    | some v => tset u (g.1 * 4 + c) v
    | none => u) t) last

/-- A stream of embedded audio takes a frame's groups (R142). -/
def sdiAudio (k rate : Nat) (s : Strm) (groups : List (Nat × List (List Int))) (marks : SdiMarks) (m : M) : M :=
  let fixed := sdiGroups marks s.sdiLast groups
  sdiTake k (sdiChannels s.format rate fixed)
    (countStrm k 5 (sdiBadCount marks s.format rate groups) (updStream k (fun x => { x with sdiLast := sdiLasts fixed x.sdiLast }) m))

/-- SDI_FRAME_COMPLETE: the format as read, the ST 352 bytes, the samples of the frame's audio groups as they arrive, and what
their control packets and ECC say. -/
def sdiFrame (die lane format st352 : Nat) (groups : List (Nat × List (List Int))) (marks : SdiMarks) (m : M) : M :=
  let port := die * 16 + lane
  let p := getPort m port
  if !p.linkUp || lanePers (img m) die lane ≠ 4 || laneMode m port = 3 then m
  else (sdiStreams m port).foldl (fun x s =>
    match getLeg x (strmLeg s.1) with
    | none => x
    | some l =>
      if s.2.kind = 6 then
        let x1 := sdiFormat s.1 format st352 x
        if l.state = 4 then countStrm s.1 9 1 x1
        else if legCarries l && format == s.2.vfmt then sdiTake s.1 [] x1 else x1
      else if l.state = 4 then countStrm s.1 9 1 x
      else if legCarries l then sdiAudio s.1 p.sdiRate s.2 groups marks x
      else x) m

def execSdiFrameComplete (die lane format st352 : Nat) (groups : List (Nat × List (List Int))) (marks : SdiMarks)
    (s : State) : Host.Outcome State Fault Refusal := lift (sdiFrame die lane format st352 groups marks) s

/-! ## The cipher fabric ends a packet (R149, R157, R158) -/

/-- CIPHER_OP_COMPLETE, of an operation in service: a send packet's item is complete and leaves its flow in token order; an
RTCP packet leaves; a received packet that no tag protects is complete; any other received packet stays provisional until its
authentication result. -/
def cipherDone (id : Nat) (m : M) : M :=
  match findOp m id with
  | none => m
  | some o =>
    if o.st ≠ 1 then m
    else if o.rx then
      match opGen m o with
      | some g =>
        if noTag g then releaseAll o.stream (endOp o (if bit g.halves 0 then passOp o none m else retract o m)) else opDone o m
      | none => m
    else match o.report with
    | some (kind, idx, vals) =>
      endOp o (match getLeg m o.leg with
        | some l => if linkUp m l.port then wireNet l.port kind o.die idx vals m else m
        | none => m)
    | none => match flowOfOp m o.die o.id with
      | none => endOp o m
      | some q => endOp o (egressFlow o.die q (setFlow o.die q (flowMark (fun i => i.op == some o.id) 1 (getFlow m o.die q)) m))

def execCipherOpComplete (id : Nat) (s : State) : Host.Outcome State Fault Refusal := lift (cipherDone id) s

/-- AUTH_RESULT, of a received packet whose work has begun: the verdict under the bound generation and under the previous one. A
half that the slot does not hold authenticates nothing. -/
def authResult (id : Nat) (ok prevOk : Bool) (m : M) : M :=
  match findOp m id with
  | none => m
  | some o =>
    if o.st = 0 || !o.rx then m
    else
      let has := match opGen m o with | some g => bit g.halves 0 | none => false
      releaseAll o.stream (authEnds o (ok && has) prevOk m)

def execAuthResult (id : Nat) (ok prevOk : Bool) (s : State) : Host.Outcome State Fault Refusal := lift (authResult id ok prevOk) s

/-! ## Commands -/

/-- NET_PORT_SET (R133). -/
def netPortSetSpec : CmdSpec :=
  { baseSpec 0x0B01 permMedia with
    when := portWhen
    mask := mb 0 1 ||| mbits 1 1 ||| mb 2 12 ||| mb 16 16
    obj := dieObj
    fields := fun d m => firstBad
      [(!laneOk d m, off 0), (!(decide (1280 ≤ pay d 12 2) && decide (pay d 12 2 ≤ 9216)), off 12)]
    late := fun d m => dieLate m false (oid d)
    apply := fun d m =>
      (setPort (trfPort d) { getPort m (trfPort d) with
        mac := pay d 2 6, ip4 := pay d 8 4, ip6en := payBit d 1 0, ip6 := pay d 16 16, mtu := pay d 12 2 } m, okReply 0xFF) }

def execNetPortSet (d : Desc) (s : State) : Host.Outcome State Fault Refusal := lift (hostRow netPortSetSpec d) s

/-- CIP_AUTH_SET (R159). -/
def cipAuthSetSpec : CmdSpec :=
  { baseSpec 0x0E01 permMedia with
    mask := mb 0 4
    obj := legObj
    fields := fun d _ => firstBad
      [(pay d 0 2 == 0, off 0), (pay d 2 2 == 0 || decide (3600 < pay d 2 2), off 2)]
    late := fun d m => match dieLate m false (oid d) with
      | some f => some f
      | none => firstFail [(legState d m == 0 || legState d m == 4, stConflict, 0)]
    when := netWhen
    ostate := legState
    apply := fun d m =>
      ({ m with auth := tset m.auth (legOfD d) { getAuth m (legOfD d) with f := pay d 0 2, t := pay d 2 2 } },
       okReply (legState d m)) }

def execCipAuthSet (d : Desc) (s : State) : Host.Outcome State Fault Refusal := lift (hostRow cipAuthSetSpec d) s

/-- The stream a CIP_ROC_SET names, of the direction byte 4 gives: a receive stream index or a send stream index. -/
def rocBad (d : Desc) : Bool := payBit d 4 0 != decide (4096 ≤ oidIdx (oid d))

def cipRocSetSpec : CmdSpec :=
  { baseSpec 0x0E02 permMedia with
    mask := mb 0 4 ||| mbits 4 1
    obj := streamObj
    fields := fun d _ => firstBad [(rocBad d, off 4)]
    late := fun d m => match dieLate m false (oid d) with
      | some f => some f
      | none =>
        let k := oidKey (oid d)
        firstFail
          [(streamSt m k == 0, stConflict, 0),
           ((match getLeg m (anyLeg k) with | some l => decide (3 ≤ l.state) | none => false), stConflict, 0)]
    when := netWhen
    ostate := fun d m => streamSt m (oidKey (oid d))
    apply := fun d m =>
      let k := oidKey (oid d)
      (updSend k (fun s => { s with roc := pay d 0 4 }) (updStream k (fun s => { s with roc := pay d 0 4, seqHigh := none }) m),
       okReply (streamSt m k)) }

def execCipRocSet (d : Desc) (s : State) : Host.Outcome State Fault Refusal := lift (hostRow cipRocSetSpec d) s

end Sys2Proof.Machine
end

