-- ==== Sys2Proof/Machine/Jobs.lean ====
section
/-!
DEFINITION. What the jobs of every chapter share: the opening of windows (R40, R43, R44), deadlines and slack (R46 to R48,
R52), and the placement of objects (R25, R26).
-/
namespace Sys2Proof.Machine

/-! ## Windows -/

/-- The window to start now for an object whose last window is given. A window that a time step skipped, or that a backward
step holds, does not start (R40). -/
def winOpen (b : Boundary) (last : Option Nat) (m : M) : Option Nat :=
  let k := boundaryNo b m.dev
  if m.start.phase ≠ .ready || !inRun m || decide (boundaryAt b k < m.tim.holdUntil) then none
  else match last with
    | some w => if w < k then some k else none
    | none => some k

/-- A window has started: a backward step waits for its end. -/
def winMark (b : Boundary) (k : Nat) (m : M) : M :=
  let e := boundaryAt b (k + 1)
  if m.tim.lastWindowStop < e then { m with tim.lastWindowStop := e } else m

/-- Windows of a grid that start in an interval of device time. -/
def windowsIn (b : Boundary) (i : Nat × Nat) : Nat :=
  if i.2 ≤ i.1 then 0 else boundaryNo b (i.2 - 1) + 1 - (if i.1 = 0 then 0 else boundaryNo b (i.1 - 1) + 1)

/-- Windows that a backward step held for a grid, when the first window after it starts: each output has repeated its last
output for them. -/
def winHeld (b : Boundary) (k : Nat) (m : M) : Nat :=
  let t := m.tim
  if boundaryAt b (k - 1) < t.holdUntil then ((t.heldBefore ++ [(t.holdFrom, t.holdUntil)]).map (windowsIn b)).sum else 0

/-- Length of window `k`. -/
def winLen (b : Boundary) (k : Nat) : Nat := boundaryAt b (k + 1) - boundaryAt b k

/-- The output guard of a kind of Table 02-3. -/
def guardOf (m : M) (kind : Nat) : Nat := m.tim.guards.getD kind 0

/-- Deadline of window `k`: its end less the guard in force (R46). -/
def winDeadline (b : Boundary) (k kind : Nat) (m : M) : Nat := boundaryAt b (k + 1) - guardOf m kind

/-! ## Slack (R52) -/

def paceKey (die unit : Nat) : Nat := die * 64 + unit

def leastInt (t : Tbl Int) (k : Nat) (v : Int) : Tbl Int :=
  match tget? t k with
  | some x => if v < x then tset t k v else t
  | none => tset t k v

/-- A job reports its slack. DESIGN CHOICE (log 115): the slack ratio in whole per mille is rounded down, also below 0. -/
def reportSlack (die unit : Nat) (slack : Int) (len : Nat) (m : M) : M :=
  let s := satS 32 slack
  let r : Int := if len = 0 then 0 else s * 1000 / len
  { m with pace.avsRatio := (match m.pace.avsRatio with
             | some x => some (if r < x then r else x)
             | none => some r),
           pace.accSlack := leastInt m.pace.accSlack (paceKey die unit) s,
           pace.accRatio := leastInt m.pace.accRatio (paceKey die unit) r }

/-- A late, aborted, frozen or overrun job of a unit (Table 02-12). -/
def countUnit (die unit : Nat) (m : M) : M := count .timLate die unit 0 m

/-- A late, aborted or overrun job: the voltage loop sees it. An encode is never late (R48, R54). -/
def countLate (die unit : Nat) (m : M) : M := countUnit die unit { m with pace.anyLate := true }

/-- EV_DEADLINE_MISS, at most once per object per second (R48). -/
def deadlineMiss (kind obj window : Nat) (slack : Int) (m : M) : M :=
  limited { ev := 0x0103, i := obj, j := 0 } nsPerS (raise 0x0103 2 obj [.u 1 kind, .u 8 window, .s 4 slack]) m

/-! ## Placement -/

/-- A media die that takes new objects: in Run and not under re-structure or lost. -/
def dieTakes (m : M) (die : Nat) : Bool :=
  dieRun m die && (match m.syn.rest with | some r => r.die != die | none => true)

/-- The media die with the most free places, ties to the lowest number. -/
def placeMost (free : Nat → Nat) (m : M) : Option Nat :=
  (mediaDies m).foldl (fun a d =>
    if dieTakes m d && decide (0 < free d) then
      match a with
      | none => some d
      | some e => if free e < free d then some d else some e
    else a) none

/-- A commit time where the command takes none: the first of its bytes that is not zero. -/
def commitBad (d : Desc) : Option Nat := firstBad [(d.commitSec != 0, 12), (d.commitNs != 0, 18)]

/-- The first of two results of a field check. -/
def orBad (a b : Option Nat) : Option Nat := match a with
  | some x => some x
  | none => b

/-- A completion of a command that gives an assigned value. -/
def okDetail (detail before after : Nat) : Applied :=
  .done { status := stOK, detail := detail, plain := none, before := before, after := after }

end Sys2Proof.Machine
end

