-- ==== Sys2Proof/Machine/DspPort.lean ====
section
/-!
DEFINITION. Source references (R218), and the signal engines' blocks at the audio window starts of their die: output blocks
read, input blocks and the port table written, engines begun, window interrupts (R337, R353, R362).
-/
namespace Sys2Proof.Machine

/-! ## Source references (Table 10-2) -/

def srcKind (r : Nat) : Nat := bits r 28 4
def srcDie (r : Nat) : Nat := bits r 25 3
def srcStrm (r : Nat) : Nat := mkKey (srcDie r) (bits r 12 13)
def srcEngine (r : Nat) : Nat := bits r 20 5
def srcChan (r : Nat) : Nat := bits r 0 6

/-- Channels a stream offers: one of kind 0, the declared ones of kind 3, four for each group of kind 7. -/
def strmChans (s : Strm) : Nat :=
  match s.kind with
  | 0 => 1
  | 3 => s.channels
  | 7 => 4 * ((List.range 8).filter fun g => bit s.format g).length
  | _ => 0

/-- An ACTIVE port of an engine (R336). -/
def portActive (m : M) (die n p : Nat) : Bool := match getDsp m die n with
  | some e => (tget? e.ports p).isSome
  | none => false

/-- A source reference is accepted (R218). -/
def sourceOk (m : M) (r : Nat) : Bool :=
  decide (1 ≤ srcDie r) && decide (srcDie r ≤ m.part.media) && bits r 6 6 == 0 &&
  (if srcKind r = 1 then
    bits r 12 13 < 4096 && (match getStrm m (srcStrm r) with
      | some s => decide (srcChan r < strmChans s)
      | none => false)
   else srcKind r == 2 && bits r 12 8 == 0 && bits r 4 2 == 0 && portActive m (srcDie r) (srcEngine r) (bits r 0 4))

/-- A source reference with a bit set that Table 10-2 calls reserved or zero: the byte of it, at an offset of the payload. -/
def srcReserved (r o : Nat) : Option Nat :=
  firstBad [(bits r 6 2 != 0 || (srcKind r == 2 && bits r 4 2 != 0), off o), (bits r 8 4 != 0 || (srcKind r == 2 && bits r 12 4 != 0), off (o + 1)),
    (srcKind r == 2 && bits r 16 4 != 0, off (o + 2))]

/-- The leg that owns a stream-channel source. -/
def srcLeg (r : Nat) : Nat := strmLeg (srcStrm r)

/-! ## Blocks (R362) -/

/-- Samples of an audio window of a die. -/
def dieSamples (m : M) (die : Nat) : Nat := if dieWindow (img m) die = 250000 then 12 else 48

/-- The output block of a port for window `w`, when its ready word names it. -/
def portBlock (e : Dsp) (p w n : Nat) : Option (List Int) :=
  let base := 0x3800 + 128 * p + 64 * (w % 2)
  if (memGet e true 0 (base + 63)).toNat = w % 2 ^ 32 then
    some ((List.range n).map fun i => (memGet e true 0 (base + i)).toInt / 256)
  else none

/-- A port's output block of a window is not ready: counted, and raised at most once per port per second unless the engine
is HALTED. -/
def portLate (die n p w : Nat) (m : M) : M :=
  match getDsp m die n with
  | none => m
  | some e =>
    let m1 := countDsp die n 0 1 m
    if e.state = 2 then m1
    else limited { ev := 0x1502, i := dspKey die n, j := p } nsPerS
      (raise 0x1502 3 (dspOid die n) [.u 1 p, .u 4 (w % 2 ^ 32)]) m1

/-- Every ACTIVE port of a die at the start of window `w`: whether its block is ready is a decision of a leading part. -/
def portsRead (die w : Nat) (m : M) : M :=
  (m.dsp.engines.filter fun e => keyDie e.1 == die).foldl (fun x e =>
    e.2.ports.foldl (fun y p =>
      let ok := (portBlock e.2 p.1 w 1).isSome
      let y1 := noteOut (.block (mkOid 0xE die (keyIdx e.1)) p.1 w ok) y
      if ok then y1 else portLate die (keyIdx e.1 - 12) p.1 w y1) x) m

/-- Write one input block, ready word last. -/
def writeInput (slot w : Nat) (block : List Int) (e : Dsp) : Dsp :=
  let base := 0x3800 + 128 * slot + 64 * (w % 2)
  let e1 := (block.zipIdx).foldl (fun x s => memPut false 0 (base + s.2) (BitVec.ofInt 32 (s.1 * 256)) x) e
  memPut false 0 (base + 63) (BitVec.ofNat 32 w) e1

/-- The inputs of a die's ports, as (engine key, slot, source). -/
def portInputs (m : M) (die : Nat) : List (Nat × Nat × Nat) :=
  (m.dsp.engines.filter fun e => keyDie e.1 == die).flatMap fun e =>
    e.2.ports.flatMap fun p => ((p.2.slots.zip p.2.inputs).filter fun i => i.2 != 0).map fun i => (e.1, i.1, i.2)

/-- The port table entry of a port: function code, input slots as byte pairs, 0xFF for none, and the arg. -/
def portEntry (p : DPort) : List Nat :=
  let s (i : Nat) : Nat := p.slots.getD i 0xFF
  [p.code, s 0 + s 1 * 256, s 2 + s 3 * 256, p.arg]

def writeEntry (port : Nat) (ws : List Nat) (e : Dsp) : Dsp :=
  (ws.zipIdx).foldl (fun x v => memPut false 0 (0x3200 + 4 * port + v.2) (BitVec.ofNat 32 v.1) x) e

/-! ## The window start of a die's engines -/

/-- An engine at a window start: it begins (R337), or its window interrupt falls due (R353). A wait in IDLE ends with an
interrupt that is taken. -/
def engineWindow (die n : Nat) (m : M) : M :=
  match getDsp m die n with
  | none => m
  | some e =>
    if e.state ≠ 1 then m
    else if !e.started then
      (m.deferred.filter fun d => d.opcode == 0x1505 && oid d == dspOid die n).foldl
        (fun x d => finish d false (reply stOK 0 1) x) (setDsp die n { e with started := true } m)
    else
      let m1 := if e.winDue then countDsp die n 1 1 m else m
      setDsp die n { e with winDue := true } m1

/-- An engine does not wait for a window start to begin. -/
def engineBegun (m : M) (die n : Nat) : Bool := match getDsp m die n with
  | some e => e.state != 1 || e.started
  | none => true

/-- DSP_PAIR completes once the engines that it loaded run (R389). -/
def joinsDone (die : Nat) (m : M) : M :=
  let mine (w : Desc × Nat) : Bool :=
    oidDie (oid w.1) == die && engineBegun m die (oidIdx (oid w.1) - 12) && engineBegun m die (oidIdx (oid w.1) - 11)
  let code (d : Desc) : Nat := match getDsp m die (oidIdx (oid d) - 12) with
    | some e => e.state
    | none => 0
  (m.join.waits.filter mine).foldl
    (fun x w => finish w.1 false { reply stOK 0 (code w.1) with plain := some (w.2, code w.1) } x)
    { m with join.waits := m.join.waits.filter fun w => !mine w }

def enginesWindow (die : Nat) (m : M) : M :=
  joinsDone die ((m.dsp.engines.filter fun e => keyDie e.1 == die).foldl (fun x e => engineWindow die (keyIdx e.1 - 12) x) m)

end Sys2Proof.Machine
end

