-- ==== Sys2Proof/Machine/Mixer.lean ====
section
/-!
DEFINITION. The mixers' arithmetic and windows (chapter 10): sources and their blocks, ramps, partial sums and totals, leg
outputs with overlays and limiter, meters, overrun, and the rows of the exchange between dies. A window's samples are
computed up to a sample boundary whenever a bank swap falls there, and to their end when the next window starts.
-/
namespace Sys2Proof.Machine

/-! ## Exact comparisons -/

/-- The largest number from `lo` to `hi` that meets a test that holds from `lo` up to some bound, by halving. -/
def largest (p : Nat → Bool) : Nat → Nat → Nat → Nat
  | 0, lo, _ => lo
  | n + 1, lo, hi =>
    if hi ≤ lo then lo
    else
      let mid := (lo + hi + 1) / 2
      if p mid then largest p n mid hi else largest p n lo (mid - 1)

/-- The decibel form of R229: the largest code not above a × (b / a)^(k / n). -/
def dbCode (a b k n : Nat) : Nat :=
  let g := Nat.gcd k n
  let k1 := k / g
  let n1 := n / g
  largest (fun c => decide (c ^ n1 ≤ a ^ (n1 - k1) * b ^ k1)) 21 0 1048575

/-- A ramp's code for sample `k` of `n` (R229). -/
def rampCode (r : Ramp) (k : Nat) : Nat :=
  if r.n = 0 || decide (r.n < k) then r.b
  else if r.a ≤ 65 || decide (r.b ≤ 65) then ((r.a : Int) + ((r.b : Int) - r.a) * k / (r.n : Int)).toNat
  else dbCode r.a r.b k r.n

/-- The code in force. -/
def rampNow (r : Ramp) : Nat := if r.k = 0 && r.n ≠ 0 then r.a else rampCode r r.k

def rampAt (code : Nat) : Ramp := { a := code, b := code, n := 0, k := 0 }

/-- A change to a code over a time in ms, from the code in force. -/
def rampTo (r : Ramp) (code ms : Nat) : Ramp := { a := rampNow r, b := code, n := ms * 48, k := 0 }

def rampStep (r : Ramp) : Ramp := if r.k < r.n then { r with k := r.k + 1 } else r

/-- The codes of the next `n` samples, and the ramp after them. -/
def rampCodes : Nat → Ramp → List Nat × Ramp
  | 0, r => ([], r)
  | n + 1, r =>
    let r1 := rampStep r
    let s := rampCodes n r1
    (rampNow r1 :: s.1, s.2)

/-- Sums of two blocks, the shorter one continued by zeros. -/
def vadd : List Int → List Int → List Int
  | [], b => b
  | a, [] => a
  | x :: a, y :: b => (x + y) :: vadd a b

def padTo (n : Nat) (l : List Int) : List Int := l ++ List.replicate (n - l.length) 0

/-! ## Accessors -/

def mixerReset : Mixer :=
  { bankB := false, meterMs := 100, meterNext := 100, meterAt := 0, window := none, len := 1000000, deadline := 0, pos := 0,
    done := false, late := false, lack := [], gpio := 0 }

def getMixer (m : M) (die : Nat) : Mixer := tget m.mix.mixers die mixerReset
def setMixer (die : Nat) (x : Mixer) (m : M) : M := { m with mix.mixers := tset m.mix.mixers die x }

/-- Global number of a bus (R216), its home die and its object id. -/
def busNo (die idx : Nat) : Nat := (die - 1) * 256 + idx
def busDie (b : Nat) : Nat := b / 256 + 1
def busOid (b : Nat) : Nat := mkOid 0xC (busDie b) (b % 256)
def busOf (o : Nat) : Nat := busNo (oidDie o) (oidIdx o)
def getBus (m : M) (b : Nat) : Option Bus := tget? m.mix.buses b
def updBus (b : Nat) (f : Bus → Bus) (m : M) : M := { m with mix.buses := tupd m.mix.buses b f }

/-- Exchange window of a bus in ns, in samples, and D (R222). -/
def busE (x : Bus) : Nat := if x.short then 250000 else 1000000
def busN (x : Bus) : Nat := if x.short then 12 else 48
def busD (x : Bus) : Nat := 2 * busN x

def xpKey (die idx : Nat) : Nat := die * 16384 + idx
def xpDie (k : Nat) : Nat := k / 16384
def dieXps (m : M) (die : Nat) : List (Nat × Xp) := m.mix.xps.filter fun x => xpDie x.1 == die
def countXp (k c n : Nat) (m : M) : M := cntAdd { reg := .mixXp, i := k / 16384, j := k % 16384, k := c } n m

def getLegOut (m : M) (k : Nat) : Option LegOut := tget? m.mix.legs k
def updLegOut (k : Nat) (f : LegOut → LegOut) (m : M) : M := { m with mix.legs := tupd m.mix.legs k f }
def countMixLeg (leg c n : Nat) (m : M) : M := cntAdd { reg := .mixLeg, i := keyDie leg, j := keyIdx leg, k := c } n m

/-- A bank gives a leg output: a bus or an overlay (R225). -/
def bankLive (b : LegBank) : Bool := (match b.par with | some p => p.bus.isSome | none => false) || !b.ov.isEmpty

/-- A bank holds anything of a leg output. -/
def bankHeld (b : LegBank) : Bool := b.par.isSome || !b.ov.isEmpty

def dieLegs (m : M) (die : Nat) : List (Nat × LegOut) := m.mix.legs.filter fun l => keyDie l.1 == die

/-- The parameters of a leg output of overlays only. -/
def legParReset : LegPar :=
  { bus := none, gain := 65536, rampMs := 0, headroom := 0, width16 := false, thr := none, look := 0, release := 10 }

def bankPar (b : LegBank) : LegPar := b.par.getD legParReset

def meterReset : Meter := { top := 0, sq := 0, n := 0, peak := -1000, rms := -1000 }
def srcReset : SrcRun := { block := [], win := none, feed := [], last := none, miss := 0, meter := meterReset }

def getSrc (m : M) (r : Nat) : SrcRun := tget m.mix.srcs r srcReset
def setSrc (r : Nat) (x : SrcRun) (m : M) : M := { m with mix.srcs := tset m.mix.srcs r x }

/-- Add samples to a meter, in units of 2^−16 of a sample step. -/
def meterAdd (l : List Int) (x : Meter) : Meter :=
  l.foldl (fun a v => { a with top := if a.top < v.natAbs then v.natAbs else a.top, sq := a.sq + v.natAbs * v.natAbs, n := a.n + 1 }) x

/-! ## Source blocks (R234, R235) -/

/-- The times of a sample number, and of a sample of a packet, in ns × 48,000. -/
def gridTime (s : Nat) : Int := ((s * nsPerS : Nat) : Int)
def sampTime (at_ i : Nat) : Int := ((at_ * 48000 + i * nsPerS : Nat) : Int)

/-- Insert by sequence number. -/
def insPcm (p : Pcm) : List Pcm → List Pcm
  | [] => [p]
  | q :: r => if p.seq < q.seq then p :: q :: r else q :: insPcm p r

/-- What a stream offers a window: the packets released, and those held that have authenticated. -/
def pcmList (s : Strm) : List Pcm :=
  let held := if s.kind = 3 || s.kind = 7 then
      (s.held.filter fun p => p.auth == 1).map fun p => ({ seq := p.seq, at_ := p.playout, chans := pcmWords s p.media.samples } : Pcm)
    else []
  held.foldl (fun a p => insPcm p a) s.pcm

/-- Samples of one channel as (time, value). -/
def chanSamples (c : Nat) (p : Pcm) : List (Int × Int) := ((p.chans.getD c []).zipIdx).map fun v => (sampTime p.at_ v.2, v.1)

/-- The sample nearest a time. -/
def nearest (l : List (Int × Int)) (t : Int) : Option (Int × Int) :=
  l.foldl (fun a v => match a with
    | none => some v
    | some b => if (v.1 - t).natAbs < (b.1 - t).natAbs then some v else some b) none

/-- A time falls in a gap between a packet and the one that follows it in sequence, so that a sample repeats there. -/
def inSlip (c : Nat) (t : Int) : List Pcm → Bool
  | p :: q :: r =>
    let e := sampTime p.at_ (p.chans.getD c []).length
    (decide (q.seq = p.seq + 1) && decide (e ≤ t) && decide (t < sampTime q.at_ 0)) || inSlip c t (q :: r)
  | _ => false

/-- The sample a grid point takes, if one is available. -/
def gridPick (ps : List Pcm) (c : Nat) (t : Int) : Option (Int × Int) :=
  match nearest (ps.flatMap (chanSamples c)) t with
  | none => none
  | some v => if 2 * (v.1 - t).natAbs ≤ nsPerS || inSlip c t ps then some v else none

/-- The value a source gave at a sample number. -/
def feedAt (f : List (Nat × Int)) (j : Nat) : Int := match f.find? fun v => v.1 == j with
  | some v => v.2
  | none => 0

/-- A missing sample of a kind 0 stream (Table 10-6), `miss` samples into the loss: zero from an engine that is HALTED (R357);
else Opus packet loss concealment for 100 ms, whose values are the firmware's; of G.711 and G.722 the last 10 ms repeated once with a linear fade, whose end points the
spec leaves open; then, and of every other source, zero. -/
def concealed (s : Strm) (halted : Bool) (free sample : Nat) (x : SrcRun) : Int :=
  if s.kind ≠ 0 || halted then 0
  else if s.format = 0 then
    if x.miss < 4800 then ((Config.freeNat free % 2 ^ 24 : Nat) : Int) - 2 ^ 23 else 0
  else if x.miss < 480 then feedAt x.feed (sample - 480) * ((480 - x.miss - Config.fadeStep % 2 : Nat) : Int) / 480
  else 0

/-- One grid point of a source: value, missing and slip counts, and the run after it. -/
structure Picked where
  val : Int
  missing : Nat
  slips : Nat
  run : SrcRun
deriving DecidableEq, Repr

def pickOne (s : Strm) (halted : Bool) (ps : List Pcm) (c free sample : Nat) (x : SrcRun) : Picked :=
  match gridPick ps c (gridTime sample) with
  | none =>
    { val := concealed s halted free sample x, missing := 1, slips := 0, run := { x with miss := x.miss + 1 } }
  | some (t, v) =>
    let slips := match x.last with
      | none => 0
      | some u => if u = t then 1
        else ((ps.flatMap (chanSamples c)).filter fun y => decide (u < y.1) && decide (y.1 < t)).length
    { val := v, missing := 0, slips := slips, run := { x with last := some t, miss := 0 } }

/-- A block of a stream channel, with its missing and slip counts. -/
def strmBlock (s : Strm) (halted : Bool) (c first n free : Nat) (x : SrcRun) : List Int × Nat × Nat × SrcRun :=
  let ps := pcmList s
  (List.range n).foldl (fun a i =>
    let p := pickOne s halted ps c (free + i) (first + i) a.2.2.2
    (a.1 ++ [p.val], a.2.1 + p.missing, a.2.2.1 + p.slips, p.run)) ([], 0, 0, x)

/-- The decode instance of a stream lies on a HALTED engine. -/
def instHalted (m : M) (k : Nat) : Bool := match tget? m.dsp.insts k with
  | some i => (match getDsp m (keyDie k) i.engine with | some e => e.state == 2 | none => false)
  | none => false

/-- The block of a source for the window that starts: counted on its crosspoints, fed to overlays and meters. -/
def srcTake (die w n r : Nat) (m : M) : M :=
  let first := w * n
  let x := getSrc m r
  let b : List Int × Nat × Nat × SrcRun :=
    if srcKind r = 1 then
      match getStrm m (srcStrm r) with
      | some s => strmBlock s (instHalted m (srcStrm r)) (srcChan r) first n m.drawn x
      | none => (List.replicate n 0, n, 0, x)
    else match getDsp m die (srcEngine r) with
      | some e => match portBlock e (bits r 0 4) w n with
        | some l => (l, 0, 0, x)
        | none => (List.replicate n 0, n, 0, x)
      | none => (List.replicate n 0, n, 0, x)
  let feed := ((b.1.zipIdx).reverse.map fun v => (first + v.2, v.1)) ++ x.feed.filter (fun v => decide (first < v.1 + 576))
  let run := { b.2.2.2 with block := b.1, win := some w, feed := feed, meter := meterAdd (b.1.map (· * 65536)) x.meter }
  let m1 := setSrc r run { m with drawn := m.drawn + n }
  ((dieXps m die).filter fun k => k.2.source == r && k.2.act.isSome).foldl
    (fun y k => countXp k.1 1 b.2.2.1 (countXp k.1 0 b.2.1 y)) m1

/-- A source first named within a window presents its block of it (R231). -/
def srcReady (r : Nat) (m : M) : M :=
  let die := srcDie r
  match (getMixer m die).window with
  | none => m
  | some w => if (getSrc m r).win = some w then m else srcTake die w (if (getMixer m die).len = 250000 then 12 else 48) r m

/-- Overlay sources of every leg output, of either bank. -/
def ovSources (m : M) : List Nat :=
  m.mix.legs.flatMap fun l => ((l.2.act.ov ++ l.2.ina.ov).map fun o => o.2.source)

/-- Sources that a die's mixer presents. -/
def dieSources (m : M) (die : Nat) : List Nat :=
  (((dieXps m die).map fun x => x.2.source) ++ (ovSources m).filter (fun r => srcDie r == die && r != 0) ++
   (portInputs m die).map fun i => i.2.2).eraseDups

/-- Drop released samples that no later window can take: those that end 10 ms before this one. -/
def prunePcm (t : Nat) (s : Strm) : Strm :=
  { s with pcm := s.pcm.filter fun p => decide (t < p.at_ + (p.chans.headD []).length * 20834 + 10000000) }

/-! ## The input side (R219 to R223) -/

/-- Append samples to a partial sum of a die, from a sample offset of its exchange window. -/
def partialAdd (b die w off_ : Nat) (sums : List Int) (owner : Option Nat) (m : M) : M :=
  let put (old : List Int) : List Int := vadd old (List.replicate off_ 0 ++ sums)
  let ownPut (o : List (Nat × List Int)) : List (Nat × List Int) :=
    match owner with
    | none => o
    | some l =>
      if o.any fun x => x.1 == l then o.map fun x => if x.1 = l then (l, put x.2) else x else o ++ [(l, put [])]
  if m.mix.partials.any fun p => p.bus == b && p.die == die && p.window == w then
    { m with mix.partials := m.mix.partials.map fun p =>
        if p.bus = b && p.die = die && p.window = w then { p with sums := put p.sums, owned := ownPut p.owned } else p }
  else
    { m with mix.partials := m.mix.partials ++
        [{ bus := b, die := die, window := w, sums := put [], owned := ownPut [], arrived := false }] }

/-- A source whose leg is DRAINING contributes nothing from the boundary of the LEG_DRAIN (R129). -/
def srcDrained (m : M) (r t : Nat) : Bool := srcKind r == 1 && (match getLeg m (srcLeg r) with
  | some l => l.state == 4 && decide (l.drainDev ≤ t)
  | none => false)

/-- One crosspoint forms its products for samples [pos, upto) of die window `w`. -/
def xpRun (die w len n pos upto : Nat) (k : Nat) (m : M) : M :=
  match tget? m.mix.xps k with
  | none => m
  | some x =>
    match x.act, getBus m x.bus with
    | some p, some b =>
      let codes := rampCodes (upto - pos) x.ramp
      let t0 := w * len
      let src := getSrc m x.source
      let blk := if srcDrained m x.source t0 || src.win != some w then [] else (src.block.drop pos).take (upto - pos)
      let prods := (blk.zip codes.1).map fun v => v.1 * (v.2 : Int)
      let off_ := (t0 % busE b) / len * n + pos
      let m1 := { m with mix.xps := tset m.mix.xps k { x with ramp := codes.2 } }
      partialAdd x.bus die (t0 / busE b) off_ prods p.owner m1
    | _, _ => m

/-! ## The output side (R222, R225 to R228) -/

/-- The largest value not above 2^e × 10^(t / 200), with t at most 0: a level of R227 or R228 at scale 2^e. -/
def levelVal (e : Nat) (t : Int) : Nat :=
  largest (fun v => decide (v ^ 200 * 10 ^ t.natAbs ≤ 2 ^ (200 * e))) 41 0 (2 ^ e)

/-- The least sample magnitude at or above a threshold in 0.1 dBFS. -/
def levelMin (t : Int) : Nat :=
  let v := levelVal 23 t
  if v ^ 200 * 10 ^ t.natAbs = 2 ^ (200 * 23) then v else v + 1

/-- Code of a duck depth: −depth dB. -/
def duckCode (depth : Nat) : Nat := largest (fun c => decide (c ^ 20 * 10 ^ depth ≤ 65536 ^ 20)) 17 0 65536

/-- trunc(g × 10^(rr / 960,000)). -/
def recover (g rr : Nat) : Nat :=
  let c := Nat.gcd rr 960000
  let e := 960000 / c
  largest (fun x => decide (x ^ e ≤ g ^ e * 10 ^ (rr / c))) 18 g (g + g / 256 + 1)

/-- Saturation to 64 bits; whether it was needed. -/
def sat64 (v : Int) : Int × Bool :=
  if v < -(2 ^ 63) then (-(2 ^ 63), true) else if 2 ^ 63 - 1 < v then (2 ^ 63 - 1, true) else (v, false)

/-- The total of a bus for an exchange window as it has arrived at a die. -/
def totalAt (m : M) (b w die : Nat) : Option Total :=
  m.mix.totals.find? fun t => t.bus == b && t.window == w && t.at_.contains die

/-- bus_term of R222 at an output sample. -/
def busTerm (m : M) (die leg : Nat) (lack : List Nat) (b o : Nat) : Int :=
  match getBus m b with
  | none => 0
  | some x =>
    if lack.contains b || decide (o < busD x) then 0
    else
      let j := o - busD x
      match totalAt m b (j / busN x) die with
      | none => 0
      | some t => (t.sums.getD (j % busN x) 0) -
          ((t.owned.filter fun p => p.1 == leg).map fun p => p.2.getD (j % busN x) 0).sum

/-- D of a leg: that of its bus, or two audio windows of its die (R226). -/
def legD (m : M) (n : Nat) (bus : Option Nat) : Nat :=
  match bus with
  | some b => match getBus m b with
    | some x => busD x
    | none => 2 * n
  | none => 2 * n

/-- What an overlay takes of a source: nothing from the boundary of a LEG_DRAIN of the source's leg (R129). -/
def ovFeed (m : M) (r : Nat) : List (Nat × Int) :=
  let f := (getSrc m r).feed
  if srcKind r ≠ 1 then f
  else match getLeg m (srcLeg r) with
    | some l => if l.state = 4 then f.filter fun v => decide (boundaryAt .sample v.1 < l.drainDev) else f
    | none => f

/-- Peak of an overlay source over the last 1 ms. -/
def feedPeak (f : List (Nat × Int)) (j : Nat) : Nat :=
  (f.filter fun v => decide (v.1 ≤ j) && decide (j < v.1 + 48)).foldl (fun a v => if a < v.2.natAbs then v.2.natAbs else a) 0

def ovReset : OvRun := { active := false, up := false, quiet := 0, ramp := rampAt 0 }

/-- A GPIO pin is active: an open input and a disabled output are not (R456). Bits 32 up mark those. -/
def gpioActive (gpio p : Nat) (actLow : Bool) : Bool := !bit gpio (32 + p) && bit gpio p != actLow

/-- The key of a slot at an output sample. -/
def keyActive (p : OvPar) (gpio : Nat) (f : List (Nat × Int)) (o d : Nat) : Bool :=
  if p.key = 2 then decide (d ≤ o) && decide (levelMin p.thr ≤ feedPeak f (o - d))
  else if p.key = 3 then gpioActive gpio p.gpio p.actLow
  else false

/-- A slot moves on by one sample; answers the time of the ramp it starts, if it starts one. -/
def ovStep (p : OvPar) (active : Bool) (x : OvRun) : OvRun × Option Nat :=
  if active then
    if x.up then ({ x with active := true, quiet := 0, ramp := rampStep x.ramp }, none)
    else ({ active := true, up := true, quiet := 0, ramp := rampStep (rampTo x.ramp p.gain p.attackMs) }, some p.attackMs)
  else if x.up then
    if p.holdMs * 48 < x.quiet + 1 then
      ({ active := false, up := false, quiet := 0, ramp := rampStep (rampTo x.ramp 0 p.releaseMs) }, some p.releaseMs)
    else ({ x with active := false, quiet := x.quiet + 1, ramp := rampStep x.ramp }, none)
  else ({ x with active := false, ramp := rampStep x.ramp }, none)

/-- Duck target of the slots that are up. -/
def duckTarget (bank : LegBank) (ov : Tbl OvRun) : Nat :=
  bank.ov.foldl (fun a s =>
    if decide (2 ≤ s.2.key) && (tget ov s.1 ovReset).up then
      (if duckCode s.2.depth < a then duckCode s.2.depth else a) else a) 65536

/-- What one output sample leaves. -/
structure OutStep where
  leg : LegOut
  val : Option Int
  clips : Nat
  limited : Bool
deriving DecidableEq, Repr

/-- Steps 5 and 6 of R226: limiter and truncation. -/
def limitStep (p : LegPar) (v : Int) (x : LegOut) : OutStep :=
  let fin (y : Int) (z : LegOut) (lim : Bool) : OutStep :=
    let q := y / 65536
    let c := if q < -8388608 then -8388608 else if 8388607 < q then 8388607 else q
    { leg := z, val := some (if p.width16 then c / 256 else c), clips := b2n (c != q), limited := lim }
  match p.thr with
  | none => fin v x false
  | some thr =>
    let t := levelVal 39 thr
    let win := x.line ++ [v]
    let top := win.foldl (fun a y => if a < y.natAbs then y.natAbs else a) 0
    let gt := if top ≤ t then 65536 else 65536 * t / top
    let up := if x.g = 65536 then 65536 else recover x.g p.release
    let g1 := if gt < up then gt else up
    let g := if 65536 < g1 then 65536 else g1
    fin ((win.headD 0) * (g : Int) / 65536) { x with g := g, line := win.drop 1 } (decide (g < 65536))

/-- Bus changes that are heard from this output sample on. -/
def busHeard (o : Nat) (x : LegOut) : LegOut :=
  match x.busNext.filter fun c => decide (c.1 ≤ o) with
  | [] => x
  | l => { x with bus := match l.getLast? with | some c => c.2 | none => x.bus, busNext := x.busNext.filter fun c => decide (o < c.1) }

/-- One output sample of a leg (R226). -/
def outSample (m : M) (die leg n : Nat) (mx : Mixer) (o : Nat) (x0 : LegOut) : OutStep :=
  let x := busHeard o x0
  let p := bankPar x.act
  let d := legD m n x.bus
  let term := match x.bus with
    | some b => busTerm m die leg mx.lack b o
    | none => 0
  let ovs := x.act.ov.map fun s =>
    let f := ovFeed m s.2.source
    let r := ovStep s.2 (keyActive s.2 mx.gpio f o d) (tget x.ov s.1 ovReset)
    (s.1, s.2, r.1, r.2, if o < d then 0 else feedAt f (o - d))
  let ov1 : Tbl OvRun := ovs.map fun s => (s.1, s.2.2.1)
  let target := duckTarget x.act ov1
  let ms := (ovs.filterMap fun s => s.2.2.2.1).foldl (fun a b => if a < b then b else a) 0
  let duck := rampStep (if x.duck.b = target then x.duck else rampTo x.duck target ms)
  let adds := (ovs.map fun s => s.2.2.2.2 * ((if s.2.1.key = 1 then s.2.1.gain else rampNow s.2.2.1.ramp : Nat) : Int)).sum
  let v2 := sat64 (term * (rampNow duck : Nat) / 65536 + adds)
  let gain := rampStep x.gainRamp
  let v3 := sat64 (v2.1 * (rampNow gain : Nat) / 65536)
  let v4 := v3.1 / 2 ^ p.headroom
  let r := limitStep p v4 { x with ov := ov1, duck := duck, gainRamp := gain }
  { r with clips := r.clips + b2n v2.2 + b2n v3.2 }

/-- Output samples [pos, upto) of one leg. -/
def legRun (die w n pos upto : Nat) (mx : Mixer) (leg : Nat) (m : M) : M :=
  match getLegOut m leg with
  | none => m
  | some x0 =>
    let r := ((List.range (upto - pos)).map (w * n + pos + ·)).foldl (fun (a : LegOut × List Int × Nat × Nat) o =>
      let s := outSample m die leg n mx o a.1
      (s.leg, a.2.1 ++ s.val.toList, a.2.2.1 + s.clips, a.2.2.2 + b2n s.limited)) (x0, [], 0, 0)
    let clipped := if r.2.2.1 = 0 then x0.clipped
      else (m.vault.mono, r.2.2.1) :: x0.clipped.filter fun c => decide (m.vault.mono < c.1 + nsPerS)
    let m1 := countMixLeg leg 3 r.2.2.2 (countMixLeg leg 2 r.2.2.1
      (updLegOut leg (fun _ => { r.1 with block := x0.block ++ r.2.1, clipped := clipped }) m))
    if r.2.2.1 = 0 then m1
    else limited { ev := 0x1203, i := leg, j := 0 } nsPerS
      (raise 0x1203 4 (legOid leg) [.u 2 (legId leg), .u 4 (clipped.map Prod.snd).sum]) m1

/-- A leg output is computed for the window that starts at `t`: from LEG_ARM's boundary to LEG_DRAIN's (R225). -/
def legComputed (m : M) (leg t : Nat) : Bool :=
  match getLeg m leg with
  | some l => (legCarries l && decide (l.armDev ≤ t)) || (l.state == 4 && decide (t < l.drainDev))
  | none => false

/-- Compute the window that runs up to a sample of it. -/
def mixAdvance (die upto : Nat) (m : M) : M :=
  let mx := getMixer m die
  match mx.window with
  | none => m
  | some w =>
    let n := if mx.len = 250000 then 12 else 48
    let hi := if upto < n then upto else n
    if hi ≤ mx.pos then m
    else
      let m1 := (dieXps m die).foldl (fun x k => xpRun die w mx.len n mx.pos hi k.1 x) m
      let m2 := ((dieLegs m1 die).filter fun l => bankLive l.2.act && legComputed m l.1 (w * mx.len)).foldl
        (fun x l => legRun die w n mx.pos hi mx l.1 x) m1
      setMixer die { getMixer m2 die with pos := hi } m2

/-! ## Leg blocks to the send path (R225, Table 13-4) -/

/-- Frames of a kind 0 stream that were passed over become tasks as tokens free. -/
def encRefill (die f : Nat) : Nat → M → M
  | 0, m => m
  | n + 1, m =>
    let x := getFlow m die f
    match x.beyond with
    | [] => m
    | i :: r =>
      if tokensMax ≤ x.items.length then m
      else match i.body with
        | .dsp k ts l =>
          let m1 := setFlow die f (flowPut i m.dev { x with beyond := r }) m
          encRefill die f n (taskReady die
            { stream := k, decode := false, ts := ts, samples := [l], flow := flowKey die f, token := x.next, level := streamLevel m k } m1)
        | _ => m

/-- One codec frame of a kind 0 stream enters its flow and becomes a task for its instance. -/
def encodeTask (k ts : Nat) (l : List Int) (m : M) : M :=
  match tget? m.dsp.insts k with
  | none => m
  | some i =>
    let die := keyDie k
    let f := 2048 + 64 * i.engine + i.slot.getD 0
    let x := getFlow m die f
    encRefill die f (x.beyond.length + 1) (setFlow die f { x with beyond := x.beyond ++ [newItem (.dsp k ts l)] } m)

/-- Samples of a frame of a kind 0 stream, or of a packet of kind 3. -/
def frameSamples (s : Send) : Nat := if s.kind = 0 then s.param * 48 else if bit s.format 1 then 6 else 48

/-- Send whole frames of what a stream has taken. -/
def legFrames (k : Nat) : Nat → M → M
  | 0, m => m
  | n + 1, m =>
    match getSend m k with
    | none => m
    | some s =>
      let len := frameSamples s
      if len = 0 || decide (s.acc.length < len) then m
      else
        let frame := s.acc.take len
        let m1 := updSend k (fun x => { x with acc := x.acc.drop len, accAt := x.accAt + len }) m
        let clk := if s.kind = 0 && s.format ≠ 0 then 8000 else 48000
        let ts := s.accAt * clk / 48000
        legFrames k n
          (if s.kind = 0 then encodeTask k ts frame m1
           else sendRtp k ts (12 + len * (if bit s.format 0 then 3 else 2)) m1)

/-- A leg output block reaches the leg's stream of kind 0 or 3; with none it is discarded (R293). -/
def legBlock (leg first : Nat) (l : List Int) (m : M) : M :=
  match (legSends m leg).find? fun s => s.2.kind == 0 || s.2.kind == 3 with
  | none => m
  | some (k, s) =>
    let joined := s.accAt + s.acc.length = first
    let m1 := updSend k (fun x =>
      { x with acc := if joined then x.acc ++ l else l, accAt := if joined then x.accAt else first }) m
    legFrames k (s.acc.length + l.length) m1

/-- The block of a leg output at the end of its window: a late one repeats the previous block (R237). -/
def legDeliver (w n : Nat) (late : Bool) (leg : Nat) (m : M) : M :=
  match getLegOut m leg with
  | none => m
  | some x =>
    if x.block.isEmpty then m
    else
      let b := if late then x.last else x.block
      let m1 := updLegOut leg (fun y =>
        { y with block := [], last := b, meter := meterAdd (b.map (· * 65536)) y.meter }) m
      legBlock leg (w * n) b (if late then countMixLeg leg 1 1 m1 else m1)

/-! ## Windows (R223, R224, R237) -/

/-- Partial sums of a die are complete to the end of a window. -/
def padPartials (die w len n : Nat) (done : Bool) (m : M) : M :=
  { m with mix.partials := m.mix.partials.map fun p =>
      match getBus m p.bus with
      | none => p
      | some b =>
        if p.die = die && p.window = w * len / busE b then
          let upto := (w * len % busE b) / len * n + n
          let full := padTo upto p.sums
          { p with sums := full, owned := p.owned.map fun o => (o.1, padTo upto o.2),
                   arrived := p.arrived || (done && busDie p.bus == die && full.length == busN b) }
        else p }

/-- The window that runs ends: its remaining samples, its partial sums, its leg blocks. -/
def mixFinish (die : Nat) (m : M) : M :=
  let mx := getMixer m die
  match mx.window with
  | none => m
  | some w =>
    let n := if mx.len = 250000 then 12 else 48
    let m1 := padPartials die w mx.len n mx.done (mixAdvance die n m)
    (dieLegs m1 die).foldl (fun x l => legDeliver w n mx.late l.1 x) m1

/-- EV_MIX_PARTIAL_LATE, at most once per bus per second. -/
def partialLate (b cause die w : Nat) (m : M) : M :=
  limited { ev := 0x1201, i := b, j := 0 } nsPerS
    (raise 0x1201 2 (busOid b) [.u 2 b, .u 1 cause, .u 1 die, .u 4 (w % 2 ^ 32)]) m

/-- The bus a leg output takes its bus term from in the window of `n` samples that starts at `t`: a change heard from the first
sample of the window counts. -/
def legBusAt (die t n : Nat) (m : M) (l : LegOut) : Option Nat :=
  (busHeard (t / (if dieWindow (img m) die = 250000 then 250000 else 1000000) * n) l).bus

/-- The total of a bus for exchange window `w` is late at a die: it is noted, and each leg output on the bus counts
total_late. -/
def totalMissed (b die w : Nat) (legs : List (Nat × Option Nat)) (m : M) : M :=
  let mine := legs.filter fun l => l.2 == some b
  if mine.isEmpty then m
  else noteOut (.totalLate b die w) (mine.foldl (fun x l => partialLate b 1 die w (countMixLeg l.1 0 1 x)) m)

/-- Leg outputs of a die that are computed in the window that starts at `t`, each with its bus. -/
def legsOnBuses (die t : Nat) (m : M) : List (Nat × Option Nat) :=
  ((dieLegs m die).filter fun l => bankLive l.2.act && legComputed m l.1 t).map fun l =>
    (l.1, legBusAt die t (dieSamples m die) m l.2)

/-- At the start of an exchange window a die notes the buses whose totals it lacks; in every window of it each leg output
on such a bus counts total_late. -/
def totalsDue (die t : Nat) (m : M) : M :=
  let mx := getMixer m die
  let check (b : Nat × Bus) : Bool := decide (t % busE b.2 = 0) && decide (2 ≤ t / busE b.2)
  let lack := m.mix.buses.filter fun b =>
    if check b then (totalAt m b.1 (t / busE b.2 - 2) die).isNone else mx.lack.contains b.1
  lack.foldl (fun x b => totalMissed b.1 die (t / busE b.2 - 2) (legsOnBuses die t m) x)
    (setMixer die { mx with lack := lack.map Prod.fst } m)

/-- GPIO levels as a number, with the pins that read inactive whatever their level marked in bits 63 to 32. -/
def gpioNow (m : M) : Nat := (m.pin.gpio.map fun g =>
  (if g.2.read then 2 ^ g.1 else 0) + (if g.2.fault == 5 || g.2.fault == 7 then 2 ^ (32 + g.1) else 0)).sum

def audioGrid (m : M) (die : Nat) : Boundary := .audio (dieWindow (img m) die)

/-- The mixer's job passes its deadline: every leg output block of the window repeats (R237, R47). A job that neither its
completion nor the strobe has ended is overrun when the next window starts. DESIGN CHOICE (log 116): of a job that still runs
EV_DEADLINE_MISS gives the slack at the strobe, the deadline less the device time of the strobe's row. -/
def mixOverrun (die : Nat) (m : M) : M :=
  let mx := getMixer m die
  match mx.window with
  | none => m
  | some w =>
    if mx.done || mx.late || decide (m.dev < mx.deadline) then m
    else
      let m1 := countLate die 47 (count .mixCnt die 0 0 (setMixer die { mx with late := true } m))
      deadlineMiss (if mx.len = 250000 then 1 else 0) (infraOid die) w ((mx.deadline : Int) - m.dev) m1

/-- The audio window start of a die (R220, R223): the mixer's job begins with its inputs as they stand, and the signal
engines read and write their blocks. -/
def mixWindow (die : Nat) (m : M) : M :=
  let g := audioGrid m die
  if !dieRun m die then m
  else match winOpen g (getMixer m die).window m with
  | none => m
  | some w =>
    let len := dieWindow (img m) die
    let n := dieSamples m die
    let held := winHeld g w m
    let m0 := if held = 0 then m
      else (dieLegs m die).foldl (fun x l => if legComputed m l.1 (w * len) then countMixLeg l.1 1 held x else x) m
    let m1 := portsRead die w (mixFinish die (mixOverrun die m0))
    let m2 := (dieSources m1 die).foldl (fun x r => srcTake die w n r x) m1
    let m3 := { m2 with net.streams := tmap m2.net.streams fun k s => if keyDie k = die then prunePcm m.dev s else s }
    let kind := if len = 250000 then 1 else 0
    let m4 := setMixer die { getMixer m3 die with
      window := some w, len := len, deadline := winDeadline g w kind m, pos := 0, done := false, late := false,
      gpio := gpioNow m3 } m3
    let m5 := (portInputs m4 die).foldl (fun x i =>
      { x with dsp.engines := tupd x.dsp.engines i.1 fun e => writeInput i.2.1 w (getSrc x i.2.2).block e }) m4
    winMark g w (enginesWindow die (totalsDue die (w * len) m5))

/-- MIX_JOB_COMPLETE: the job of the window that runs, once; at or after its deadline it is late. -/
def mixJobDone (die : Nat) (m : M) : M :=
  let m0 := mixOverrun die m
  let mx := getMixer m0 die
  if mx.window.isNone || mx.done then m0
  else reportSlack die 47 ((mx.deadline : Int) - m.dev) mx.len (setMixer die { mx with done := true } m0)

def execMixJobComplete (die : Nat) (s : State) : Host.Outcome State Fault Refusal := lift (mixJobDone die) s

/-! ## The exchange (R223, R224) -/

/-- MIX_PARTIAL_ARRIVAL: complete partial sums of a die reach the bus's home die; those of a window whose addition point
has passed take no part in it any more. -/
def partialArrival (b die : Nat) (m : M) : M :=
  match getBus m b with
  | none => m
  | some x =>
    let late (p : Partial) : Bool := match x.lastAdd with | some w => decide (p.window ≤ w) | none => false
    let mine (p : Partial) : Bool := p.bus == b && p.die == die && p.sums.length == busN x && decide ((p.window + 1) * busE x ≤ m.dev)
    { m with mix.partials := m.mix.partials.map fun p => if mine p && !late p then { p with arrived := true } else p }

def execMixPartialArrival (bus die : Nat) (s : State) : Host.Outcome State Fault Refusal := lift (partialArrival bus die) s

/-- A die takes part in an addition: not lost, and not past step 1 of a re-structure. -/
def dieAdds (m : M) (die : Nat) : Bool :=
  dieRun m die && (match m.syn.rest with | some r => r.die != die || decide (r.step < 2) | none => true)

/-- Dies that had crosspoints on a bus, in the active bank, in the exchange window that ended at `t`: those that formed partial
sums of it, and those whose crosspoints were active before its end. -/
def busDies (m : M) (b w t : Nat) : List Nat :=
  (((m.mix.partials.filter fun p => p.bus == b && p.window == w).map Partial.die) ++
   ((m.mix.xps.filter fun x => x.2.bus == b && x.2.act.isSome && decide (x.2.since < t)).map fun x => xpDie x.1)).eraseDups

/-- Dies with leg outputs on a bus, in either bank. -/
def busLegDies (m : M) (b : Nat) : List Nat :=
  ((m.mix.legs.filter fun l => (bankPar l.2.act).bus == some b || (bankPar l.2.ina).bus == some b || l.2.bus == some b).map
    fun l => keyDie l.1).eraseDups

/-- The total of a bus: its included partial sums added, with the owned products of their dies. -/
def totalOf (b w n : Nat) (ins : List Partial) (at_ : List Nat) : Total :=
  { bus := b, window := w, sums := ins.foldl (fun a p => vadd a p.sums) (List.replicate n 0),
    mask := (ins.map fun p => 2 ^ (p.die - 1)).sum, owned := ins.flatMap Partial.owned, at_ := at_ }

/-- MIX_ADDITION_POINT: half an exchange window after input window n ends, the arrived partial sums are added. Those of the
window stay until the next addition. -/
def additionPoint (b : Nat) (m : M) : M :=
  match getBus m b with
  | none => m
  | some x =>
    let e := busE x
    let k := (m.dev - e / 2) / e
    if m.dev < e / 2 + e || (match x.lastAdd with | some w => decide (k ≤ w + 1) | none => false) then m
    else
      let w := k - 1
      let ps := m.mix.partials.filter fun p => p.bus == b && p.window == w
      let ins := ps.filter fun p => p.arrived && dieAdds m p.die
      let dies := busDies m b w (k * e)
      let out := dies.filter fun d => dieAdds m d && !(ins.any fun p => p.die == d)
      let left := dies.any fun d => !(ins.any fun p => p.die == d)
      let t := totalOf b w (busN x) ins [busDie b]
      let m1 := noteOut (.busMask b w t.mask) { m with
        mix.partials := m.mix.partials.filter fun p => !(p.bus == b && decide (p.window < w)),
        mix.totals := t :: m.mix.totals.filter fun u => u.bus != b || decide (w < u.window + 4) }
      let m2 := updBus b (fun y => { y with lastMask := t.mask, lastAdd := some w, meter := meterAdd t.sums y.meter }) m1
      let m3 := if left then count .mixBus (busDie b) (b % 256) 0 m2 else m2
      match out with
      | d :: _ => partialLate b 0 d w m3
      | [] => m3

def execMixAdditionPoint (bus : Nat) (s : State) : Host.Outcome State Fault Refusal := lift (additionPoint bus) s

/-- MIX_TOTAL_ARRIVAL: the newest total of a bus reaches a die with leg outputs on it. -/
def totalArrival (b die : Nat) (m : M) : M :=
  match m.mix.totals.find? fun t => t.bus == b with
  | none => m
  | some t =>
    if !(busLegDies m b).contains die || !dieRun m die || t.at_.contains die then m
    else { m with mix.totals := m.mix.totals.map fun u =>
      if u.bus = b && u.window = t.window then { u with at_ := die :: u.at_ } else u }

def execMixTotalArrival (bus die : Nat) (s : State) : Host.Outcome State Fault Refusal := lift (totalArrival bus die) s

/-- Samples of a die's window that have started before now: a removal applies from the next (R233). -/
def samplesStarted (m : M) (die : Nat) : Nat :=
  let mx := getMixer m die
  match mx.window with
  | some w => if w * mx.len < m.dev then (m.dev - 1 - w * mx.len) * 48000 / nsPerS + 1 else 0
  | none => 0

/-- A leg output's last block goes out with the window that ends now (R225). -/
def legFlush (leg : Nat) (m : M) : M :=
  let die := keyDie leg
  match (getMixer m die).window with
  | none => m
  | some w =>
    let len := (getMixer m die).len
    if (w + 1) * len ≤ m.dev then
      let n := if len = 250000 then 12 else 48
      let m1 := mixAdvance die n (mixOverrun die m)
      legDeliver w n (getMixer m1 die).late leg m1
    else m

/-- The sample of a die's window that runs now. -/
def sampleNow (m : M) (die : Nat) : Nat :=
  let mx := getMixer m die
  match mx.window with
  | some w => (m.dev - w * mx.len) * 48000 / nsPerS
  | none => 0

/-- OVERLAY_HOLD_EXPIRY (R227): the outputs of the leg's die are computed up to now, so that a key that has stayed inactive
for its hold time ramps its overlay and the duck back. -/
def overlayHold (die idx : Nat) (m : M) : M :=
  if (getLegOut m (mkKey die idx)).isSome then mixAdvance die (sampleNow m die) m else m

def execOverlayHoldExpiry (die idx : Nat) (s : State) : Host.Outcome State Fault Refusal := lift (overlayHold die idx) s

/-! ## Meters (R236) -/

/-- The largest whole number x from −1,000 with 10^x ≤ (p / q)^e, for p of at least 1. -/
def floorLog (p q e : Nat) : Int :=
  let ok (k : Nat) : Bool :=
    if k ≤ 1000 then decide (q ^ e ≤ 10 ^ (1000 - k) * p ^ e) else decide (10 ^ (k - 1000) * q ^ e ≤ p ^ e)
  ((largest ok 13 0 4000 : Nat) : Int) - 1000

/-- The result of a period in 0.1 dBFS, truncated, floor −1,000. -/
def meterClose (x : Meter) : Meter :=
  let peak : Int := if x.top = 0 then -1000 else floorLog x.top (2 ^ 39) 200
  let rms : Int := if x.sq = 0 then -1000 else floorLog x.sq (x.n * 2 ^ 78) 100
  { top := 0, sq := 0, n := 0, peak := peak, rms := rms }

/-- METER_PERIOD_END of a die: sources, buses and leg outputs latch; a new period takes the period set. -/
def meterEnd (die : Nat) (m : M) : M :=
  let mx := getMixer m die
  if !dieRun m die || decide (m.dev < mx.meterAt + mx.meterMs * 1000000) then m
  else
    { m with
      mix.mixers := tset m.mix.mixers die { mx with meterAt := m.dev, meterMs := mx.meterNext },
      mix.srcs := tmap m.mix.srcs fun r x => if srcDie r = die then { x with meter := meterClose x.meter } else x,
      mix.buses := tmap m.mix.buses fun b x => if busDie b = die then { x with meter := meterClose x.meter } else x,
      mix.legs := tmap m.mix.legs fun l x => if keyDie l = die then { x with meter := meterClose x.meter } else x }

def execMeterPeriodEnd (die : Nat) (s : State) : Host.Outcome State Fault Refusal := lift (meterEnd die) s

end Sys2Proof.Machine
end

