-- ==== Sys2Proof/Machine/MixCmd.lean ====
section
/-!
DEFINITION. The mixer commands (R230, R231, R238, R239): buses, crosspoints, leg outputs, overlays, the swap of banks, and
the meter period.
-/
namespace Sys2Proof.Machine

/-! ## Buses (R216, R217) -/

/-- A new object of a media class may be placed: its die, from the named one or by R26. -/
def placeDie (d : Desc) (free : Nat → Nat) (m : M) : Option Nat :=
  if oidDie (oid d) = 0 then placeMost free m else some (oidDie (oid d))

/-- The index a creating command gets on a die: the one it names, or the lowest free one. -/
def placeIdx (d : Desc) (used : Nat → Bool) (n : Nat) : Option Nat :=
  if oidDie (oid d) = 0 then firstBelow (fun i => !used i) n else some (oidIdx (oid d))

/-- The assigned object id, given when a placement was asked for. -/
def placedDetail (d : Desc) (o : Nat) : Nat := if oidDie (oid d) = 0 then o else 0

def busObj (creating : Bool) (d : Desc) (m : M) : Bool := oidOk m 0xC creating (oid d)

def busState (d : Desc) (m : M) : Nat := if oidDie (oid d) = 0 then 0 else b2n (getBus m (busOf (oid d))).isSome

def newE (d : Desc) : Nat := if pay d 0 1 = 1 then 250000 else 1000000

/-- Free buses of a die (R26). -/
def freeBuses (m : M) (die : Nat) : Nat := 256 - (m.mix.buses.filter fun b => busDie b.1 == die).length

def mixBusDefineSpec : CmdSpec :=
  { baseSpec 0x1201 permMedia with
    mask := mb 0 1
    obj := busObj true
    fields := fun d m => firstBad
      [(decide (1 < pay d 0 1), off 0),
       (match placeDie d (freeBuses m) m with
        | some die => decide (newE d < dieWindow (img m) die)
        | none => false, off 0)]
    late := fun d m => orFail (dieLate m true (oid d)) (firstFail
      [(quotaFull m d 0xC, stResource, 0xC),
       ((placeDie d (freeBuses m) m).isNone, stResource, 0),
       (busState d m != 0, stConflict, 0)])
    ostate := busState
    apply := fun d m =>
      match placeDie d (freeBuses m) m with
      | none => (m, okReply 0)
      | some die =>
        let i := (placeIdx d (fun i => (getBus m (busNo die i)).isSome) 256).getD 0
        let b := busNo die i
        let x : Bus := { short := pay d 0 1 == 1, lastMask := 0, lastAdd := none, meter := meterReset }
        (own (busOid b) (pathFn m d.path) { m with mix.buses := tset m.mix.buses b x },
         okDetail (placedDetail d (busOid b)) 0 1) }

def execMixBusDefine (d : Desc) (s : State) : Host.Outcome State Fault Refusal := lift (hostRow mixBusDefineSpec d) s

/-- Crosspoints and leg outputs that name a bus in either bank. -/
def busRefs (m : M) (b : Nat) : Nat :=
  (m.mix.xps.filter fun x => x.2.bus == b).length +
  (m.mix.legs.filter fun l => (bankPar l.2.act).bus == some b || (bankPar l.2.ina).bus == some b).length

/-- A bus leaves the mixer with its sums. -/
def dropBus (b : Nat) (m : M) : M :=
  disown (busOid b) { m with
    mix.buses := tdel m.mix.buses b,
    mix.partials := m.mix.partials.filter fun p => p.bus != b,
    mix.totals := m.mix.totals.filter fun t => t.bus != b,
    mix.legs := tmap m.mix.legs fun _ l =>
      { l with bus := if l.bus = some b then none else l.bus, busNext := l.busNext.filter fun c => c.2 != some b } }

def mixBusDeleteSpec : CmdSpec :=
  { baseSpec 0x1202 permMedia with
    obj := busObj false
    late := fun d m => orFail (dieLate m false (oid d)) (firstFail
      [(busState d m == 0, stConflict, 0),
       (busRefs m (busOf (oid d)) != 0, stConflict, hold 0xFFFF (busRefs m (busOf (oid d))))])
    ostate := busState
    apply := fun d m => (dropBus (busOf (oid d)) m, okDetail 0 1 0) }

def execMixBusDelete (d : Desc) (s : State) : Host.Outcome State Fault Refusal := lift (hostRow mixBusDeleteSpec d) s

/-! ## Crosspoints (R219) -/

/-- A ramp time of 0 to 500 ms. -/
def rampBad (d : Desc) (o : Nat) : Bool := decide (500 < pay d o 2)

/-- The crosspoint of a (source, bus) pair: its key. -/
def findXp (m : M) (source b : Nat) : Option (Nat × Xp) := m.mix.xps.find? fun x => x.2.source == source && x.2.bus == b

/-- Owner field of a crosspoint: a stream channel's own leg, or the named one. -/
def xpOwner (d : Desc) : Option Nat :=
  if srcKind (pay d 0 4) = 1 then some (srcLeg (pay d 0 4))
  else if pay d 10 2 = 0xFFFF then none
  else some (legKeyOfId (pay d 10 2))

/-- Declared X and L of a die. -/
def declX (m : M) (die : Nat) : Nat := (imgMixer (img m) die).2.1
def declL (m : M) (die : Nat) : Nat := (imgMixer (img m) die).2.2.1

/-- Where a new crosspoint finds no room. -/
def xpRoom (d : Desc) (m : M) : Option (Nat × Nat) :=
  let b := busOf (oid d)
  let die := srcDie (pay d 0 4)
  let n := (dieXps m die).length
  if payBit d 12 0 || (findXp m (pay d 0 4) b).isSome then none
  else firstFail
    [(decide (4096 ≤ (m.mix.xps.filter fun x => x.2.bus == b).length), stResource, 0x04),
     (decide (declX m die ≤ n) || decide (16384 ≤ n), stResource, 0x05)]

/-- The owner leg of a signal engine source takes no new crosspoint. -/
def ownerGone (d : Desc) (m : M) : Bool :=
  match xpOwner d with
  | some l => srcKind (pay d 0 4) == 2 && (match getLeg m l with | some x => x.state == 4 | none => true)
  | none => false

/-- Gain and presence in the inactive bank, as the journal holds them (R239). -/
def xpPlain (x : Option XpPar) : Nat := match x with
  | some p => p.gain + 2 ^ 20
  | none => 0

def applyXpSet (d : Desc) (m : M) : M × Applied :=
  let b := busOf (oid d)
  let die := srcDie (pay d 0 4)
  let par : XpPar := { gain := pay d 4 4, rampMs := pay d 8 2, owner := xpOwner d }
  let ok (detail old new : Nat) : Applied :=
    .done { status := stOK, detail := detail, plain := some (old, new), before := 1, after := 1 }
  match findXp m (pay d 0 4) b with
  | some (k, x) =>
    if payBit d 12 0 then
      let m1 := if x.act.isNone then { m with mix.xps := tdel m.mix.xps k }
        else { m with mix.xps := tset m.mix.xps k { x with ina := none } }
      (m1, ok (k % 16384) (xpPlain x.ina) 0)
    else
      ({ m with mix.xps := tset m.mix.xps k { x with ina := some par } }, ok (k % 16384) (xpPlain x.ina) (xpPlain (some par)))
  | none =>
    if payBit d 12 0 then (m, ok 0 0 0)
    else
      let i := (firstBelow (fun i => (tget? m.mix.xps (xpKey die i)).isNone) 16384).getD 0
      let x : Xp := { source := pay d 0 4, bus := b, act := none, ina := some par, ramp := rampAt 0, since := 0 }
      (srcReady (pay d 0 4) { m with mix.xps := tset m.mix.xps (xpKey die i) x }, ok i 0 (xpPlain (some par)))

/-- Owner field in range (R219): a stream's source takes none, a signal engine's a leg id. -/
def ownerBad (d : Desc) (m : M) : Bool :=
  pay d 10 2 != 0xFFFF && (srcKind (pay d 0 4) == 1 || decide (m.part.media * 1024 ≤ pay d 10 2))

/-- A die's audio window is longer than a bus's exchange window. -/
def windowOver (m : M) (die b : Nat) : Bool := match getBus m b with
  | some x => decide (busE x < dieWindow (img m) die)
  | none => false

/-- The object a source reference names, a stream or the die of a port, with the detail its field reports. -/
def srcNames (r dt : Nat) : List (Nat × Nat) :=
  [(if srcKind r = 1 then strmOid (srcStrm r) else infraOid (srcDie r), dt)]

/-- Payload bits of a Q4.16 gain code at an offset: 20 bits. -/
def gainBits (o : Nat) : Nat := mb o 2 ||| mbits (o + 2) 0x0F

/-- The crosspoint's record: gain and presence in the inactive bank as they stand (R239). -/
def xpStands (d : Desc) (m : M) : Nat := xpPlain ((findXp m (pay d 0 4) (busOf (oid d))).bind fun x => x.2.ina)

def mixXpSetSpec : CmdSpec :=
  { baseSpec 0x1203 permMedia with
    mask := mb 0 4 ||| gainBits 4 ||| mb 8 4 ||| mbits 12 1
    rsv := fun d _ => srcReserved (pay d 0 4) 0
    obj := busObj false
    names := fun d _ => srcNames (pay d 0 4) (off 0) ++ (if pay d 10 2 = 0xFFFF then [] else [(legOid (legKeyOfId (pay d 10 2)), off 10)])
    fields := fun d m => orBad (commitBad d) (firstBad
      [(!sourceOk m (pay d 0 4), off 0), (windowOver m (srcDie (pay d 0 4)) (busOf (oid d)), off 0),
       (rampBad d 8, off 8), (ownerBad d m, off 10)])
    late := fun d m => orFail (dieLate m false (oid d)) (orFail (xpRoom d m) (firstFail
      [(busState d m == 0, stConflict, 0), (ownerGone d m, stConflict, 0)]))
    ostate := busState
    plainNow := fun d m => same (xpStands d m)
    apply := applyXpSet }

def execMixXpSet (d : Desc) (s : State) : Host.Outcome State Fault Refusal := lift (hostRow mixXpSetSpec d) s

/-! ## Leg outputs and overlays (R225 to R228) -/

def legBankEmpty : LegBank := { par := none, ov := [] }

def legOutReset : LegOut :=
  { act := legBankEmpty, ina := legBankEmpty, gainRamp := rampAt 0, duck := rampAt 65536, ov := [], bus := none, busNext := [],
    g := 65536, line := [], block := [], last := [], meter := meterReset, clipped := [] }

/-- Write the inactive bank of a leg output. -/
def modInactive (k : Nat) (f : LegBank → LegBank) (m : M) : M :=
  let x := (getLegOut m k).getD legOutReset
  let x1 := { x with ina := f x.ina }
  if bankHeld x1.act || bankHeld x1.ina then { m with mix.legs := tset m.mix.legs k x1 }
  else { m with mix.legs := tdel m.mix.legs k }

/-- Leg outputs of a die in either bank. -/
def legOutCount (m : M) (die : Nat) : Nat :=
  ((dieLegs m die).filter fun l => bankLive l.2.act || bankLive l.2.ina).length

/-- A command that makes a leg output where there was none exceeds the die's declared L. -/
def legRoom (d : Desc) (makes : Bool) (m : M) : Bool :=
  let k := legOfD d
  let has := match getLegOut m k with
    | some x => bankLive x.act || bankLive x.ina
    | none => false
  makes && !has && decide (declL m (keyDie k) ≤ legOutCount m (keyDie k))

/-- DEFINED, ARMED or LIVE. -/
def legOpen (d : Desc) (m : M) : Bool := let s := legState d m; s == 1 || s == 2 || s == 3

def lookSamples (n : Nat) : Nat := if n = 1 then 12 else if n = 2 then 48 else 0

/-- MIX_LEG_SET's bus, a global number. -/
def legBus (d : Desc) : Option Nat := if pay d 0 4 = 0 then none else some (busOf (pay d 0 4))

def legParOf (d : Desc) : LegPar :=
  { bus := legBus d, gain := pay d 4 4, rampMs := pay d 8 2, headroom := pay d 10 1, width16 := pay d 11 1 == 1,
    thr := if pay d 12 2 = 0x7FFF then none else some (payS d 12 2), look := lookSamples (pay d 14 1), release := pay d 16 2 }

def thrBad (d : Desc) (o : Nat) (lo : Int) : Bool := decide (payS d o 2 < lo) || decide (0 < payS d o 2)

/-- The exchange window that sets D of a leg with the bus of its inactive bank, in ns (R226). -/
def legExchange (m : M) (k : Nat) (bus : Option Nat) : Nat := match bus with
  | some b => match getBus m b with
    | some x => busE x
    | none => dieWindow (img m) (keyDie k)
  | none => dieWindow (img m) (keyDie k)

def mixLegSetSpec : CmdSpec :=
  { baseSpec 0x1204 permMedia with
    mask := mb 0 4 ||| gainBits 4 ||| mb 8 7 ||| mb 16 2 ||| mbits 18 1
    obj := legObj
    names := fun d _ => if pay d 0 4 = 0 then [] else [(pay d 0 4, off 0)]
    fields := fun d m => orBad (commitBad d) (firstBad
      [(pay d 0 4 != 0 && (!oidOk m 0xC false (pay d 0 4)), off 0),
       (match legBus d with | some b => windowOver m (keyDie (legOfD d)) b | none => false, off 0),
       (rampBad d 8, off 8), (decide (15 < pay d 10 1), off 10),
       (decide (1 < pay d 11 1), off 11), (pay d 12 2 != 0x7FFF && thrBad d 12 (-300), off 12), (decide (2 < pay d 14 1), off 14),
       (!(decide (10 ≤ pay d 16 2) && decide (pay d 16 2 ≤ 1000)), off 16)])
    late := fun d m => orFail (dieLate m false (oid d)) (firstFail
      [(legRoom d (!payBit d 18 0 && (legBus d).isSome) m, stResource, 0x05),
       (!legOpen d m, stConflict, 0),
       (match legBus d with | some b => (getBus m b).isNone | none => false, stConflict, 2)])
    ostate := legState
    apply := fun d m =>
      (modInactive (legOfD d) (fun b => if payBit d 18 0 then legBankEmpty else { b with par := some (legParOf d) }) m,
       okReply (legState d m)) }

def execMixLegSet (d : Desc) (s : State) : Host.Outcome State Fault Refusal := lift (hostRow mixLegSetSpec d) s

def ovParOf (d : Desc) : OvPar :=
  { key := pay d 1 1, gpio := pay d 2 1 % 32, actLow := payBit d 2 7, depth := pay d 3 1, source := pay d 4 4,
    gain := pay d 8 4, thr := payS d 12 2, attackMs := pay d 14 2, holdMs := pay d 16 2, releaseMs := pay d 18 2 }

/-- The overlay's source, of another die, has windows longer than the exchange that sets D. -/
def ovWindowBad (d : Desc) (m : M) : Bool :=
  let k := legOfD d
  let bus := match getLegOut m k with
    | some x => (bankPar x.ina).bus
    | none => none
  decide (legExchange m k bus < dieWindow (img m) (srcDie (pay d 4 4)))

def mixOverlaySetSpec : CmdSpec :=
  { baseSpec 0x1205 permMedia with
    mask := mb 0 2 ||| mbits 2 0x9F ||| mb 3 5 ||| gainBits 8 ||| mb 12 8
    rsv := fun d _ => if pay d 1 1 = 0 then none else srcReserved (pay d 4 4) 4
    obj := legObj
    names := fun d _ => if pay d 1 1 = 0 then [] else srcNames (pay d 4 4) (off 4)
    fields := fun d m =>
      let key := pay d 1 1
      orBad (commitBad d) (firstBad
      [(decide (3 < pay d 0 1), off 0), (decide (3 < key), off 1), (key != 3 && pay d 2 1 != 0, off 2),
       (decide (60 < pay d 3 1) || (key == 1 && pay d 3 1 != 0), off 3),
       (if key = 0 then pay d 4 4 != 0 else !sourceOk m (pay d 4 4) || ovWindowBad d m, off 4),
       (if key = 2 then thrBad d 12 (-600) else pay d 12 2 != 0, off 12),
       (decide (50 < pay d 14 2), off 14), (decide (2000 < pay d 16 2), off 16),
       (!(decide (10 ≤ pay d 18 2) && decide (pay d 18 2 ≤ 2000)), off 18)])
    late := fun d m => orFail (dieLate m false (oid d)) (firstFail
      [(legRoom d (pay d 1 1 != 0) m, stResource, 0x05), (!legOpen d m, stConflict, 0)])
    ostate := legState
    apply := fun d m =>
      (modInactive (legOfD d) (fun b =>
        { b with ov := if pay d 1 1 = 0 then tdel b.ov (pay d 0 1) else tset b.ov (pay d 0 1) (ovParOf d) })
        (if pay d 1 1 = 0 then m else srcReady (pay d 4 4) m),
       okReply (legState d m)) }

def execMixOverlaySet (d : Desc) (s : State) : Host.Outcome State Fault Refusal := lift (hostRow mixOverlaySetSpec d) s

/-! ## The swap (R231) -/

def commitWaits (m : M) (o : Nat) : Bool := m.pend.any fun p => p.d.opcode == 0x1206 && oid p.d == o

/-- A crosspoint at a swap at a device time: gone, new from code 0, or on its way to its new code. -/
def xpSwap (now : Nat) (x : Xp) : Option Xp :=
  x.ina.map fun p =>
    let r := if x.act.isNone then rampTo (rampAt 0) p.gain p.rampMs
      else if x.ramp.b = p.gain then x.ramp else rampTo x.ramp p.gain p.rampMs
    { x with act := some p, ramp := r, since := if x.act.isNone then now else x.since }

/-- The bus a leg output is on its way to. -/
def busTarget (x : LegOut) : Option Nat := match x.busNext.getLast? with
  | some c => c.2
  | none => x.bus

/-- Overlay runs at a swap: a slot keeps its run while its key mode stays; one whose gain is up goes to a new gain. -/
def ovSwap (x : LegOut) : Tbl OvRun :=
  x.ina.ov.map fun s =>
    let r := tget x.ov s.1 ovReset
    match tget? x.act.ov s.1 with
    | some o =>
      if o.key ≠ s.2.key then (s.1, ovReset)
      else if r.up && r.ramp.b != s.2.gain then (s.1, { r with ramp := rampTo r.ramp s.2.gain s.2.attackMs })
      else (s.1, r)
    | none => (s.1, ovReset)

/-- A leg output at a swap at sample `s`, `done` samples of whose window are computed. -/
def legSwap (m : M) (n s done : Nat) (x : LegOut) : Option LegOut :=
  if !bankHeld x.ina then none
  else
    let p := bankPar x.ina
    let o := bankPar x.act
    if !bankLive x.act then
      some { x with
        act := x.ina, gainRamp := rampTo (rampAt 0) p.gain p.rampMs, duck := rampAt 65536, ov := ovSwap x, bus := none,
        busNext := if p.bus.isSome then [(s + legD m n p.bus, p.bus)] else [], g := 65536, line := List.replicate p.look 0,
        block := if bankLive x.ina then List.replicate done 0 else [] }
    else
      let target := busTarget x
      let d := legD m n (if p.bus.isSome then p.bus else target)
      some { x with
        act := x.ina, gainRamp := if x.gainRamp.b = p.gain then x.gainRamp else rampTo x.gainRamp p.gain p.rampMs,
        ov := ovSwap x, busNext := if target = p.bus then x.busNext else (x.busNext.filter fun c => decide (c.1 < s + d)) ++ [(s + d, p.bus)],
        line := if p.look = o.look && p.thr.isSome == o.thr.isSome then x.line else List.replicate p.look 0 }

/-- Keep the entries of a table that a step answers. -/
def tfilterMap {α : Type} (t : Tbl α) (p : Nat → Bool) (f : α → Option α) : Tbl α :=
  t.filterMap fun kv => if p kv.1 then (f kv.2).map fun v => (kv.1, v) else some kv

/-- The banks of a die swap at sample `s`. -/
def bankSwap (die s : Nat) (m : M) : M :=
  let n := dieSamples m die
  let first := match (getMixer m die).window with
    | some w => w * n
    | none => s
  let m1 := mixAdvance die (s - first) m
  let done := hold n (s - first) % n
  { m1 with
    mix.xps := tfilterMap m1.mix.xps (fun k => xpDie k == die) (xpSwap m.dev),
    mix.legs := tfilterMap m1.mix.legs (fun k => keyDie k == die) (legSwap m1 n s done),
    mix.mixers := tset m1.mix.mixers die { getMixer m1 die with bankB := !(getMixer m1 die).bankB } }

/-- Revert: the inactive bank becomes a copy of the active one. -/
def bankRevert (die : Nat) (m : M) : M :=
  { m with
    mix.xps := tfilterMap m.mix.xps (fun k => xpDie k == die) fun x => if x.act.isNone then none else some { x with ina := x.act },
    mix.legs := tfilterMap m.mix.legs (fun k => keyDie k == die) fun x =>
      if bankHeld x.act then some { x with ina := x.act } else none }

/-- The plain values of a MIX_COMMIT that swaps nothing: the active bank; the spec gives no sample number for one (log 129). -/
def commitStands (d : Desc) (m : M) : Option (Nat × Nat) :=
  some (b2n (getMixer m (oidDie (oid d))).bankB, Config.freeNat m.drawn % 2 ^ 64)

/-- MIX_COMMIT at its sample boundary, `late` when its commit time had passed when it executed; with revert, at once. -/
def applyMixCommit (late : Bool) (d : Desc) (m : M) : M × Applied :=
  let die := oidDie (oid d)
  let old := b2n (getMixer m die).bankB
  if payBit d 0 0 then
    (draw (bankRevert die m), .done { status := stOK, detail := 0, plain := commitStands d m, before := 0xFF, after := 0xFF })
  else
    let s := boundaryNo .sample m.dev
    let m1 := bankSwap die s m
    let m2 := if late then count .mixCnt die 0 1 m1 else m1
    (raise 0x1202 5 (infraOid die) [.u 1 die, .u 1 (1 - old), .u 4 (s % 2 ^ 32), .u 1 (b2n late)] m2,
     .done { status := stOK, detail := 0, plain := some (old, s), before := 0xFF, after := 0xFF })

def mixCommitSpec : CmdSpec :=
  { baseSpec 0x1206 permMedia with
    mask := mbits 0 1
    obj := dieObj
    late := fun d m => orFail (dieLate m false (oid d)) (firstFail [(commitWaits m (oid d), stBusy, 0)])
    when := fun d _ => if payBit d 0 0 then none else some .sample
    plainNow := commitStands
    apply := applyMixCommit false
    applyLate := some (applyMixCommit true) }

def execMixCommit (d : Desc) (s : State) : Host.Outcome State Fault Refusal := lift (hostRow mixCommitSpec d) s

def mixMeterSetSpec : CmdSpec :=
  { baseSpec 0x1207 permMedia with
    mask := mb 0 2
    obj := dieObj
    fields := fun d _ => firstBad [(!(decide (5 ≤ pay d 0 2) && decide (pay d 0 2 ≤ 1000)), off 0)]
    late := fun d m => dieLate m false (oid d)
    apply := fun d m =>
      (setMixer (oidDie (oid d)) { getMixer m (oidDie (oid d)) with meterNext := pay d 0 2 } m, okReply 0xFF) }

def execMixMeterSet (d : Desc) (s : State) : Host.Outcome State Fault Refusal := lift (hostRow mixMeterSetSpec d) s

end Sys2Proof.Machine
end

