-- ==== Sys2Proof/Machine/Modem.lean ====
section
/-!
DEFINITION. The air-link modem (chapter 08): receive stages, transport stream packets, IQ measurement, the front-end SPI
queue, transmit symbols with the mask monitor, and the MOD commands.
-/
namespace Sys2Proof.Machine

/-! ## Accessors -/

/-- A channel that the image enables, at a start. -/
def modemReset : Modem where
  state := 1
  cfg := none
  mask := none
  fir := none
  firNext := none
  maskNext := none
  unmuteNext := false
  stage := 0
  jesd := false
  inverted := false
  hierarchy := false
  fft := 0
  guard := 0
  constellation := 0
  codeRate := 0
  mer := 0x3FF
  power := -1000
  peak := -1000
  freq := 0
  freqAt := 0
  feRx := 0
  violRun := 0
  badRun := 0
  searchAt := none
  slotAcc := 0
  spiMode := 0
  spiDiv := 1
  spiBits := 32
  spiNext := none
  queue := []
  wire := none
  kept := none
  word := 0

def modKey (die c : Nat) : Nat := mkKey die c
def modOid (die c : Nat) : Nat := mkOid 0xF die c
def modUnit (die c : Nat) : Nat := unitPath die (0x44 + c)
def getMod (m : M) (die c : Nat) : Option Modem := tget? m.cod.modems (modKey die c)
def updMod (die c : Nat) (f : Modem → Modem) (m : M) : M :=
  { m with cod.modems := tupd m.cod.modems (modKey die c) f }
def countMod (die c k n : Nat) (m : M) : M := cntAdd { reg := .modCnt, i := die, j := c, k := k } n m

/-- The channel of a JESD lane (R167): with two enabled, channel 0 has the lower-numbered JESD lane of the die and channel 1
the higher; one enabled alone has the die's one. -/
def laneChannel (m : M) (die lane : Nat) : Option Nat :=
  let lanes := (List.range 8).filter fun l => lanePers (img m) die l == 5
  let chans := (List.range 2).filter fun c => (getMod m die c).isSome
  ((lanes.zip chans).find? fun x => x.1 == lane).map Prod.snd

/-- This part drives its exclusive outputs (R181, R402). -/
def claimHeld (m : M) : Bool := m.pair.excl

/-- Show what the configuration fixes, and zero for what is to be detected. -/
def showConfig (x : Modem) : Modem :=
  match x.cfg with
  | none => x
  | some c =>
    { x with inverted := bit c.spectrum 0, fft := if c.fft = 2 then 0 else c.fft, guard := if c.guard = 4 then 0 else c.guard,
             constellation := if c.constellation = 3 then 0 else c.constellation,
             codeRate := if c.codeRate = 5 then 0 else c.codeRate }

/-! ## Receive stages (R173 to R175) -/

/-- A receiving channel moves to a stage. -/
def setStage (die c new cause : Nat) (m : M) : M :=
  match getMod m die c with
  | none => m
  | some x =>
    if x.stage = new then m
    else
      let x1 := if new < 2 then showConfig { x with freq := 0 } else x
      let x2 := { x1 with stage := new, mer := if new < 3 then 0x3FF else x1.mer, badRun := 0,
                          searchAt := if x.stage = 5 then some m.vault.mono else x1.searchAt }
      let m1 := updMod die c (fun _ => x2) m
      let m2 := if x.stage = 5 then countMod die c 2 1 m1 else m1
      raise 0x0F01 2 (modOid die c) [.u 1 c, .u 1 x.stage, .u 1 new, .u 1 cause] m2

/-- A fixed value that the signal does not have. -/
def notFixed (fixed detect found : Nat) : Bool := fixed != detect && fixed != found

/-- Stage 2: FFT size, guard, carrier and sample-clock offset within the capture range (R178), inversion. -/
def climbMode (die c : Nat) (cfg : ModCfg) (p : ModSync) (m : M) : M :=
  let reach : Int := if cfg.profile = 0 then 250000 else 20000
  if decide (1 < p.fft) || decide (3 < p.guard) || notFixed cfg.fft 2 p.fft || notFixed cfg.guard 4 p.guard ||
      decide (p.freq < -reach) || decide (reach < p.freq) || decide (100 < p.clock.natAbs) then m
  else setStage die c 2 0 (updMod die c (fun x =>
    { x with fft := p.fft, guard := p.guard, freq := p.freq, freqAt := m.vault.mono,
             inverted := if bit cfg.spectrum 1 then p.inverted else bit cfg.spectrum 0 }) m)

/-- TPS names a hierarchy (R175). -/
def hierarchical (die c : Nat) (m : M) : M :=
  match getMod m die c with
  | none => m
  | some x =>
    raise 0x0F01 2 (modOid die c) [.u 1 c, .u 1 x.stage, .u 1 x.stage, .u 1 1]
      (countMod die c 4 1 (updMod die c (fun y => { y with hierarchy := true }) m))

/-- Stage 3: TPS synchronised and accepted, or the narrow profile's pilots held. -/
def climbFrame (die c : Nat) (cfg : ModCfg) (p : ModSync) (m : M) : M :=
  if cfg.profile = 1 then setStage die c 3 0 (updMod die c (fun x => { x with mer := hold 500 p.mer }) m)
  else if p.hierarchy ≠ 0 then hierarchical die c m
  else if decide (1 < p.fft) || decide (3 < p.guard) || decide (2 < p.constellation) || decide (4 < p.codeRate) || notFixed cfg.constellation 3 p.constellation ||
      notFixed cfg.codeRate 5 p.codeRate then m
  else setStage die c 3 0 (updMod die c (fun x =>
    { x with hierarchy := false, constellation := p.constellation, codeRate := p.codeRate, mer := hold 500 p.mer }) m)

/-- The offset that tracking reaches (R178): after capture the loop follows changes of up to 500 Hz/s. -/
def trackFreq (x : Modem) (now : Nat) (found : Int) : Int :=
  let most : Int := ((500 * (now - x.freqAt) / nsPerS : Nat) : Int)
  if found < x.freq - most then x.freq - most else if x.freq + most < found then x.freq + most else found

/-- The same stage again: TPS that has changed drops the channel to stage 2; else the measurements are renewed. -/
def sameStage (die c : Nat) (cfg : ModCfg) (p : ModSync) (m : M) : M :=
  match getMod m die c with
  | none => m
  | some x =>
    if 3 ≤ x.stage && cfg.profile == 0 &&
        (p.hierarchy != 0 || p.constellation != x.constellation || p.codeRate != x.codeRate || p.guard != x.guard ||
          p.fft != x.fft) then
      let m1 := setStage die c 2 0 m
      if p.hierarchy ≠ 0 then hierarchical die c m1 else m1
    else updMod die c (fun y =>
      { y with freq := if 2 ≤ y.stage then trackFreq y m.vault.mono p.freq else y.freq,
               freqAt := if 2 ≤ y.stage && trackFreq y m.vault.mono p.freq != y.freq then m.vault.mono else y.freqAt, mer := if 3 ≤ y.stage then hold 500 p.mer else y.mer }) m

/-- MOD_STAGE_CHANGE: up one stage on what has synchronised, down to the stage below one that has failed. -/
def modStage (die c new : Nat) (p : ModSync) (m : M) : M :=
  match getMod m die c with
  | none => m
  | some x =>
    match x.cfg with
    | none => m
    | some cfg =>
      if x.state ≠ 2 || !x.jesd || 5 < new then m
      else if new < x.stage then setStage die c new 0 m
      else if new = x.stage then sameStage die c cfg p m
      else match x.stage with
        | 0 => setStage die c 1 0 m
        | 1 => climbMode die c cfg p m
        | 2 => climbFrame die c cfg p m
        | s => setStage die c (s + 1) 0 (updMod die c (fun y => { y with mer := hold 500 p.mer }) m)

def execModStageChange (die c new : Nat) (p : ModSync) (s : State) : Host.Outcome State Fault Refusal := lift (modStage die c new p) s

/-- JESD_SYNC_CHANGE (R168), of a lane: without sync its receiving channel is at stage 0. -/
def jesdSync (die lane : Nat) (j : JesdSync) (m : M) : M :=
  let c := (laneChannel m die lane).getD 2
  match getMod m die c with
  | none => m
  | some x =>
    if x.jesd = j.sync then m
    else
      let m0 := if j.sync then laneSensed die lane j.inverted m else m
      let m1 := raise 0x0F03 1 (modOid die c) [.u 1 c, .u 1 (b2n j.sync)] (updMod die c (fun y => { y with jesd := j.sync }) m0)
      if !j.sync && x.state == 2 then setStage die c 0 0 m1 else m1

def execJesdSyncChange (die lane : Nat) (sync : JesdSync) (s : State) : Host.Outcome State Fault Refusal :=
  lift (jesdSync die lane sync) s

/-- IQ_OVERRUN (R168): the FIFO of a lane overflows. -/
def iqOverrun (die lane : Nat) (m : M) : M :=
  let c := (laneChannel m die lane).getD 2
  match getMod m die c with
  | none => m
  | some x =>
    let m1 := countMod die c 6 1 m
    if x.state = 2 then setStage die c 0 0 m1 else m1

def execIqOverrun (die lane : Nat) (s : State) : Host.Outcome State Fault Refusal := lift (iqOverrun die lane) s

/-- MOD_LOCK_TIMEOUT (R174). -/
def lockTimeout (die c : Nat) (m : M) : M :=
  match getMod m die c with
  | none => m
  | some x =>
    match x.cfg, x.searchAt with
    | some cfg, some t =>
      if x.state = 2 && decide (x.stage < 5) && decide (t + cfg.lockTimeout * 1000000 ≤ m.vault.mono) then
        setStage die c 0 2 (countMod die c 3 1 (updMod die c (fun y => { y with searchAt := none }) m))
      else m
    | _, _ => m

def execModLockTimeout (die c : Nat) (s : State) : Host.Outcome State Fault Refusal := lift (lockTimeout die c) s

/-! ## Transport stream output and measurement (R179, R182) -/

/-- The leg that names a channel. -/
def modLeg (m : M) (die c : Nat) : Option (Nat × Leg) := m.net.legs.find? fun l => l.2.transport == 2 && l.2.port == die * 16 + c

/-- A decoded packet reaches its leg, or is dropped. -/
def tsHand (die c : Nat) (media : Payload) (m : M) : M :=
  match modLeg m die c with
  | none => countMod die c 7 1 m
  | some (k, l) =>
    let mine := (legStreams m k).filter fun s => s.2.kind == 8
    if legCarries l then mine.foldl (fun x s => arriveNow s.1 188 media x) m
    else countMod die c 7 1 (if l.state = 4 then mine.foldl (fun x s => countStrm s.1 9 1 x) m else m)

/-- MOD_TS_PACKET: `corrected` bytes corrected by RS, or an uncorrectable packet, handed on with transport_error_indicator set;
the 32nd in a row loses TS lock. -/
def modTs (die c corrected : Nat) (bad : Bool) (media : Payload) (m : M) : M :=
  match getMod m die c with
  | none => m
  | some x =>
    if x.state ≠ 2 || x.stage ≠ 5 then m
    else
      let m1 := updMod die c (fun y => { y with badRun := if bad then y.badRun + 1 else 0 }) m
      let m2 := tsHand die c { media with tei := media.tei || bad } (if bad then countMod die c 1 1 m1 else countMod die c 0 corrected m1)
      if bad && x.badRun + 1 == 32 then setStage die c 4 0 m2 else m2

def execModTsPacket (die c corrected : Nat) (bad : Bool) (media : Payload) (s : State) : Host.Outcome State Fault Refusal :=
  lift (modTs die c corrected bad media) s

def tkIq (die c : Nat) : Nat := 0x300 + die * 2 + c

/-- MOD_IQ_INTERVAL, once in each 1 ms of device time: powers in 0.1 dBFS, from the floor to full scale. -/
def modIq (die c : Nat) (power peak : Int) (clipped : Nat) (m : M) : M :=
  let lim (v : Int) : Int := if v < -1000 then -1000 else satS 16 v
  if (getMod m die c).isNone || !tickOpen m (tkIq die c) 1000000 then m
  else tickMark (tkIq die c) 1000000 <| countMod die c 5 clipped (updMod die c (fun y => { y with power := lim power, peak := lim peak }) m)

def execModIqInterval (die c : Nat) (power peak : Int) (clipped : Nat) (s : State) : Host.Outcome State Fault Refusal :=
  lift (modIq die c power peak clipped) s

/-! ## The front-end SPI master (R180, R181) -/

/-- A frame goes on the wire: its low frame-length bits, the frame length, SPI mode and clock divisor. -/
def spiStart (die c word : Nat) (m : M) : M :=
  match getMod m die c with
  | none => m
  | some x =>
    emit (.net 11 die c [((word % 2 ^ x.spiBits : Nat) : Int), x.spiBits, x.spiMode, x.spiDiv])
      (updMod die c (fun y => { y with wire := some word }) m)

/-- FE_SPI_FRAME_DONE: the bits read are captured, a waiting setting applies, and the next frame goes out. Without the claim
no frame follows, and the last word of a MOD_GAIN_SET is kept: one given since, or the last of those that waited. -/
def spiDone (die c miso : Nat) (m : M) : M :=
  match getMod m die c with
  | none => m
  | some x =>
    if x.wire.isNone then m
    else
      let x1 := { x with wire := none, feRx := miso % 2 ^ x.spiBits }
      let x2 := match x.spiNext with
        | some (a, b, l) => { x1 with spiMode := a, spiDiv := b, spiBits := l, spiNext := none }
        | none => x1
      match x2.queue with
      | [] => updMod die c (fun _ => x2) m
      | w :: r =>
        if claimHeld m then spiStart die c w (updMod die c (fun _ => { x2 with queue := r }) m)
        else updMod die c (fun _ => { x2 with queue := [], kept := if x2.kept.isSome then x2.kept else x2.queue.getLast? }) m

def execFeSpiFrameDone (die c miso : Nat) (s : State) : Host.Outcome State Fault Refusal := lift (spiDone die c miso) s

/-- The part takes the claim: each channel's kept word is sent (R181). -/
def sendKept (m : M) : M :=
  m.cod.modems.foldl (fun x e =>
    let die := keyDie e.1
    let c := keyIdx e.1
    match e.2.kept with
    | none => x
    | some w =>
      let x1 := action (modUnit die c) 0x0FC0 (modOid die c) 0 w (updMod die c (fun y => { y with kept := none }) x)
      if e.2.wire.isNone then spiStart die c w x1 else updMod die c (fun y => { y with queue := y.queue ++ [w] }) x1) m

/-! ## Transmission (R183, R184) -/

/-- Data carriers, bits per carrier, and the code rate as a fraction. -/
def dataCarriers (c : ModCfg) : Nat := if c.fft = 0 then 360 else 720
def carrierBits (c : ModCfg) : Nat := 2 * (c.constellation + 1)
def codeFrac (c : ModCfg) : Nat × Nat := match c.codeRate with
  | 0 => (1, 2) | 1 => (2, 3) | 2 => (3, 4) | 3 => (5, 6) | _ => (7, 8)

/-- Packet slots of a symbol: whole ones, and the remainder carried, in 1 / (rd × 1,632) of a packet (R177). -/
def symbolSlots (c : ModCfg) (acc : Nat) : Nat × Nat :=
  let r := codeFrac c
  let t := acc + dataCarriers c * carrierBits c * r.1
  (t / (r.2 * 1632), t % (r.2 * 1632))

/-- One packet slot of a transmitting channel: the head of the leg's queue, or a null packet. -/
def takeSlot (die c : Nat) (a : M × List Int) : M × List Int :=
  let null : M × List Int := (countMod die c 8 1 a.1, a.2 ++ [-1])
  match modLeg a.1 die c with
  | none => null
  | some (k, l) =>
    match legQueueKey k l with
    | none => null
    | some qk =>
      match (getQueue a.1 qk).bind fun q => pathHead q false with
      | none => null
      | some e =>
        if a.1.dev < e.due then null
        else
          let m1 := updQueue qk (fun q => { q with pkts := passHead false true q.pkts }) (countQueue qk 0 1 a.1)
          let m2 := updSend e.send (fun s => { s with sentPkts := s.sentPkts + 1, sentBytes := s.sentBytes + e.udp }) m1
          (countSend e.send 0 1 m2, a.2 ++ [(e.seq : Int)])

def takeSlots (die c : Nat) : Nat → M × List Int → M × List Int
  | 0, a => a
  | n + 1, a => takeSlots die c n (takeSlot die c a)

/-- Half the bandwidth in Hz. -/
def halfBand (c : ModCfg) : Nat := match c.bandwidth with
  | 0 => 3000000 | 1 => 3500000 | 2 => 4000000 | 3 => 850000 | _ => 1250000

/-- The mask limit at an offset in Hz, in 0.1 dB as a fraction: linear between breakpoints; `none` outside them. -/
def maskLimit : List (Int × Int) → Int → Option (Int × Nat)
  | [], _ => none
  | [p], f => if f = p.1 * 1000 then some (p.2, 1) else none
  | p :: q :: r, f =>
    if f < p.1 * 1000 then none
    else if f ≤ q.1 * 1000 then
      let a := p.2 * ((q.1 - p.1) * 1000) + (q.2 - p.2) * (f - p.1 * 1000)
      let b := ((q.1 - p.1) * 1000).toNat
      let g := Nat.gcd a.natAbs b
      some (a / (g : Int), b / g)
    else maskLimit (q :: r) f

/-- Power `p` over `mean / n` is above `num / den` in 0.1 dB. -/
def aboveRatio (p n mean : Nat) (num : Int) (den : Nat) : Bool :=
  let e := 100 * den
  if num < 0 then decide (mean ^ e < (p * n) ^ e * 10 ^ num.natAbs) else decide (mean ^ e * 10 ^ num.natAbs < (p * n) ^ e)

/-- The same, judged first by the whole tenths of a decibel around the limit. -/
def aboveLimit (p n mean : Nat) (limit : Int × Nat) : Bool :=
  let low := limit.1 / (limit.2 : Int)
  if limit.1 % (limit.2 : Int) = 0 then aboveRatio p n mean low 1
  else if aboveRatio p n mean (low + 1) 1 then true
  else if !aboveRatio p n mean low 1 then false
  else aboveRatio p n mean limit.1 limit.2

/-- By how much power is above a limit, in whole 0.1 dB: of two neighbours the higher one that it reaches. -/
def maskExcess (p n mean : Nat) (limit : Int × Nat) : Int :=
  let e := floorLog (p * n) mean 100 - (limit.1 + limit.2 - 1) / (limit.2 : Int)
  if aboveLimit p n mean (limit.1 + (e + 1) * limit.2, limit.2) then e + 1 else e

/-- The worst bin above its limit: excess in 0.1 dB and its offset in Hz. -/
def maskWorst (half : Nat) (mask : List (Int × Int)) (bins : List (Int × Nat)) : Option (Int × Int) :=
  let inBand := bins.filter fun b => decide (b.1.natAbs ≤ half)
  let mean := (inBand.map Prod.snd).sum
  let n := inBand.length
  bins.foldl (fun a b =>
    match maskLimit mask b.1 with
    | none => a
    | some l =>
      if mean = 0 || b.2 = 0 || !aboveLimit b.2 n mean l then a
      else
        let e := maskExcess b.2 n mean l
        match a with
        | none => some (e, b.1)
        | some w => if w.1 < e then some (e, b.1) else a) none

/-- The channel is muted (R184). -/
def modMute (die c : Nat) (w : Int × Int) (m : M) : M :=
  announce (modUnit die c) 0x0F02 1 (modOid die c) [.u 1 c, .s 2 w.1, .s 2 (w.2 / 1000)] 0
    (countMod die c 10 1 (updMod die c (fun x => { x with state := 4, violRun := 0 }) m))

/-- What waits for a symbol start applies. -/
def symbolStart (x : Modem) : Modem :=
  let x1 := if x.state = 4 && x.unmuteNext then { x with state := 3, violRun := 0, slotAcc := 0 } else x
  let x2 := match x1.firNext with
    | some f => { x1 with fir := some f, firNext := none }
    | none => x1
  match x2.maskNext with
  | some k => { x2 with mask := some k, maskNext := none, violRun := 0, unmuteNext := false }
  | none => { x2 with unmuteNext := false }

/-- The filter before the first MOD_FIR_SET after a start: one tap of 131,071 at tap 63 (R183). -/
def firDefault : List Int := (List.range 127).map fun i => if i = 63 then 131071 else 0

/-- What a symbol goes out with: the packets of its slots, −1 a null packet, behind the centre offset in Hz, the backoff in
0.1 dB and the taps of the filter in force. -/
def txOut (x : Modem) (cfg : ModCfg) (pkts : List Int) : List Int :=
  [cfg.centre, (cfg.backoff : Int)] ++ x.fir.getD firDefault ++ pkts

/-- MOD_TX_SYMBOL: a symbol is built from the packets of its slots and sent; without the claim, as in any direction a channel
does not use, the lane carries zero samples, which are no output of the model (assumption 4). `bins`: the mean powers of the FIR
output's FFT bins by their offset in Hz from the centre. -/
def txSymbol (die c : Nat) (bins : List (Int × Nat)) (m : M) : M :=
  match getMod m die c with
  | none => m
  | some x0 =>
    let x := symbolStart x0
    match x.cfg with
    | none => m
    | some cfg =>
      if !(x0.state == 3 || x0.state == 4) then m
      else if x.state ≠ 3 then updMod die c (fun _ => x) m
      else
        let n := symbolSlots cfg x.slotAcc
        let a := takeSlots die c n.1 (updMod die c (fun _ => { x with slotAcc := n.2 }) m, [])
        let m1 := if claimHeld m then emit (.net 9 die c (txOut x cfg a.2)) a.1 else a.1
        match maskWorst (halfBand cfg) (x.mask.getD []) bins with
        | none => updMod die c (fun y => { y with violRun := 0 }) m1
        | some w =>
          let m2 := countMod die c 9 1 (updMod die c (fun y => { y with violRun := y.violRun + 1 }) m1)
          if cfg.muteSymbols ≤ x.violRun + 1 then modMute die c w m2 else m2

def execModTxSymbol (die c : Nat) (bins : List (Int × Nat)) (s : State) : Host.Outcome State Fault Refusal :=
  lift (txSymbol die c bins) s

/-! ## Commands (R170, R171, R186) -/

def modObj (d : Desc) (m : M) : Bool := oidOk m 0xF false (oid d) && decide (1 ≤ oidDie (oid d))
def modDie (d : Desc) : Nat := oidDie (oid d)
def modCh (d : Desc) : Nat := oidIdx (oid d)
def modOf (d : Desc) (m : M) : Option Modem := getMod m (modDie d) (modCh d)
def modState (d : Desc) (m : M) : Nat := match modOf d m with
  | some x => x.state
  | none => 0

/-- A MOD command, legal in some states, with its own later checks. -/
def modSpec (opcode : Nat) (legal : List Nat) (more : Desc → M → Option (Nat × Nat)) : CmdSpec :=
  { baseSpec opcode permMedia with
    obj := modObj
    late := fun d m => orFail (dieLate m false (oid d)) (orFail (more d m) (firstFail
      [(!legal.contains (modState d m), stConflict, 0)]))
    when := fun _ _ => some hubWindow
    ostate := modState }

/-- An effect on the channel, with its state before and after. -/
def modApply (f : Modem → Modem) (d : Desc) (m : M) : M × Applied :=
  let m1 := updMod (modDie d) (modCh d) f m
  (m1, okDetail 0 (modState d m) (modState d m1))

def cfgOf (d : Desc) : ModCfg :=
  { profile := pay d 0 1, transmit := pay d 1 1 == 1, bandwidth := pay d 2 1, fft := pay d 3 1, guard := pay d 4 1,
    constellation := pay d 5 1, codeRate := pay d 6 1, spectrum := pay d 7 1, centre := payS d 8 4, muteSymbols := pay d 12 1,
    lockTimeout := pay d 14 2, backoff := pay d 16 2 }

/-- The first byte of Table 08-2 that is out of range. -/
def cfgBad (d : Desc) : Option Nat :=
  let c := cfgOf d
  let dvb := c.profile == 0
  firstBad
    [(decide (1 < pay d 0 1), off 0), (decide (1 < pay d 1 1) || (c.transmit && dvb), off 1),
     (if dvb then decide (2 < c.bandwidth) else !(c.bandwidth == 3 || c.bandwidth == 4), off 2),
     (decide ((if dvb then 2 else 1) < c.fft), off 3), (decide ((if dvb then 4 else 3) < c.guard), off 4),
     (decide ((if dvb then 3 else 2) < c.constellation), off 5), (decide ((if dvb then 5 else 4) < c.codeRate), off 6),
     (c.transmit && bit c.spectrum 1, off 7), (decide (110000000 < c.centre.natAbs + halfBand c), off 8),
     (if c.transmit then c.muteSymbols == 0 else c.muteSymbols != 0, off 12),
     (if c.transmit then c.lockTimeout != 0 else !(decide (100 ≤ c.lockTimeout) && decide (c.lockTimeout ≤ 10000)), off 14),
     (if c.transmit then !(decide (60 ≤ c.backoff) && decide (c.backoff ≤ 400)) else c.backoff != 0, off 16)]

def modConfigSpec : CmdSpec :=
  { modSpec 0x0F01 [1] (fun _ _ => none) with
    mask := mb 0 7 ||| mbits 7 3 ||| mb 8 5 ||| mb 14 4
    fields := fun d _ => cfgBad d
    apply := fun d m => modApply (fun x => showConfig { x with cfg := some (cfgOf d) }) d m }

def execModConfig (d : Desc) (s : State) : Host.Outcome State Fault Refusal := lift (hostRow modConfigSpec d) s

/-- What keeps an IDLE channel from starting. -/
def startLate (d : Desc) (m : M) : Option (Nat × Nat) :=
  match modOf d m with
  | none => none
  | some x =>
    if x.state ≠ 1 then none
    else match x.cfg with
      | none => some (stConflict, 1)
      | some c => if c.transmit && x.mask.isNone then some (stConflict, 2) else none

def modStartSpec : CmdSpec :=
  { modSpec 0x0F02 [1] startLate with
    apply := fun d m => modApply (fun x => showConfig
      { x with state := (match x.cfg with | some c => if c.transmit then 3 else 2 | none => 2), stage := 0, mer := 0x3FF, freq := 0,
               violRun := 0, badRun := 0, slotAcc := 0, searchAt := some m.vault.mono }) d m }

def execModStart (d : Desc) (s : State) : Host.Outcome State Fault Refusal := lift (hostRow modStartSpec d) s

def modStopSpec : CmdSpec :=
  { modSpec 0x0F03 [2, 3, 4] (fun _ _ => none) with
    apply := fun d m => modApply (fun x => showConfig
      { x with state := 1, stage := 0, mer := 0x3FF, freq := 0, searchAt := none, unmuteNext := false, badRun := 0, violRun := 0 }) d m }

def execModStop (d : Desc) (s : State) : Host.Outcome State Fault Refusal := lift (hostRow modStopSpec d) s

def modFeSetSpec : CmdSpec :=
  { modSpec 0x0F04 [1, 2, 3, 4] (fun _ _ => none) with
    mask := mb 0 3
    fields := fun d _ => firstBad
      [(decide (3 < pay d 0 1), off 0), (!(decide (1 ≤ pay d 1 1) && decide (pay d 1 1 ≤ 64)), off 1),
       (!(decide (8 ≤ pay d 2 1) && decide (pay d 2 1 ≤ 32)), off 2)]
    apply := fun d m => modApply (fun x =>
      if x.wire.isSome then { x with spiNext := some (pay d 0 1, pay d 1 1, pay d 2 1) }
      else { x with spiMode := pay d 0 1, spiDiv := pay d 1 1, spiBits := pay d 2 1 }) d m }

def execModFeSet (d : Desc) (s : State) : Host.Outcome State Fault Refusal := lift (hostRow modFeSetSpec d) s

/-- Frame length in force, or waiting. -/
def spiLen (x : Modem) : Nat := match x.spiNext with
  | some s => s.2.2
  | none => x.spiBits

def applyGainSet (d : Desc) (m : M) : M × Applied :=
  let die := modDie d
  let c := modCh d
  match modOf d m with
  | none => (m, okReply 0)
  | some x =>
    let w := pay d 0 4
    let m1 := updMod die c (fun y => { y with word := w }) m
    let m2 := if !claimHeld m then updMod die c (fun y => { y with kept := some w }) m1
      else if x.wire.isNone then spiStart die c w m1
      else updMod die c (fun y => { y with queue := y.queue ++ [w] }) m1
    (m2, .done { reply stOK 0 x.state with plain := some (x.word, w) })

def modGainSetSpec : CmdSpec :=
  { modSpec 0x0F05 [1, 2, 3, 4] (fun d m => match modOf d m with
      | some x => firstFail [(claimHeld m && decide (16 ≤ x.queue.length), stBusy, 0)]
      | none => none) with
    mask := mb 0 4
    fields := fun d m => match modOf d m with
      | some x => firstBad [(decide (2 ^ spiLen x ≤ pay d 0 4), off 0)]
      | none => none
    plainNow := fun d m => same (match modOf d m with | some x => x.word | none => 0)
    apply := applyGainSet }

def execModGainSet (d : Desc) (s : State) : Host.Outcome State Fault Refusal := lift (hostRow modGainSetSpec d) s

/-- The first coefficient out of Q1.17. -/
def firBad (d : Desc) : Option Nat :=
  ((List.range 127).find? fun i => decide (bufS d (4 * i) 4 < -131072) || decide (131071 < bufS d (4 * i) 4)).map fun i => inBuf (4 * i)

def modFirSetSpec : CmdSpec :=
  { modSpec 0x0F06 [1, 3, 4] (fun _ _ => none) with
    ptr := true
    fields := fun d _ => orBad (firstBad [(ptrLen d != 508, 0x20)]) (firBad d)
    apply := fun d m => modApply (fun x =>
      let f := (List.range 127).map fun i => bufS d (4 * i) 4
      if x.state = 1 then { x with fir := some f, firNext := none } else { x with firNext := some f }) d m }

def execModFirSet (d : Desc) (s : State) : Host.Outcome State Fault Refusal := lift (hostRow modFirSetSpec d) s

def maskCount (d : Desc) : Nat := bufN d 0 1
def maskPoints (d : Desc) : List (Int × Int) := (List.range (maskCount d)).map fun i => (bufS d (4 + 4 * i) 2, bufS d (6 + 4 * i) 2)

/-- Twice the OFDM sample rate in kHz; the widest an offset can be where no configuration is. -/
def maskReach (x : Option Modem) : Nat := match x.bind Modem.cfg with
  | some c => match c.bandwidth with
    | 0 => 13714 | 1 => 16000 | 2 => 18285 | 3 => 4352 | _ => 6400
  | none => 32768

/-- The first offset that does not ascend or lies out of range. -/
def offsetBad (reach : Nat) (d : Desc) : Option Nat :=
  ((List.range (maskCount d)).find? fun i =>
    decide (reach < (bufS d (4 + 4 * i) 2).natAbs) || (i != 0 && decide (bufS d (4 + 4 * i) 2 ≤ bufS d (4 * i) 2))).map
    fun i => inBuf (4 + 4 * i)

def modMaskSetSpec : CmdSpec :=
  { modSpec 0x0F07 [1, 3, 4] (fun _ _ => none) with
    ptr := true
    bufRsv := fun d _ => bufReserved d ([255, 0, 0, 0] ++ List.replicate 128 255)
    fields := fun d m => orBad (firstBad
      [(!(decide (2 ≤ maskCount d) && decide (maskCount d ≤ 32)), inBuf 0), (ptrLen d != 4 + 4 * maskCount d, 0x20)])
      (offsetBad (maskReach (modOf d m)) d)
    apply := fun d m => modApply (fun x =>
      if x.state = 1 then { x with mask := some (maskPoints d), maskNext := none } else { x with maskNext := some (maskPoints d) }) d m }

def execModMaskSet (d : Desc) (s : State) : Host.Outcome State Fault Refusal := lift (hostRow modMaskSetSpec d) s

def modTxUnmuteSpec : CmdSpec :=
  { modSpec 0x0F08 [4] (fun _ _ => none) with
    apply := fun d m => modApply (fun x => { x with unmuteNext := true }) d m }

def execModTxUnmute (d : Desc) (s : State) : Host.Outcome State Fault Refusal := lift (hostRow modTxUnmuteSpec d) s

end Sys2Proof.Machine
end

