-- ==== Sys2Proof/Machine/Cod.lean ====
section
/-!
DEFINITION. Codec engines and decode contexts (chapter 09): admission, the choice of the next picture, access units,
pictures and their marks, taint and refresh, presentation, and the COD and FBP commands.
-/
namespace Sys2Proof.Machine

/-! ## Accessors -/

def getCtx (m : M) (k : Nat) : Option Ctx := tget? m.cod.ctxs k
def updCtx (k : Nat) (f : Ctx → Ctx) (m : M) : M := { m with cod.ctxs := tupd m.cod.ctxs k f }
def countCod (k c n : Nat) (m : M) : M := cntAdd { reg := .codCnt, i := keyDie k, j := keyIdx k, k := c } n m
def ctxOid (k : Nat) : Nat := mkOid 0xB (keyDie k) (keyIdx k)

/-- Engine of a context index, decode or encode (R192, R270). -/
def ctxEngine (idx : Nat) : Nat := if idx < 4096 then idx / 256 else (idx - 4096) / 64

def ctxUnit (k : Nat) : Nat := unitPath (keyDie k) (ctxEngine (keyIdx k))

/-- Format code of a context's buffers (Table 09-10). -/
def bufFormat (format : Nat) : Nat := if bit format 1 then 2 else if bit format 0 then 1 else 0

def ctxWindow (c : Ctx) : Boundary := .video c.num c.den

/-! ## Engines (R189, R193, R194, R271) -/

/-- Role of an engine: 0 off, 1 D, 2 E, 3 DE. -/
def engineRole (m : M) (die e : Nat) : Nat := (imgUnits (img m) die).1.getD e 0

/-- The pair of an engine is joined. -/
def codPaired (m : M) (die e : Nat) : Bool := m.join.cod.contains (die * 16 + e / 2)

/-- An engine that contexts may name: on a joined pair only the even one. -/
def engineStands (m : M) (die e : Nat) : Bool := decide (e < 12) && !(codPaired m die e && e % 2 == 1)

def mayDecode (m : M) (die e : Nat) : Bool := engineStands m die e && (engineRole m die e == 1 || engineRole m die e == 3)
def mayEncode (m : M) (die e : Nat) : Bool := engineStands m die e && (engineRole m die e == 2 || engineRole m die e == 3)

/-- Largest picture of an engine or a pair. -/
def engineLimit (m : M) (die e : Nat) : Nat × Nat := if codPaired m die e then (8192, 4352) else (4096, 2304)

/-- Luma samples per second: of a decode context (R193), and of an encode context (R271). -/
def decodeRate (w h num den : Nat) : Rat := (((w * h + 16384) * num : Nat) : Rat) / (den : Rat)

/-- Sizes of the spatial layers, base first. -/
def layerSize (w h s l : Nat) : Nat × Nat := (w / 2 ^ (s - 1 - l), h / 2 ^ (s - 1 - l))

def encodeRate (w h s num den : Nat) : Rat :=
  ((((((List.range s).map fun l => (layerSize w h s l).1 * (layerSize w h s l).2).sum + 49152) * num : Nat)) : Rat) / (den : Rat)

/-- Samples per second, in decode samples, that the contexts of an engine take, one left out. -/
def engineTaken (m : M) (die e skip : Nat) : Rat :=
  ((m.cod.ctxs.filter fun c => keyDie c.1 == die && ctxEngine (keyIdx c.1) == e && c.1 != skip).map fun c =>
    decodeRate c.2.width c.2.height c.2.num c.2.den).sum +
  2 * ((m.enc.encs.filter fun c => keyDie c.1 == die && ctxEngine (keyIdx c.1) == e && c.1 != skip).map fun c =>
    encodeRate c.2.width c.2.height c.2.s c.2.num c.2.den).sum

/-- Pace left on an engine. -/
def engineLeft (m : M) (die e skip : Nat) : Rat :=
  (if codPaired m die e then 1200000000 else 600000000) - engineTaken m die e skip

/-- The engine with the most pace left among those that fit, ties to the lowest number. -/
def bestEngine (m : M) (die : Nat) (fits : Nat → Bool) : Option Nat :=
  (List.range 12).foldl (fun a e =>
    if fits e then
      match a with
      | none => some e
      | some b => if engineLeft m die b 0 < engineLeft m die e 0 then some e else some b
    else a) none

/-- What is on an engine, and what waits for it: (context key, deadline). -/
def engineKey (die e : Nat) : Nat := die * 16 + e

def decodeReady (m : M) (die e : Nat) : List (Nat × Nat) :=
  (m.cod.ctxs.filter fun c => keyDie c.1 == die && ctxEngine (keyIdx c.1) == e && c.2.state == 2 && !c.2.busy).filterMap fun c =>
    c.2.queue.head?.map fun q => (c.1, q.2.1)

def encodeReady (m : M) (die e : Nat) : List (Nat × Nat) :=
  (m.enc.encs.filter fun c => keyDie c.1 == die && ctxEngine (keyIdx c.1) == e && c.2.state != 3).filterMap fun c =>
    c.2.job.map fun j => (c.1, j.deadline)

/-- Earliest deadline, ties to the lower context index (R196, R275). -/
def earliest (l : List (Nat × Nat)) : Option (Nat × Nat) :=
  l.foldl (fun a x => match a with
    | none => some x
    | some b => if x.2 < b.2 then some x else some b) none

/-- An idle engine starts the next picture or frame ready on it. -/
def engineNext (die e : Nat) (m : M) : M :=
  if (tget? m.enc.engines (engineKey die e)).isSome || !dieRun m die then m
  else match earliest (decodeReady m die e ++ encodeReady m die e) with
    | none => m
    | some (k, _) =>
      let m1 := { m with enc.engines := tset m.enc.engines (engineKey die e) k }
      updCtx k (fun c => { c with busy := true }) m1

/-- A window of this number base starts at instant `t` and has not been started. -/
def startsAt (g : Boundary) (last : Option Nat) (t : Nat) (m : M) : Bool := match winOpen g last m with
  | some w => boundaryAt g w == t
  | none => false

/-- Windows of the engine's contexts that start at an instant wait for their row. -/
def windowsWait (die e t : Nat) (m : M) : Bool :=
  (m.cod.ctxs.any fun c => keyDie c.1 == die && ctxEngine (keyIdx c.1) == e && c.2.state == 2 && startsAt (ctxWindow c.2) c.2.window t m) ||
  (m.enc.encs.any fun c => keyDie c.1 == die && ctxEngine (keyIdx c.1) == e && c.2.state == 2 &&
    startsAt (.video c.2.num c.2.den) c.2.window t m)

/-- The engine chooses among the pictures of all the windows that start at an instant (R196): once the last of them has
started. -/
def engineStart (die e t : Nat) (m : M) : M := if windowsWait die e t m then m else engineNext die e m

/-- A picture or frame ends on its engine. -/
def engineFree (k : Nat) (m : M) : M :=
  let die := keyDie k
  let e := ctxEngine (keyIdx k)
  engineNext die e { m with enc.engines := tdel m.enc.engines (engineKey die e) }

def onEngine (m : M) (k : Nat) : Bool := tget? m.enc.engines (engineKey (keyDie k) (ctxEngine (keyIdx k))) == some k

/-! ## Descriptors of a context -/

/-- A buffer of this context. -/
def ownBuf (k : Nat) (b : Buf) : Bool := b.context == keyIdx k

/-- Change marks of a context's buffer, if the descriptor still holds one. -/
def modOwn (k n : Nat) (f : Buf → Buf) (m : M) : M :=
  match getBuf m (keyDie k) n with
  | some b => if ownBuf k b then modBuf (keyDie k) n f m else m
  | none => m

def dropOut (k n : Nat) (m : M) : M := modOwn k n (fun b => { b with out := false }) m

/-- Descriptors of a context in its pool. -/
def ownDescs (m : M) (k : Nat) : List Nat := ((getPool m (keyDie k)).bufs.filter fun b => ownBuf k b.2).map Prod.fst

/-- A picture is stored in a descriptor if it carries a mark. -/
def newPicture (k n : Nat) (b : Buf) (m : M) : M := if bufMarked b then addBuf (keyDie k) n b m else m

/-- COD_STOP's end (R197): the context's reference marks clear. -/
def clearRefs (k : Nat) (m : M) : M :=
  (ownDescs m k).foldl (fun x n => modOwn k n (fun b => { b with short := false, long := false }) x) m

/-- The context leaves the pool: every mark of its own clears. -/
def clearOwn (k : Nat) (m : M) : M :=
  (ownDescs m k).foldl (fun x n => modOwn k n (fun b => { b with short := false, long := false, out := false }) x) m

/-- Reservation of a decode context (R205). -/
def ctxReserve (c : Ctx) : Nat × Nat := (c.maxDpb + 2, (c.maxDpb + 2) * tileKib c.width c.height (bufFormat c.format))

/-- The context becomes ABSENT. -/
def ctxGone (k : Nat) (m : M) : M :=
  match getCtx m k with
  | none => m
  | some c =>
    let r := ctxReserve c
    let m1 := unreserve (keyDie k) r.1 r.2 (clearOwn k m)
    disown (ctxOid k) { m1 with cod.ctxs := tdel m1.cod.ctxs k }

/-! ## Refresh (R211) -/

/-- The stream of a context takes PLIs: an RTP stream of a leg with feedback. -/
def ctxFeedback (m : M) (c : Ctx) : Bool :=
  match getStrm m c.stream, getLeg m (strmLeg c.stream) with
  | some s, some l => s.kind == 1 && bit l.flags 2
  | _, _ => false

def pliNow (k : Nat) (m : M) : M :=
  match getCtx m k with
  | none => m
  | some c => sendPli c.stream (countCod k 10 1 (updCtx k (fun x => { x with lastPli := some m.dev, pliWait := false }) m))

def pliOpen (c : Ctx) (m : M) : Bool := match c.lastPli with
  | some t => tickDue m (t + c.pliMs * 1000000)
  | none => true

/-- A need for a PLI: sent at once, or suppressed until the interval ends; counted where no feedback is. -/
def pliNeed (k : Nat) (m : M) : M :=
  match getCtx m k with
  | none => m
  | some c =>
    if !ctxFeedback m c then countCod k 10 1 m
    else if pliOpen c m then pliNow k m
    else if c.pliWait then countCod k 11 1 m
    else if eventRoom m (keyDie k) then countCod k 11 1 (updCtx k (fun x => { x with pliWait := true }) m)
    else eventFull (keyDie k) (countCod k 11 1 m)

/-- PLI_INTERVAL_EXPIRY: a PLI goes out while the need is still present, or was suppressed. -/
def pliExpiry (die idx : Nat) (m : M) : M :=
  let k := mkKey die idx
  match getCtx m k with
  | none => m
  | some c =>
    if c.state = 2 && (c.refresh || c.pliWait) && c.lastPli.isSome && pliOpen c m && ctxFeedback m c then pliNow k m
    else m

def execPliIntervalExpiry (die idx : Nat) (s : State) : Host.Outcome State Fault Refusal := lift (pliExpiry die idx) s

/-! ## Access units (R190, R191, R198, R212) -/

/-- How many handed packets make the first complete access unit, the losses before it included: through its marker, or up to
the first packet of another timestamp; in a transport stream up to the first packet of another PES packet. -/
def auLen (pes : Bool) (first : Option Nat) : List Handed → Option Nat
  | [] => none
  | h :: r =>
    if h.lost then (auLen pes first r).map (· + 1)
    else
      let key := if pes then h.media.unit else h.ts
      let ends := h.media.marker && !pes
      match first with
      | none => if ends then some 1 else (auLen pes (some key) r).map (· + 1)
      | some f =>
        if key ≠ f then some 0
        else if ends then some 1
        else (auLen pes first r).map (· + 1)

/-- A packet of the access unit was lost: among or after its packets, or before them where the bitstream says that those were
its own. Other losses before it are of a unit of which nothing arrived, which is no picture (R209). -/
def auLost (head : Bool) (l : List Handed) : Bool :=
  ((l.dropWhile Handed.lost).any Handed.lost) || (head && (l.head?.map Handed.lost) == some true)

/-- A layer within the declared maximum size. -/
def layerFits (c : Ctx) (l : AuLayer) : Bool := decide (l.width ≤ c.width) && decide (l.height ≤ c.height)

/-- The highest of some layers. -/
def topLayer (l : List AuLayer) : Option AuLayer := l.foldl (fun a x => match a with
  | none => some x
  | some y => if y.s < x.s then some x else some y) none

/-- The layer of a unit that has been taken in, whose picture is presented. -/
def auTop (a : AuInfo) : AuLayer := (topLayer a.layers).getD { s := 0, width := 0, height := 0 }

/-- A rise of the target takes effect where a switching point allows it (R212). -/
def raiseTarget (i : AuInfo) (c : Ctx) : Ctx :=
  match c.higher with
  | none => c
  | some h =>
    let s := if (i.switchS || i.rap) && decide (c.target % 16 < h % 16) then h % 16 else c.target % 16
    let t := if (i.switchT || i.rap) && decide (c.target / 16 < h / 16) then h / 16 else c.target / 16
    let tg := s + 16 * t
    { c with target := tg, higher := if tg = h then none else some h }

/-- A picture that is not decoded (R190). -/
def unsupported (k cause : Nat) (m : M) : M :=
  match getCtx m k with
  | none => m
  | some c =>
    let m1 := countCod k 7 1 m
    if c.unsupSeen then m1
    else raise 0x1002 2 (ctxOid k) [.u 2 (keyIdx k), .u 1 cause] (updCtx k (fun x => { x with unsupSeen := true }) m1)

/-- The layers of a unit a context keeps. A stream without layers ignores the target; with layers, those above S are
discarded, and so are those too large when a smaller one stands below (R212). -/
def keptLayers (c : Ctx) (i : AuInfo) : List AuLayer :=
  let under := if i.layers.length ≤ 1 then i.layers else i.layers.filter fun l => decide (l.s ≤ c.target % 16)
  if under.any (layerFits c) then under.filter (layerFits c) else under

/-- Layers of a unit at or below the target that are discarded as too large. -/
def oversize (c : Ctx) (i : AuInfo) : Nat :=
  ((i.layers.filter fun l => decide (l.s ≤ c.target % 16)).length) -
    ((keptLayers c i).filter fun l => decide (l.s ≤ c.target % 16)).length

/-- Why a unit's picture is not decoded (R190, Table 09-11): 0 tool, 1 size, 2 DPB, 3 chroma format. -/
def auCause (c : Ctx) (i : AuInfo) : Option Nat :=
  if i.tool then some 0
  else if !((keptLayers c i).any (layerFits c)) then some 1
  else if c.maxDpb < i.dpb then some 2
  else if i.yuv422 && !bit c.format 1 then some 3
  else none

/-- A complete access unit, before it waits for its window. -/
def auArrived (k : Nat) (i : AuInfo) (m : M) : M :=
  match getCtx m k with
  | none => m
  | some c =>
    if c.waitingRap && !i.rap then countCod k 8 1 m
    else
      let c1 := raiseTarget i { c with waitingRap := false }
      let m1 := updCtx k (fun _ => c1) m
      let m2 := countCod k 9 (oversize c1 i) m1
      if c1.target / 16 < i.t || (keptLayers c1 i).isEmpty then m1
      else match auCause c1 i with
        | some cause => unsupported k cause m2
        | none => updCtx k (fun x => { x with ready := x.ready ++ [{ i with layers := (topLayer (keptLayers c1 i)).toList }] }) m2

/-- ACCESS_UNIT_COMPLETE: the first complete access unit of what ordered release has handed on, with what its bitstream
says. -/
def auComplete (die idx : Nat) (info : AuInfo) (m : M) : M :=
  let k := mkKey die idx
  match getCtx m k with
  | none => m
  | some c =>
    let pes := match getStrm m c.stream with
      | some s => s.kind == 8
      | none => false
    match (if c.state = 2 then auLen pes none c.inbox else none) with
    | none => m
    | some n =>
      let m1 := updCtx k (fun x => { x with inbox := x.inbox.drop n }) m
      let m2 := if c.codec = 16 && !pes then countCod k 6 info.badNal m1 else m1
      auArrived k { info with lost := info.lost || auLost info.headLost (c.inbox.take n) } m2

def execAccessUnitComplete (die idx : Nat) (info : AuInfo) (s : State) : Host.Outcome State Fault Refusal :=
  lift (auComplete die idx info) s

/-! ## Lateness (R47, R48, R200) -/

/-- Windows of jobs past their deadlines and not yet found late. -/
def lateJobs (c : Ctx) (now : Nat) : List (Nat × Nat) :=
  ((c.queue.filter fun q => decide (q.2.1 ≤ now) && (match c.lateBy with | some t => decide (t < q.2.1) | none => true)).map
    fun q => (q.1, q.2.1)).eraseDups

/-- The deadline strobe of a context: each job newly late is counted. DESIGN CHOICE (log 116): of a job that still runs
EV_DEADLINE_MISS gives the slack at the strobe, the deadline less the device time of the strobe's row. -/
def decodeStrobe (k : Nat) (m : M) : M :=
  match getCtx m k with
  | none => m
  | some c =>
    (lateJobs c m.dev).foldl (fun x j =>
      let x1 := updCtx k (fun y => { y with lateBy := some j.2 }) x
      deadlineMiss 2 (ctxOid k) j.1 ((j.2 : Int) - m.dev)
        (noteOut (.decodeLate k) (countLate (keyDie k) (ctxEngine (keyIdx k)) (countCod k 1 1 x1)))) m

/-! ## Pictures (R199, R200, R206 to R210) -/

/-- A picture leaves the running for presentation. -/
def supersede (k : Nat) (p : Option Shown) (m : M) : M :=
  match p with
  | none => m
  | some s => noteOut (.superseded k s.desc) (countCod k 2 1 (dropOut k s.desc m))

/-- One picture comes out in output order: by the deadline, or late. -/
def outPicture (k : Nat) (late : Bool) (s : Shown) (m : M) : M :=
  match getCtx m k with
  | none => m
  | some c =>
    let m1 := modOwn k s.desc (fun b => { b with out := true }) m
    if late then supersede k c.outLate (updCtx k (fun x => { x with outLate := some s }) m1)
    else supersede k c.outNow (updCtx k (fun x => { x with outNow := some s }) m1)

/-- What a descriptor of the context shows when it comes out. -/
def shownOf (m : M) (k n : Nat) : Option Shown :=
  match getBuf m (keyDie k) n with
  | some b => if ownBuf k b then some { desc := n, tainted := b.tainted, s := b.s, t := b.t } else none
  | none => none

/-- A reference the context holds: its picture, under a reference mark. -/
def heldRef (m : M) (k : Nat) (r : Option Nat) : Option Buf :=
  (r.bind (getBuf m (keyDie k))).bind fun b => if ownBuf k b && (b.short || b.long) then some b else none

/-- What stands for a reference: its picture, or for one never received the stream's most recent decoded picture, or mid-grey
when there is none (R208). -/
def refPix (m : M) (k : Nat) (c : Ctx) (r : Option Nat) : Pix := match heldRef m k r with
  | some b => b.pix
  | none => c.recent.getD .grey

/-- The contents of a decoded picture, whose damaged areas are filled from its first reference, and in an intra picture from
the most recent decoded picture or mid-grey (R209). -/
def pictureOf (m : M) (k : Nat) (c : Ctx) (p : PicInfo) : Pix :=
  if p.damaged.isEmpty then .free m.drawn
  else .concealed (.free m.drawn) p.damaged (if p.intra then c.recent.getD .grey else refPix m k c (p.refs.head?.join))

/-- Marks that the codec's marking process changes. -/
def applyMarks (k : Nat) (p : PicInfo) (m : M) : M :=
  let m1 := p.drop.foldl (fun x n => modOwn k n (fun b => { b with short := false, long := false }) x) m
  p.toLong.foldl (fun x n => modOwn k n (fun b => { b with short := false, long := b.short || b.long }) x) m1

/-- The need for refresh follows the taint of the pictures decoded. -/
def followTaint (k : Nat) (tainted : Bool) (m : M) : M :=
  match getCtx m k with
  | none => m
  | some c =>
    if tainted && !c.refresh then pliNeed k (updCtx k (fun x => { x with refresh := true }) m)
    else if !tainted && c.refresh then updCtx k (fun x => { x with refresh := false, pliWait := false }) m
    else m

/-- A decoded picture is stored, marked and put in output order. `n`: its descriptor. -/
def storePicture (k n : Nat) (a : AuInfo) (late : Bool) (p : PicInfo) (m : M) : M :=
  match getCtx m k with
  | none => m
  | some c =>
    let missing := (p.refs.filter fun r => (heldRef m k r).isNone).length
    let concealed := missing != 0 || !p.damaged.isEmpty || p.syntaxErr != 0 || a.lost
    let refTaint := p.refs.any fun r => match heldRef m k r with
      | some b => b.tainted
      | none => false
    let tainted := concealed || refTaint
    let b : Buf :=
      { short := p.keep == 1, long := p.keep == 2, out := p.waits || p.outputs.contains none, cmpHold := 0, encRef := 0,
        peer := false, concealed := concealed, tainted := tainted, format := bufFormat c.format, context := keyIdx k,
        width := (auTop a).width, height := (auTop a).height, colour := p.colour, s := (auTop a).s, t := a.t,
        pix := pictureOf m k c p, spare := false }
    let m1 := updCtx k (fun x => { x with recent := some b.pix }) (applyMarks k p (newPicture k n b (draw m)))
    let m2 := countCod k 0 1 (countCod k 4 missing (countCod k 5 p.damaged.length (countCod k 6 p.syntaxErr m1)))
    let m3 := followTaint k tainted m2
    if c.state = 3 then m3
    else p.outputs.foldl (fun x o =>
      match shownOf x k (o.getD n) with
      | some s => outPicture k late s x
      | none => x) m3

/-- The picture on the engine is done: its job may be complete, and a context that stops or closes ends. The reference marks
clear after the picture that COD_STOP left in progress, also when the context has been started again since (R197). -/
def pictureEnds (k : Nat) (q : Nat × Nat × AuInfo) (m : M) : M :=
  match getCtx m k with
  | none => m
  | some c =>
    let m1 := updCtx k (fun x => { x with busy := false, stopping := false, queue := if c.state = 2 then x.queue.drop 1 else [] }) m
    let whole := !((c.queue.drop 1).any fun x => x.1 == q.1)
    let m2 := if whole then
        reportSlack (keyDie k) (ctxEngine (keyIdx k)) ((q.2.1 : Int) - m.dev) (winLen (ctxWindow c) q.1) m1
      else m1
    if c.state = 3 then ctxGone k m2 else if c.stopping then clearRefs k m2 else m2

/-- DECODE_PICTURE_COMPLETE: the picture of the context that runs on its engine is decoded. At or after its job's deadline
it is late. -/
def pictureDone (die idx : Nat) (p : PicInfo) (m : M) : M :=
  let k := mkKey die idx
  match getCtx m k with
  | none => m
  | some c =>
    match c.queue with
    | [] => m
    | q :: _ =>
      if !c.busy || !onEngine m k then m
      else
        let m1 := decodeStrobe k m
        let m2 := match freeDesc m1 die with
          | some n => storePicture k n q.2.2 (decide (q.2.1 ≤ m.dev)) p m1
          | none => m1
        engineFree k (pictureEnds k q m2)

def execDecodePictureComplete (die idx : Nat) (pic : PicInfo) (s : State) : Host.Outcome State Fault Refusal :=
  lift (pictureDone die idx pic) s

/-! ## Windows (R199 to R201) -/

/-- A picture becomes the one presented. -/
def presentPicture (k w : Nat) (s : Shown) (m : M) : M :=
  match getCtx m k with
  | none => m
  | some c =>
    let m1 := match c.shown with
      | some o => if o.desc = s.desc then m else dropOut k o.desc m
      | none => m
    let clean := if s.tainted then
        (match c.clean with | some n => if (getBuf m1 (keyDie k) n).isSome then some n else none | none => none)
      else some s.desc
    let m2 := noteOut (.presented k s.desc)
      (updCtx k (fun x => { x with shown := some s, clean := clean, wasTainted := s.tainted }) m1)
    if s.tainted = c.wasTainted then m2
    else raise 0x1001 3 (ctxOid k) [.u 2 (keyIdx k), .u 1 (b2n s.tainted), .u 4 (w % 2 ^ 32)] m2

/-- The context stops (R197): no further picture starts. -/
def ctxStop (k : Nat) (m : M) : M :=
  match getCtx m k with
  | none => m
  | some c =>
    let m1 := updCtx k (fun x =>
      { x with state := 1, stopping := c.busy, streamLost := false, inbox := [], ready := [], queue := if c.busy then x.queue.take 1 else [], waitingRap := false,
               refresh := false, pliWait := false }) m
    if c.busy then m1 else clearRefs k m1

/-- The context's stream is gone: it stops at its next window start. -/
def ctxStreamLost (k : Nat) (m : M) : M :=
  announce (ctxUnit k) 0x1003 3 (ctxOid k) [.u 2 (keyIdx k), .u 1 2, .u 1 1, .u 1 0] 0 (ctxStop k m)

/-- What is presented at a window start. -/
def presentNext (k w : Nat) (held : Nat) (m : M) : M :=
  match getCtx m k with
  | none => m
  | some c =>
    let m1 := updCtx k (fun x => { x with outNow := none, outLate := none }) m
    match c.outNow, c.outLate with
    | some s, l => presentPicture k w s (supersede k l m1)
    | none, some s => presentPicture k w s m1
    | none, none =>
      if c.state = 2 && c.window.isSome && c.shown.isSome then countCod k 3 1 (countCod k 1 held m1) else m1

/-- A window of a context starts: what the job before it put out is presented, and the job of the window begins with the
access units completed in the window before. -/
def codWindow (k : Nat) (m : M) : M :=
  match getCtx m k with
  | none => m
  | some c =>
    let g := ctxWindow c
    match winOpen g c.window m with
    | none => m
    | some w =>
      let lost := c.state == 2 && c.streamLost
      let m0 := presentNext k w (winHeld g w m) (decodeStrobe k m)
      let m1 := if lost then ctxStreamLost k m0 else m0
      let dl := winDeadline g w 2 m
      let m2 := updCtx k (fun x =>
        { x with window := some w, queue := x.queue ++ x.ready.map fun a => (w, dl, a), ready := [] }) m1
      winMark g w (engineStart (keyDie k) (ctxEngine (keyIdx k)) (boundaryAt g w) m2)

/-- The newest presented picture that a user's window finds: its descriptor, on the context's die. -/
def ctxShown (m : M) (k : Nat) : Option Shown := (getCtx m k).bind Ctx.shown

/-! ## Commands (R195, R197, R213) -/

def codObj (creating : Bool) (d : Desc) (m : M) : Bool := oidOk m 0xB creating (oid d) && decide (oidIdx (oid d) < 3072)
def codKey (d : Desc) : Nat := oidKey (oid d)
def codState (d : Desc) (m : M) : Nat := if oidDie (oid d) = 0 then 0 else match getCtx m (codKey d) with
  | some c => c.state
  | none => 0

/-- Windows of the context a command names. -/
def codWhen (d : Desc) (m : M) : Option Boundary := match getCtx m (codKey d) with
  | some c => some (ctxWindow c)
  | none => some hubWindow

/-- Fields of Table 09-4. -/
def ctxOf (d : Desc) : Ctx :=
  { state := 1, codec := pay d 0 1, format := pay d 1 1, maxDpb := pay d 3 1, stream := oidKey (pay d 4 4), width := pay d 8 2,
    height := pay d 10 2, num := pay d 12 2, den := pay d 14 2, pid := pay d 16 2,
    pliMs := if pay d 18 2 = 0 then 500 else pay d 18 2, target := pay d 20 1, higher := none, waitingRap := false,
    refresh := false, lastPli := none, pliWait := false, inbox := [], ready := [], queue := [], lateBy := none, outNow := none,
    outLate := none, shown := none, clean := none, window := none, wasTainted := false, unsupSeen := false, busy := false, recent := none,
    streamLost := false, stopping := false }

/-- The die a new context goes to: the one named, or its stream's (R26, R194). -/
def codDie (d : Desc) : Nat := if oidDie (oid d) = 0 then oidDie (pay d 4 4) else oidDie (oid d)

/-- A target byte above 2 in either field. -/
def targetBad (n : Nat) : Bool := decide (2 < n % 16) || decide (2 < n / 16)

/-- A frame rate of 1 to 120. -/
def rateBad (num den : Nat) : Option Nat :=
  if num = 0 then some 0 else if den = 0 || decide (num < den) || decide (120 * den < num) then some 2 else none

/-- The stream fits the codec. -/
def codStreamOk (m : M) (o codec : Nat) : Bool :=
  oidOk m 0xA false o && (match getStrm m (oidKey o) with
    | some s => (s.kind == 1 && s.format == codec) || (s.kind == 8 && codec != 18)
    | none => false)

def streamIsTs (m : M) (o : Nat) : Bool := match getStrm m (oidKey o) with
  | some s => s.kind == 8
  | none => false

/-- A named engine decodes and is large enough. -/
def namedBad (d : Desc) (m : M) : Option Nat :=
  let e := pay d 2 1
  let die := codDie d
  if e = 0xFF then none
  else if !mayDecode m die e then some (off 2)
  else if oidDie (oid d) ≠ 0 && oidIdx (oid d) / 256 != e then some (off 2)
  else firstBad [(decide ((engineLimit m die e).1 < pay d 8 2), off 8), (decide ((engineLimit m die e).2 < pay d 10 2), off 10)]

/-- Range checks of Table 09-4. -/
def ctxFields (d : Desc) (m : M) : Option Nat :=
  let codec := pay d 0 1
  orBad (firstBad
    [(!(decide (16 ≤ codec) && decide (codec ≤ 18)), off 0), (payBit d 1 1 && codec != 17, off 1),
     (decide (11 < pay d 2 1) && pay d 2 1 != 0xFF, off 2),
     (decide (pay d 3 1 < (if codec = 18 then 8 else 1)) || decide (16 < pay d 3 1), off 3),
     (!codStreamOk m (pay d 4 4) codec, off 4),
     (decide (pay d 8 2 < 64) || decide (8192 < pay d 8 2) || pay d 8 2 % 2 == 1, off 8),
     (decide (pay d 10 2 < 64) || decide (4352 < pay d 10 2) || pay d 10 2 % 2 == 1, off 10)])
  (orBad ((rateBad (pay d 12 2) (pay d 14 2)).map fun b => off (12 + b)) (firstBad
    [(if streamIsTs m (pay d 4 4) then !(decide (0x10 ≤ pay d 16 2) && decide (pay d 16 2 ≤ 0x1FFE)) else pay d 16 2 != 0, off 16),
     (pay d 18 2 != 0 && (decide (pay d 18 2 < 100) || decide (10000 < pay d 18 2)), off 18),
     (targetBad (pay d 20 1), off 20)]))

/-- A window shorter than twice the guard in force for its kind (R46). -/
def guardOver (m : M) (kind num den : Nat) : Bool := decide (den * nsPerS < 2 * guardOf m kind * num)

/-- Slots of an engine that hold no decode context. -/
def freeCtx (m : M) (die e : Nat) : Option Nat := firstBelow (fun s => (getCtx m (mkKey die (e * 256 + s))).isNone) 256

/-- An engine takes the context. -/
def codFits (m : M) (die : Nat) (c : Ctx) (skip e : Nat) : Bool :=
  mayDecode m die e && decide (c.width ≤ (engineLimit m die e).1) && decide (c.height ≤ (engineLimit m die e).2) &&
  decide (decodeRate c.width c.height c.num c.den ≤ engineLeft m die e skip)

/-- Engine and slot of a new context. -/
def codPlace (d : Desc) (m : M) : Option Nat :=
  let die := codDie d
  let c := ctxOf d
  if !dieTakes m die then none
  else if pay d 2 1 = 0xFF then
    match bestEngine m die fun e => codFits m die c 0 e && (freeCtx m die e).isSome with
    | some e => (freeCtx m die e).map fun s => mkKey die (e * 256 + s)
    | none => none
  else
    let e := pay d 2 1
    if !codFits m die c 0 e then none
    else if oidDie (oid d) = 0 then (freeCtx m die e).map fun s => mkKey die (e * 256 + s)
    else some (codKey d)

def codContextOpenSpec : CmdSpec :=
  { baseSpec 0x1001 permMedia with
    mask := mb 0 1 ||| mbits 1 7 ||| mb 2 19
    obj := codObj true
    names := fun d _ => [(pay d 4 4, off 4)]
    fields := fun d m => orBad (ctxFields d m) (namedBad d m)
    late := fun d m =>
      let c := ctxOf d
      orFail (dieLate m true (oid d)) (orFail (firstFail [(quotaFull m d 0xB, stResource, 0xB)]) (
      match codPlace d m with
      | none => some (stResource, 0x01)
      | some k => orFail (reserveFail m (codDie d) (ctxReserve c).1 (ctxReserve c).2) (firstFail
          [((getCtx m k).isSome, stConflict, 0), (guardOver m 2 c.num c.den, stConflict, 2 ^ 46)])))
    when := fun d _ => some (.video (pay d 12 2) (pay d 14 2))
    ostate := codState
    apply := fun d m =>
      match codPlace d m with
      | none => (m, okReply 0)
      | some k =>
        let c := ctxOf d
        let m1 := reserve (keyDie k) (ctxReserve c).1 (ctxReserve c).2 { m with cod.ctxs := tset m.cod.ctxs k c }
        (own (ctxOid k) (pathFn m d.path) m1,
         okDetail (if pay d 2 1 = 0xFF || oidDie (oid d) = 0 then ctxOid k else 0) 0 1) }

def execCodContextOpen (d : Desc) (s : State) : Host.Outcome State Fault Refusal := lift (hostRow codContextOpenSpec d) s

/-- A MODIFY that changes what a RUNNING context must keep. -/
def codDiffers (d : Desc) (c : Ctx) : Bool :=
  let n := ctxOf d
  pay d 2 1 != 0xFF && pay d 2 1 != ctxEngine (oidIdx (oid d)) ||
  n.codec != c.codec || n.format != c.format || n.maxDpb != c.maxDpb || n.stream != c.stream || n.width != c.width ||
  n.height != c.height || n.num != c.num || n.den != c.den || n.pid != c.pid || n.target != c.higher.getD c.target

def modReserve (die : Nat) (a b : Nat × Nat) (m : M) : M := reserve die b.1 b.2 (unreserve die a.1 a.2 m)

def codContextModifySpec : CmdSpec :=
  { baseSpec 0x1002 permMedia with
    mask := mb 0 1 ||| mbits 1 7 ||| mb 2 19
    obj := codObj false
    names := fun d _ => [(pay d 4 4, off 4)]
    fields := fun d m => orBad (ctxFields d m) (firstBad
      [(codState d m == 1 && pay d 2 1 != 0xFF && pay d 2 1 != ctxEngine (oidIdx (oid d)), off 2)])
    late := fun d m => orFail (dieLate m false (oid d)) (
      match getCtx m (codKey d) with
      | none => some (stConflict, 0)
      | some c =>
        let die := oidDie (oid d)
        let n := ctxOf d
        if c.state = 3 then some (stConflict, 0)
        else if c.state = 2 then firstFail [(codDiffers d c, stConflict, 0)]
        else orFail (firstFail [(!codFits m die n (codKey d) (ctxEngine (oidIdx (oid d))), stResource, 0x01)])
          (orFail (reserveFail (unreserve die (ctxReserve c).1 (ctxReserve c).2 m) die (ctxReserve n).1 (ctxReserve n).2)
            (firstFail [(guardOver m 2 n.num n.den, stConflict, 2 ^ 46)])))
    when := codWhen
    ostate := codState
    apply := fun d m =>
      match getCtx m (codKey d) with
      | none => (m, okReply 0)
      | some c =>
        let n := ctxOf d
        if c.state = 2 then (updCtx (codKey d) (fun x => { x with pliMs := n.pliMs }) m, okReply 2)
        else
          (modReserve (oidDie (oid d)) (ctxReserve c) (ctxReserve n)
            (updCtx (codKey d) (fun x =>
              { n with state := x.state, lastPli := x.lastPli, shown := x.shown, clean := x.clean, wasTainted := x.wasTainted,
                       outNow := x.outNow, outLate := x.outLate, queue := x.queue, lateBy := x.lateBy, busy := x.busy,
                       stopping := x.stopping, recent := if n.stream = x.stream then x.recent else none,
                       window := if n.num = x.num && n.den = x.den then x.window else none, unsupSeen := x.unsupSeen }) m),
           okReply 1) }

def execCodContextModify (d : Desc) (s : State) : Host.Outcome State Fault Refusal := lift (hostRow codContextModifySpec d) s

/-- A COD command on a context in some states. -/
def codSpec (opcode : Nat) (legal : List Nat) : CmdSpec :=
  { baseSpec opcode permMedia with
    obj := codObj false
    late := fun d m => orFail (dieLate m false (oid d)) (firstFail [(!legal.contains (codState d m), stConflict, 0)])
    when := codWhen
    ostate := codState }

/-- A started context holds no picture presented before. -/
def ctxStart (k : Nat) (m : M) : M :=
  match getCtx m k with
  | none => m
  | some c =>
    let m1 := match c.shown with
      | some o => dropOut k o.desc m
      | none => m
    let m2 := supersede k c.outLate (supersede k c.outNow m1)
    let wait := !bit c.format 2
    let m3 := updCtx k (fun x =>
      { x with state := 2, waitingRap := wait, refresh := false, pliWait := false, inbox := [], ready := [], shown := none,
               clean := none, outNow := none, outLate := none, unsupSeen := false, wasTainted := false, window := none }) m2
    if wait && ctxFeedback m3 c then pliNeed k m3 else m3

def codStartSpec : CmdSpec :=
  { codSpec 0x1003 [1] with
    late := fun d m => orFail (dieLate m false (oid d)) (firstFail
      [(codState d m != 1, stConflict, 0),
       (match getCtx m (codKey d) with | some c => (getStrm m c.stream).isNone | none => false, stConflict, 1)])
    apply := fun d m => (ctxStart (codKey d) m, okDetail 0 1 2) }

def execCodStart (d : Desc) (s : State) : Host.Outcome State Fault Refusal := lift (hostRow codStartSpec d) s

def codStopSpec : CmdSpec :=
  { codSpec 0x1004 [2] with
    apply := fun d m => (ctxStop (codKey d) m, okDetail 0 2 1) }

def execCodStop (d : Desc) (s : State) : Host.Outcome State Fault Refusal := lift (hostRow codStopSpec d) s

/-- COD_CONTEXT_CLOSE: ABSENT at once, or when the picture in progress completes. -/
def applyCodClose (d : Desc) (m : M) : M × Applied :=
  let k := codKey d
  match getCtx m k with
  | none => (m, okReply 0)
  | some c =>
    let m1 := ctxStop k m
    if c.busy then (updCtx k (fun x => { x with state := 3 }) m1, okDetail 0 c.state 3)
    else (ctxGone k m1, okDetail 0 c.state 0)

def codContextCloseSpec : CmdSpec :=
  { codSpec 0x1005 [1, 2] with
    apply := applyCodClose }

def execCodContextClose (d : Desc) (s : State) : Host.Outcome State Fault Refusal := lift (hostRow codContextCloseSpec d) s

/-- COD_LAYER_SELECT: a fall from the next access unit, a rise at a switching point. -/
def applyLayerSelect (d : Desc) (m : M) : M × Applied :=
  let k := codKey d
  let n := pay d 0 1
  match getCtx m k with
  | none => (m, okReply 0)
  | some c =>
    let low (a b : Nat) : Nat := if a < b then a else b
    let t := low (c.target % 16) (n % 16) + 16 * low (c.target / 16) (n / 16)
    (updCtx k (fun x => { x with target := t, higher := if t = n then none else some n }) m,
     .done { reply stOK 0 c.state with plain := some (c.higher.getD c.target, n) })

def codLayerSelectSpec : CmdSpec :=
  { codSpec 0x1006 [1, 2] with
    mask := mb 0 1
    fields := fun d _ => firstBad [(targetBad (pay d 0 1), off 0)]
    plainNow := fun d m => same (match getCtx m (codKey d) with | some c => c.higher.getD c.target | none => 0)
    apply := applyLayerSelect }

def execCodLayerSelect (d : Desc) (s : State) : Host.Outcome State Fault Refusal := lift (hostRow codLayerSelectSpec d) s

/-- A forced PLI goes at once; the end of the interval it restarts, where a PLI waits for it, is a task cancelled
(Table 14-4). -/
def codRefreshSpec : CmdSpec :=
  { codSpec 0x1007 [2] with
    force := true
    apply := fun d m =>
      let k := codKey d
      let on := match getCtx m k with | some c => ctxFeedback m c | none => false
      let waits := match getCtx m k with | some c => c.pliWait | none => false
      let m1 := if isForce d && on && waits then count .tskCnt (keyDie k) 0 2 m else m
      (if isForce d && on then pliNow k m1 else pliNeed k m, okReply 2) }

def execCodRefresh (d : Desc) (s : State) : Host.Outcome State Fault Refusal := lift (hostRow codRefreshSpec d) s

/-! ## Snapshots (R214) -/

/-- The picture a snapshot copies. -/
def snapPic (d : Desc) (m : M) : Option (Nat × Buf) :=
  match getCtx m (codKey d) with
  | none => none
  | some c =>
    let n := if payBit d 8 0 then c.clean else c.shown.map Shown.desc
    n.bind fun n => (getBuf m (oidDie (oid d)) n).map fun b => (n, b)

/-- Tile bytes of the picture a command would copy. -/
def snapBytes (d : Desc) (m : M) : Nat := match snapPic d m with
  | some p => tileBytes p.2.width p.2.height p.2.format
  | none => 0

def fbpSnapshotSpec : CmdSpec :=
  { baseSpec 0x1101 permMedia with
    mask := mb 0 8 ||| mbits 8 1
    obj := codObj false
    fields := fun d m => firstBad
      [(pay d 0 8 % 4096 != 0 || decide (apertureMib m * 2 ^ 20 < pay d 0 8 + snapBytes d m), off 0)]
    late := fun d m => orFail (dieLate m false (oid d)) (firstFail
      [((getPool m (oidDie (oid d))).snap.isSome, stBusy, 0),
       (!(codState d m == 1 || codState d m == 2) || (snapPic d m).isNone, stConflict, 0)])
    ostate := codState
    apply := fun d m =>
      match snapPic d m with
      | none => (m, okReply (codState d m))
      | some (n, _) =>
        let die := oidDie (oid d)
        let m1 := cmpHold (die, n) m
        (setPool die { getPool m1 die with snap := some (d, n, pay d 0 8, snapBytes d m) } m1, .later) }

def execFbpSnapshot (d : Desc) (s : State) : Host.Outcome State Fault Refusal := lift (hostRow fbpSnapshotSpec d) s

/-- A picture's bytes in the tile format stand in the aperture from an offset on (R202, R214). -/
def copyPicture (die n at_ : Nat) (m : M) : M := match getBuf m die n with
  | some b => draw { m with host.backing := cellsBlock at_ (pictureBytes b m.drawn) m.host.backing }
  | none => m

/-- FBP_SNAPSHOT_DONE: the copy is complete; the picture's bytes stand in the aperture at its offset. -/
def snapshotDone (die : Nat) (m : M) : M :=
  match (getPool m die).snap with
  | none => m
  | some (d, n, at_, bytes) =>
    let m1 := cmpDrop (die, n) (setPool die { getPool m die with snap := none } (copyPicture die n at_ m))
    finish d false (reply stOK bytes (codState d m1)) m1

def execFbpSnapshotDone (die : Nat) (s : State) : Host.Outcome State Fault Refusal := lift (snapshotDone die) s

end Sys2Proof.Machine
end

