-- ==== Sys2Proof/Machine/Sender.lean ====
section
/-!
DEFINITION. What feeds send streams by their kind: ST 2110-20 frames paced by R313, source packets of an encoder's access
units, and transport-stream packets (R298).
-/
namespace Sys2Proof.Machine

/-! ## ST 2110-20 pacing (R313) -/

/-- Packets of a frame. -/
def pacedCount (fmt : Nat) : Nat := cdiv ((formatSize fmt).1 * (formatSize fmt).2 * 5) 2520

/-- Total lines of the raster of a height. -/
def rasterLines (h : Nat) : Nat := if h = 720 then 750 else if h = 1080 then 1125 else if h = 2160 then 2250 else 4500

/-- Spacing of packets in ns, as a fraction: sender types 0 N and 2 W use the active part of the frame, 1 NL all of it. -/
def pacedGap (fmt typ : Nat) : Nat × Nat :=
  let r := formatRate fmt
  let h := (formatSize fmt).2
  if typ = 1 then (r.2 * nsPerS, r.1 * pacedCount fmt)
  else (r.2 * nsPerS * h, r.1 * rasterLines h * pacedCount fmt)

/-- RTP timestamp of the start of a window at 90 kHz. -/
def rtp90 (fmt w : Nat) : Nat := w * (formatRate fmt).2 * 90000 / (formatRate fmt).1 % 2 ^ 32

/-- The frame of window `w` is scheduled on a bound kind 2 stream. -/
def pacedStart (k w : Nat) (m : M) : M :=
  match getSend m k with
  | none => m
  | some s =>
    let g := pacedGap s.param (s.format % 4)
    let p : Paced :=
      { start := boundaryAt (formatWindow s.param) (w + 1) + s.rate + commitDelay m, next := 0, count := pacedCount s.param,
        num := g.1, den := g.2, ts := rtp90 s.param (w + 1) }
    if s.kind = 2 && s.state = 2 then updSend k (fun x => { x with paced := x.paced ++ [p] }) m else m

/-- UDP payload of a packet of a paced frame: 1,260 bytes of samples, or what the last holds, behind the RTP and payload
headers of ST 2110-20 (PRESUMED: 12 + 2 + 6 bytes). -/
def pacedUdp (fmt i : Nat) : Nat :=
  let rest := (formatSize fmt).1 * (formatSize fmt).2 * 5 / 2 - i * 1260
  20 + (if rest < 1260 then rest else 1260)

/-- One path of a paced packet: with the link down nothing leaves. -/
def pacedPath (port leg : Nat) (second : Bool) (e : EPkt) (m : M) : M :=
  if linkUp m port then wireOut port leg second e m else m

/-- The cipher work of a paced packet, which ends as its scheduled time comes: it binds the present generation, whose cache
entry it uses, and keeps it no longer (R152, R154; assumption 71). -/
def pacedBind (k : Nat) (l : Leg) (m : M) : M :=
  if legSrtp l && cached m (keyDie k) l.keySlot (slotGen (getSlot m l.keySlot)) then
    cacheLoad (keyDie k) l.keySlot (slotGen (getSlot m l.keySlot)) m
  else m

/-- One packet goes out ahead of every class, on both ports of a dual stream. -/
def pacedEmit (k ts udp : Nat) (m0 : M) : M :=
  match getSend m0 k, getLeg m0 (sendLeg k) with
  | some s, some l =>
    let m := if legSrtp l then slotDue l.keySlot m0 else m0
    let g := (getSlot m l.keySlot).cur
    let len := if legSrtp l then (match g with | some x => cipherLen x udp | none => udp) else udp
    if !legCarries l then countSend k 9 1 m
    else if !destKnown m (sendLeg k) l then countSend k 3 1 m
    else
    let f := mtuFits m s l len
    let m := countSend k 2 (mtuDrops s l f) m
    if !f.1 && !f.2 then m
    else if legSrtp l && !txKey m l then keyMiss (sendLeg k) l.keySlot m
    else
      let e : EPkt :=
        { send := k, seq := s.roc * 65536 + s.next, ts := ts, udp := len, len := wireLen l len, at_ := m.vault.mono,
          due := m.dev, rtx := false, out := false, a := f.1, b := f.2 }
      let m1 := updSend k (fun x =>
        { x with next := (x.next + 1) % 65536, roc := if x.next = 65535 then (x.roc + 1) % 2 ^ 32 else x.roc }) (pacedBind k l m)
      let m2 := if e.a then pacedPath l.port (sendLeg k) false e m1 else m1
      if e.b then pacedPath l.secondary (sendLeg k) true { e with out := e.a && linkUp m l.port } m2 else m2
  | _, _ => m0

/-- PACED_PACKET_DUE: the next packet of the oldest frame, when its scheduled time has come. -/
def pacedDue (die idx : Nat) (m : M) : M :=
  let k := mkKey die idx
  match getSend m k with
  | none => m
  | some s =>
    match s.paced with
    | [] => m
    | p :: r =>
      if m.dev * p.den < p.start * p.den + p.next * p.num then m
      else
        let p1 := { p with next := p.next + 1 }
        pacedEmit k p.ts (pacedUdp s.param p.next)
          (updSend k (fun x => { x with paced := if p.count ≤ p1.next then r else p1 :: r }) m)

def execPacedPacketDue (die idx : Nat) (s : State) : Host.Outcome State Fault Refusal := lift (pacedDue die idx) s

/-- Rates of the paced streams bound on a port, one left out. -/
def pacedOn (m : M) (port skip : Nat) : Nat :=
  ((m.snd.sends.filter fun s => s.2.kind == 2 && s.2.state == 2 && s.1 != skip).map fun s =>
    match getLeg m (sendLeg s.1) with
    | some l => if l.port = port || (bit s.2.flags 0 && l.secondary = port) then formatBits s.2.param else 0
    | none => 0).sum

/-- The sum on a port stays within 90 % of its rate. -/
def pacedFits (m : M) (k port fmt : Nat) : Bool := decide ((pacedOn m port k + formatBits fmt) * 10 ≤ portRate m port * 1000000 * 9)

/-- Ports a send stream uses. -/
def sendPorts (s : Send) (l : Leg) : List Nat := if bit s.flags 0 && l.secondary != 0xFF then [l.port, l.secondary] else [l.port]

/-- Admission of a kind 2 stream with a format. -/
def pacedAdmits (m : M) (k fmt : Nat) : Bool := match getSend m k, getLeg m (sendLeg k) with
  | some s, some l => (sendPorts s l).all fun p => pacedFits m k p fmt
  | _, _ => true

/-- MTU of at least 1,400 on the stream's ports. -/
def pacedMtu (m : M) (k : Nat) : Bool := match getSend m k, getLeg m (sendLeg k) with
  | some s, some l => (sendPorts s l).all fun p => decide (1400 ≤ mtuOf m p)
  | _, _ => false

/-! ## Transport streams (R298, kind 6) -/

/-- Packets of 188 bytes enter the leg's queue; while the leg does not carry they are discarded. -/
def tsOut (k ts : Nat) : Nat → M → M
  | 0, m => m
  | n + 1, m =>
    match getSend m k, getLeg m (sendLeg k) with
    | some s, some l =>
      match legCarries l, l.queue with
      | true, some q =>
        let e : EPkt :=
          { send := k, seq := s.roc * 65536 + s.next, ts := ts, udp := 188, len := 188, at_ := 0, due := 0, rtx := false,
            out := false, a := true, b := false }
        let m1 := updSend k (fun x =>
          { x with next := (x.next + 1) % 65536, roc := if x.next = 65535 then (x.roc + 1) % 2 ^ 32 else x.roc }) m
        tsOut k ts n (enqueue (queueKey (keyDie k) q) e m1)
      | _, _ => tsOut k ts n (countSend k 9 1 m)
    | _, _ => m

/-- Packets of one PES packet: 14 bytes of header (PRESUMED) and the access unit, a PCR on the first. -/
def tsUnit (k ts bytes : Nat) (m : M) : M :=
  tsOut k ts (cdiv (bytes + 14 + 8) 184) (updSend k (fun x => { x with pcrAt := m.vault.mono }) m)

/-- TS_PAT_PMT_TIMER: PAT and PMT every 100 ms, and a packet with a PCR when none has gone out for 40 ms. -/
def tsTimer (die idx : Nat) (m : M) : M :=
  let k := mkKey die idx
  match getSend m k with
  | none => m
  | some s =>
    if s.kind ≠ 6 || s.state ≠ 2 then m
    else
      let psi := decide (s.psiAt + 100000000 ≤ m.vault.mono)
      let pcr := decide (s.pcrAt + 40000000 ≤ m.vault.mono)
      let m1 := if psi then tsOut k (m.dev * 90000 / nsPerS % 2 ^ 32) 2 (updSend k (fun x => { x with psiAt := m.vault.mono }) m) else m
      if pcr then tsOut k (m.dev * 90000 / nsPerS % 2 ^ 32) 1 (updSend k (fun x => { x with pcrAt := m.vault.mono }) m1) else m1

def execTsPatPmtTimer (die idx : Nat) (s : State) : Host.Outcome State Fault Refusal := lift (tsTimer die idx) s

/-! ## Access units of an encoder (R279, R298) -/

/-- Source packets of a layer's access unit, of at most 1,200 payload bytes behind the RTP header; `len` is UDP payload, as
the rate of a layer counts it (R302). -/
def unitPackets (ts bytes spatial temporal unit : Nat) (key switchPt last : Bool) : List Handed :=
  let n := cdiv bytes 1200
  (List.range n).map fun i =>
    { seq := 0, ts := ts, lost := false, len := 12 + (if i + 1 = n then bytes - i * 1200 else 1200),
      media := { samples := [], marker := last && i + 1 == n, spatial := spatial, temporal := temporal, key := key && i == 0,
                 switchPt := switchPt && i == 0, unit := unit, tei := false, pid := 0 } }

/-- An access unit of a layer goes to the send stream its context is bound to. -/
def handUnit (k ts bytes spatial temporal unit : Nat) (key switchPt last : Bool) (m : M) : M :=
  match getSend m k with
  | none => m
  | some s =>
    if s.kind = 6 then tsUnit k ts bytes (if key && spatial == 0 then muteKey k m else m)
    else updSend k (fun x => { x with srcq := x.srcq ++ unitPackets ts bytes spatial temporal unit key switchPt last }) m

end Sys2Proof.Machine
end

