-- ==== Sys2Proof/Machine/Cmp.lean ====
section
/-!
DEFINITION. The compositors (chapter 11): layers and their sources, the checks and effect of a commit, the guarded layer's
reference, the job of a window, frames and where they go. What a frame looks like is in Machine/Pixel.lean.
-/
namespace Sys2Proof.Machine

/-! ## Accessors -/

def getComp (m : M) (k : Nat) : Option Comp := tget? m.cmp.comps k
def updComp (k : Nat) (f : Comp → Comp) (m : M) : M := { m with cmp.comps := tupd m.cmp.comps k f }
def countCmp (k c n : Nat) (m : M) : M := cntAdd { reg := .cmpCnt, i := keyDie k, j := keyIdx k, k := c } n m
def cmpOid (k : Nat) : Nat := mkOid 0xD (keyDie k) (keyIdx k)
def cmpUnit (k : Nat) : Nat := unitPath (keyDie k) (44 + keyIdx k)

/-- Compositors 0 and 1 of the die are a pair, and this is it. -/
def cmpPaired (m : M) (k : Nat) : Bool := m.join.cmp.contains (keyDie k) && keyIdx k == 0

/-- Largest output width, pixels of the line buffer, and pace (R242, R250). -/
def cmpWidth (m : M) (k : Nat) : Nat := if cmpPaired m k then 8192 else 4096
def cmpPace (m : M) (k : Nat) : Nat := if cmpPaired m k then 1200000000 else 600000000

/-- State of Table 11-4. -/
def cmpCode (m : M) (k : Nat) : Nat :=
  if m.join.cmp.contains (keyDie k) && keyIdx k == 1 then 3
  else match getComp m k with
    | some c => c.state
    | none => 0

def cmpGrid (c : Comp) : Boundary := formatWindow c.format

def glyphs (m : M) (die : Nat) : List Glyph := tget m.cmp.atlas die []

/-! ## Sets (R246, R250, R242, R247) -/

def setEmpty : CmpSet :=
  { layers := [], zProg := false, zList := [], lutPreset := 0, lut := [], enc2020 := false, outputs := [] }

/-- Length that an interval at a signed position keeps inside 0 to `top`. -/
def clipLen (at_ : Int) (len top : Nat) : Nat :=
  let lo := if at_ < 0 then 0 else at_
  let hi := if (top : Int) < at_ + len then (top : Int) else at_ + len
  (hi - lo).toNat

/-- Destination area after clipping to the output. -/
def layerArea (fmt : Nat) (l : Layer) : Nat :=
  clipLen l.dstX l.dstW (formatSize fmt).1 * clipLen l.dstY l.dstH (formatSize fmt).2

/-- The decimated width exceeds the line buffer; both strips of it fit. -/
def layerWide (buf : Nat) (l : Layer) : Bool := l.kind == 1 && decide (buf < l.srcW / l.h)
def stripsFit (buf : Nat) (l : Layer) : Bool :=
  let w := l.srcW / l.h
  decide (w / 2 + 4 ≤ buf) && decide (w - w / 2 + 4 ≤ buf)

/-- Layers of a set processed in strips. -/
def splitLayers (buf : Nat) (x : CmpSet) : List Nat := (x.layers.filter fun l => layerWide buf l.2).map Prod.fst

/-- The lowest layer that the line buffer cannot take. -/
def lineShort (buf : Nat) (x : CmpSet) : Option Nat :=
  (x.layers.find? fun l => layerWide buf l.2 && !(l.2.split && stripsFit buf l.2)).map Prod.fst

/-- Load of a set at a format, in per mille (R242). -/
def cmpLoad (fmt buf pace : Nat) (x : CmpSet) : Nat :=
  let s := formatSize fmt
  let r := formatRate fmt
  let area := ((x.layers.filter fun l => layerWide buf l.2).map fun l => layerArea fmt l.2).sum
  1000 * (s.1 * s.2 + area) * r.1 / (r.2 * pace)

/-- The load is refused. -/
def loadBad (load : Nat) (beyond : Bool) : Bool := decide (2000 < load) || (decide (1000 < load) && !beyond)

/-- Compositors a set takes as sources. -/
def setComps (x : CmpSet) : List Nat :=
  (x.layers.filter fun l => l.2.kind == 1 && oidCls l.2.source == 0xD).map fun l => oidKey l.2.source

/-- A compositor draws another, directly or through others, by the sets in force. -/
def drawsFrom (m : M) (target : Nat) : Nat → Nat → Bool
  | 0, k => k == target
  | n + 1, k => k == target || (match getComp m k with
    | some c => (setComps c.force).any fun y => drawsFrom m target n y
    | none => false)

/-- The lowest layer of a set through which compositor `k` would draw itself. -/
def cycleLayer (m : M) (k : Nat) (x : CmpSet) : Option Nat :=
  (x.layers.find? fun l => l.2.kind == 1 && oidCls l.2.source == 0xD && drawsFrom m k 21 (oidKey l.2.source)).map Prod.fst

/-- Reservation of a binding: the source's die and KiB of one picture at its declared size. -/
def bindNeed (m : M) (src : Nat) : Nat × Nat :=
  let k := oidKey src
  let kib :=
    if oidCls src = 0xB then match getCtx m k with
      | some c => tileKib c.width c.height (bufFormat c.format)
      | none => 0
    else if oidCls src = 0xA then match getStrm m k with
      | some s => tileKib (formatSize s.vfmt).1 (formatSize s.vfmt).2 2
      | none => 0
    else match getComp m k with
      | some c => tileKib (formatSize c.format).1 (formatSize c.format).2 2
      | none => 0
  (oidDie src, kib)

/-- A layer keeps its binding across a commit. -/
def keepsBinding (c : Comp) (x : CmpSet) (i : Nat) : Bool :=
  match tget? c.force.layers i, tget? x.layers i with
  | some a, some b => a.kind == 1 && b.kind == 1 && a.source == b.source
  | _, _ => false

/-- Give back the reservations of bindings that a commit ends. -/
def unbindAll (c : Comp) (keep : Nat → Bool) (m : M) : M :=
  c.runs.foldl (fun x r => match r.2.reserved with
    | some (die, kib) => if keep r.1 then x else unreserve die 1 kib x
    | none => x) m

/-- Reserve for the new bindings of a set, one after another; the first failure. -/
def bindFail : List (Nat × Nat) → M → Option (Nat × Nat)
  | [], _ => none
  | (die, kib) :: r, m => match reserveFail m die 1 kib with
    | some f => some f
    | none => bindFail r (reserve die 1 kib m)

def newBindings (m : M) (c : Comp) (x : CmpSet) : List (Nat × Nat) :=
  (x.layers.filter fun l => l.2.kind == 1 && !keepsBinding c x l.1).map fun l => bindNeed m l.2.source

/-! ## Outputs (R262) -/

/-- An SDI lane is held by another compositor. -/
def laneHeld (m : M) (k port : Nat) : Bool :=
  m.cmp.comps.any fun c => c.1 != k && c.2.force.outputs.any fun o => o.2 == (1, port)

/-- A format that an SDI lane carries. -/
def sdiFormatOk (fmt : Nat) : Bool :=
  ((bits fmt 8 4 == 2 || bits fmt 8 4 == 3) || (bits fmt 8 4 == 4 || bits fmt 8 4 == 5)) &&
  decide (1 ≤ bits fmt 0 4) && decide (bits fmt 0 4 ≤ 8)

/-- A send stream may be bound, or is bound already to this compositor. -/
def sendAdmits (m : M) (k s : Nat) : Bool := match getSend m s with
  | some x => x.kind == 2 && (x.state == 1 || x.feeder == some (cmpOid k))
  | none => false

/-- An output of a set conflicts with what other units hold. -/
def outputsBad (m : M) (k : Nat) (x : CmpSet) : Option (Nat × Nat) :=
  (x.outputs.find? fun o => if o.2.1 = 1 then laneHeld m k o.2.2 else !sendAdmits m k o.2.2).map fun o =>
    (stConflict, if o.2.1 = 1 then 4 else 0)

/-- The lane sends black, from now with the commit delay (R403). -/
def sdiBlack (port : Nat) (m : M) : M := emit (.net 10 (port / 16) (port % 16) [-1, ((m.dev + commitDelay m : Nat) : Int)]) m

/-- An output no longer bound. -/
def outputFree (o : Nat × Nat) (m : M) : M :=
  if o.1 = 2 then sendState o.2 1 0 m else m

/-- An output newly bound. -/
def outputBind (k : Nat) (o : Nat × Nat) (m : M) : M :=
  if o.1 = 2 then updSend o.2 (fun s => { s with state := 2, feeder := some (cmpOid k) }) m
  else match getComp m k with
    | some c => if c.state = 2 then m else sdiBlack o.2 m
    | none => m

def applyOutputs (k : Nat) (old new : Tbl (Nat × Nat)) (m : M) : M :=
  let gone := (old.map Prod.snd).filter fun o => !(new.any fun n => n.2 == o)
  let come := (new.map Prod.snd).filter fun o => !(old.any fun n => n.2 == o)
  come.foldl (fun x o => outputBind k o x) (gone.foldl (fun x o => outputFree o x) m)

/-! ## A set comes into force -/

def runReset : LayerRun :=
  { split := false, frozen := false, grey := false, held := none, peaks := [], absentRaised := false, clipRaised := false,
    reserved := none }

/-- Drop a layer's hold. -/
def dropHold (r : LayerRun) (m : M) : M := match r.held with
  | some h => cmpDrop h m
  | none => m

/-- What a layer shows after a commit. -/
def runAfter (m : M) (buf : Nat) (c : Comp) (x : CmpSet) (i : Nat) (l : Layer) : LayerRun :=
  let sp := layerWide buf l
  match tget? c.runs i with
  | some r =>
    if keepsBinding c x i then
      let same := tget? c.force.layers i == some l
      { r with split := sp, clipRaised := false, absentRaised := same && r.absentRaised }
    else if l.kind = 1 then { runReset with split := sp, reserved := some (bindNeed m l.source) }
    else if (tget? c.force.layers i).map Layer.style == some l.style then { r with held := none, reserved := none }
    else runReset
  | none => if l.kind = 1 then { runReset with split := sp, reserved := some (bindNeed m l.source) } else runReset

/-- A set replaces the one in force: bindings, outputs and load follow. -/
def applySet (k : Nat) (x : CmpSet) (m : M) : M :=
  match getComp m k with
  | none => m
  | some c =>
    let buf := cmpWidth m k
    let needs := newBindings m c x
    let runs := x.layers.map fun l => (l.1, runAfter m buf c x l.1 l.2)
    let m1 := (c.runs.filter fun r => !keepsBinding c x r.1).foldl (fun y r => dropHold r.2 y) m
    let m2 := needs.foldl (fun y n => reserve n.1 1 n.2 y) (unbindAll c (keepsBinding c x) m1)
    let m3 := applyOutputs k c.force.outputs x.outputs m2
    updComp k (fun y => { y with force := x, runs := runs, captured := none, load := cmpLoad c.format buf (cmpPace m k) x }) m3

/-! ## The guarded layer (R258, R260) -/

/-- The colour of a guarded pixel that is drawn: rectangle content with its drawn bit, or the band outside it. -/
def guardAt (g : Guard) (w h x y : Nat) : Option Nat :=
  if g.x ≤ x && decide (x < g.x + g.w) && decide (g.y ≤ y) && decide (y < g.y + g.h) then
    let p := g.content.getD ((y - g.y) * g.w + (x - g.x)) 0
    if bit p 30 then some p else none
  else if decide (x < g.band) || decide (y < g.band) || decide (w ≤ x + g.band) || decide (h ≤ y + g.band) then some g.bandColour
  else none

/-- A guarded pixel position, drawn or not. -/
def guardCovers (g : Guard) (w h x y : Nat) : Bool :=
  (decide (g.x ≤ x) && decide (x < g.x + g.w) && decide (g.y ≤ y) && decide (y < g.y + g.h)) ||
  decide (x < g.band) || decide (y < g.band) || decide (w ≤ x + g.band) || decide (h ≤ y + g.band)

/-- The three blended terms of a pixel, each as two bytes. -/
def guardTerms (alpha p : Nat) : List Nat :=
  [bits p 0 10, bits p 10 10, bits p 20 10].flatMap fun c => let t := c * alpha / 1024; [t % 256, t / 256]

/-- The reference CRC of a guarded layer on an output of a size. -/
def guardRef (g : Guard) (w h : Nat) : Nat :=
  crcNats ((List.range h).flatMap fun y => (List.range w).flatMap fun x => match guardAt g w h x y with
    | some p => guardTerms g.alpha p
    | none => [])

/-! ## Frames (R244, R247, R261, R262) -/

def backFrame (c : Comp) : CFrame :=
  { window := 0, format := c.format, background := c.background, drawn := [], cursor := none, lutPreset := 0, lut := [],
    enc2020 := false, guard := none, atlas := [], late := false }

/-- Take a descriptor for a frame of a size and format code. -/
def frameBuf (die w h fmt : Nat) (m : M) : Option Nat × M :=
  match freeDesc m die with
  | some n => (some n, addBuf die n (plainBuf w h fmt m.drawn) (draw m))
  | none => (none, m)

/-- Format code of the buffers of a feed: 1 8-bit 4:2:0, 2 10-bit 4:2:0, 3 10-bit 4:2:2. -/
def feedFormat (feed : Nat) : Nat := feed - 1

/-- The descriptors a frame is written to. -/
def frameBufs (k : Nat) (m : M) : (Option Nat × Option Nat) × M :=
  match getComp m k with
  | none => ((none, none), m)
  | some c =>
    let s := formatSize c.format
    let a := frameBuf (keyDie k) s.1 s.2 2 m
    if c.feed = 0 then ((a.1, none), a.2)
    else
      let b := frameBuf (keyDie k) s.1 s.2 (feedFormat c.feed) a.2
      ((a.1, b.1), b.2)

def dropOutOpt (die : Nat) (n : Option Nat) (m : M) : M := match n with
  | some x => outDrop die x m
  | none => m

/-- Descriptors and KiB of the output and feed buffers (R244). -/
def cmpReserve (fmt feed : Nat) : Nat × Nat :=
  let s := formatSize fmt
  (if feed = 0 then 2 else 4,
   2 * tileKib s.1 s.2 2 + (if feed = 0 then 0 else 2 * tileKib s.1 s.2 (feedFormat feed)))

/-- The frame completed in a window is presented from the start of the next. -/
def cmpPresent (k : Nat) (m : M) : M :=
  match getComp m k with
  | none => m
  | some c =>
    if (c.outNext.isSome || c.feedNext.isSome) && decide (boundaryAt (cmpGrid c) (c.frame.window + 1) ≤ m.dev) then
      let m1 := dropOutOpt (keyDie k) c.feedNow (dropOutOpt (keyDie k) c.outNow m)
      updComp k (fun x => { x with outNow := c.outNext, feedNow := c.feedNext, outNext := none, feedNext := none, shown := c.frame }) m1
    else m

/-- A composed frame is complete. -/
def frameComplete (k : Nat) (f : CFrame) (good : Bool) (m : M) : M :=
  match getComp m k with
  | none => m
  | some c =>
    let m1 := dropOutOpt (keyDie k) c.feedNext (dropOutOpt (keyDie k) c.outNext m)
    let b := frameBufs k m1
    updComp k (fun x =>
      { x with job := none, frame := f, good := if good then some f else x.good, outNext := b.1.1, feedNext := b.1.2 }) b.2

/-- A guard mismatch (R260): the event and its record, at most once per second. -/
def guardFault (k : Nat) (ref computed window policy : Nat) (m : M) : M :=
  limited { ev := 0x1301, i := cmpOid k, j := 0 } nsPerS
    (announce (cmpUnit k) 0x1301 0 (cmpOid k) [.u 4 ref, .u 4 computed, .u 4 (window % 2 ^ 32), .u 1 policy] 0) m

/-- The job in progress ends late (R48, R261). -/
def cmpAbort (k : Nat) (m : M) : M :=
  match getComp m k with
  | none => m
  | some c => match c.job with
    | none => m
    | some (f, _) =>
      let m1 := countLate (keyDie k) (44 + keyIdx k) (countCmp k 1 1 (updComp k (fun x => { x with job := none }) m))
      let m2 := reportSlack (keyDie k) (44 + keyIdx k) (-(2 ^ 31)) (winLen (cmpGrid c) f.window) m1
      deadlineMiss 3 (cmpOid k) f.window (-(2 ^ 31)) (noteOut (.compAborted k) m2)

/-- The deadline strobe of a compositor. -/
def cmpStrobe (k : Nat) (m : M) : M :=
  match getComp m k with
  | none => m
  | some c => match c.job with
    | some (_, dl) => if dl ≤ m.dev then cmpAbort k m else m
    | none => m

/-- COMPOSITION_COMPLETE: the frame of the job, with the CRC its blend stage computed (`none`: equal to the reference). -/
def compDone (die idx : Nat) (crc : Option Nat) (m : M) : M :=
  let k := mkKey die idx
  match getComp m k with
  | none => m
  | some c => match c.job with
    | none => m
    | some (f, dl) =>
      if dl ≤ m.dev then cmpAbort k m
      else
        let m1 := countCmp k 0 1 (reportSlack die (44 + idx) ((dl : Int) - m.dev) (winLen (cmpGrid c) f.window) m)
        match f.guard with
        | none => frameComplete k f false (updComp k (fun x => { x with guardLast := 0 }) m1)
        | some g =>
          let v := crc.getD g.crc
          let m2 := updComp k (fun x => { x with guardLast := v }) m1
          if v = g.crc then frameComplete k f true m2
          else
            let m3 := guardFault k g.crc v f.window g.policy (countCmp k 2 1 m2)
            if g.policy = 0 then frameComplete k { c.good.getD c.frame with window := f.window } false m3
            else frameComplete k f false m3

def execCompositionComplete (die idx : Nat) (crc : Option Nat) (s : State) : Host.Outcome State Fault Refusal :=
  lift (compDone die idx crc) s

/-- The direct outputs of a running compositor in a window that starts: the frame it shows, flagged late when the job before
it did not complete, with the time its first line is begun (R403). -/
def sendOutputs (k w : Nat) (m : M) : M :=
  match getComp m k with
  | none => m
  | some c =>
    c.force.outputs.foldl (fun x o =>
      if o.2.1 = 2 then pacedStart o.2.2 (w - 1) x
      else if laneMode x o.2.2 ≥ 2 then count .laneDropped (o.2.2 / 16) (o.2.2 % 16) 0 x
      else if laneMode x o.2.2 == 1 || txOff x o.2.2 || x.pair.mismatch != 0 || x.pair.mutes.any fun u => u.out == 2 ^ 28 + o.2.2 then x
      else emit (.net 10 (o.2.2 / 16) (o.2.2 % 16) [(w : Int) - 1, (c.shown.window : Int), b2n c.shown.late, ((boundaryAt (cmpGrid c) w + commitDelay x : Nat) : Int)]) x) m

/-! ## Taking sources (R247 to R249) -/

/-- The picture a source shows now: its descriptor, size and taint; `none` without a picture. -/
def sourcePic (m : M) (src : Nat) : Option (Nat × Nat × Nat × Bool) :=
  let k := oidKey src
  let n :=
    if oidCls src = 0xB then (ctxShown m k).map Shown.desc
    else if oidCls src = 0xA then (getStrm m k).bind fun s => if s.kind = 2 || s.kind = 6 then s.sync.current else none
    else (getComp m k).bind Comp.outNow
  n.bind fun n => (getBuf m (oidDie src) n).map fun b => (n, b.width, b.height, b.tainted)

def sourceAbsent (m : M) (src : Nat) : Bool :=
  let k := oidKey src
  if oidCls src = 0xB then (getCtx m k).isNone
  else if oidCls src = 0xA then (getStrm m k).isNone
  else (getComp m k).isNone

/-- A source's own window that starts at this instant starts first. -/
def sourceStart (src : Nat) (m : M) : M :=
  let k := oidKey src
  if oidCls src = 0xB then codWindow k m else if oidCls src = 0xA then syncStart k m else cmpPresent k m

def cmpSource (k i cause : Nat) (m : M) : M := raise 0x1302 2 (cmpOid k) [.u 1 i, .u 1 cause] m

def setRun (k i : Nat) (r : LayerRun) (m : M) : M := updComp k (fun c => { c with runs := tset c.runs i r }) m

/-- A layer shows mid-grey. -/
def takeGrey (k i : Nat) (l : Layer) (r : LayerRun) (m : M) : M :=
  let gone := sourceAbsent m l.source
  let m1 := countCmp k 3 1 (dropHold r m)
  let m2 := if gone && !r.absentRaised then cmpSource k i 0 m1 else m1
  setRun k i { r with held := none, grey := true, frozen := false, absentRaised := r.absentRaised || gone } m2

/-- The crop of a layer clipped to a picture: event once for each layer until its next commit. -/
def cropClip (k i : Nat) (l : Layer) (w h : Nat) (m : M) : M :=
  match getComp m k with
  | none => m
  | some c =>
    let r := tget c.runs i runReset
    if w < l.srcX + l.srcW || decide (h < l.srcY + l.srcH) then
      let m1 := countCmp k 5 1 (setRun k i { r with clipRaised := true } m)
      if r.clipRaised then m1 else cmpSource k i 1 m1
    else m

/-- A picture layer takes its source at a window start. -/
def takePicture (k i : Nat) (l : Layer) (m : M) : M :=
  match getComp m k with
  | none => m
  | some c =>
    let r := tget c.runs i runReset
    let die := oidDie l.source
    match sourcePic m l.source with
    | none => takeGrey k i l r m
    | some (n, w, h, taint) =>
      if l.freeze && oidCls l.source == 0xB && taint then
        let heldOk := match r.held with
          | some p => (match getBuf m p.1 p.2 with | some b => !b.tainted | none => false)
          | none => false
        if heldOk then countCmp k 4 1 (setRun k i { r with frozen := true, grey := false } m)
        else countCmp k 4 1 (setRun k i { r with frozen := true, grey := true, held := none } (dropHold r m))
      else
        let m1 := if r.held = some (die, n) then setRun k i { r with frozen := false, grey := false } m
          else setRun k i { r with frozen := false, grey := false, held := some (die, n) } (dropHold r (cmpHold (die, n) m))
        cropClip k i l w h m1

/-- The value of a meter by its source kind, die and index, peak or RMS; a free one reads the floor. -/
def meterRead (m : M) (source die index : Nat) (rms : Bool) (floor : Int) : Int :=
  let x : Option Meter :=
    if source = 0 then (tget? m.mix.xps (xpKey die index)).map fun x => (getSrc m x.source).meter
    else if source = 1 then (getBus m (busNo die index)).map Bus.meter
    else (getLegOut m (mkKey die index)).map LegOut.meter
  match x with
  | some y => if rms then y.rms else y.peak
  | none => floor

/-- A tally pin of a border item: enable [7], active low [6], pin [4:0]. -/
def pinActive (gpio p : Nat) : Bool := bit p 7 && gpioActive gpio (bits p 0 5) (bit p 6)

/-- What a style item samples at a window start: a bar its value and the highest of the last 2 s, an outline its colour
(0 idle, 1 A, 2 B). -/
def sampleItem (m : M) (r : LayerRun) (st : Style) (n : Nat) : StyleItem → Int × Int
  | .run _ _ _ => (0, 0)
  | .bar _ _ _ _ source die index flags =>
    let v := meterRead m source die index (bit flags 1) st.p2
    let top := (r.peaks.filter fun p => p.1 == n && decide (m.vault.mono < p.2.2 + 2000000000)).foldl
      (fun a p => if a < p.2.1 then p.2.1 else a) v
    (v, top)
  | .outline _ _ _ _ _ a b =>
    let g := gpioNow m
    (if pinActive g a then 1 else if pinActive g b then 2 else 0, 0)

/-- A styled layer samples its items; peak holds note their values. -/
def takeStyle (k i : Nat) (st : Style) (m : M) : List (Int × Int) × M :=
  match getComp m k with
  | none => ([], m)
  | some c =>
    let r := tget c.runs i runReset
    let vals := st.items.zipIdx.map fun x => sampleItem m r st x.2 x.1
    let hold := (st.items.zip vals).zipIdx.filterMap fun x => match x.1.1 with
      | .bar _ _ _ _ _ _ _ flags => if bit flags 2 then some (x.2, x.1.2.1, m.vault.mono) else none
      | _ => none
    let keep := r.peaks.filter fun p => decide (m.vault.mono < p.2.2 + 2000000000)
    (vals, setRun k i { r with peaks := hold ++ keep } m)

/-- One layer of the job of a window. -/
def takeLayer (k i : Nat) (m : M) : Option Drawn × M :=
  match getComp m k with
  | none => (none, m)
  | some c => match tget? c.force.layers i with
    | none => (none, m)
    | some l =>
      if l.kind = 1 then
        let m1 := takePicture k i l m
        let r := match getComp m1 k with
          | some y => tget y.runs i runReset
          | none => runReset
        let b := r.held.bind fun p => getBuf m1 p.1 p.2
        let size := match b with | some b => (b.width, b.height) | none => (0, 0)
        let cut (at_ len top : Nat) : Nat := if at_ + len ≤ top then len else top - at_
        (some { index := i, layer := l, strips := r.split, desc := r.held, samples := [], pix := (b.map Buf.pix).getD .grey,
                format := (b.map Buf.format).getD 0, colour := (b.map Buf.colour).getD 0, cropW := cut l.srcX l.srcW size.1,
                cropH := cut l.srcY l.srcH size.2 }, m1)
      else
        let s := match l.style with
          | some st => takeStyle k i st m
          | none => ([], m)
        (some { index := i, layer := l, strips := false, desc := none, samples := s.1, pix := .grey, format := 0, colour := 0, cropW := 0, cropH := 0 }, s.2)

def takeLayers (k : Nat) : List Nat → M → List Drawn × M
  | [], m => ([], m)
  | i :: r, m =>
    let a := takeLayer k i m
    let b := takeLayers k r a.2
    ((match a.1 with | some d => d :: b.1 | none => b.1), b.2)

/-- Blending order (R254): every layer by index, or the list. -/
def drawOrder (x : CmpSet) : List Nat := if x.zProg then x.zList else x.layers.map Prod.fst

/-- Sources of the picture layers in force. -/
def cmpSources (c : Comp) : List Nat := (c.force.layers.filter fun l => l.2.kind == 1).map fun l => l.2.source

/-- A window of a compositor starts: the frame of the window before goes out, and the job of the window takes its layers. A
layer that is not drawn takes its source too (R247). -/
def cmpWindow (k : Nat) (m : M) : M :=
  match getComp m k with
  | none => m
  | some c =>
    match (if c.state = 2 then winOpen (cmpGrid c) c.window m else none) with
    | none => m
    | some w =>
      let g := cmpGrid c
      let m1 := cmpPresent k (cmpAbort k m)
      let repeated := c.window.isSome && (match getComp m1 k with | some y => y.shown.window + 1 != w | none => false)
      let m2 := updComp k (fun x => { x with window := some w, shown := { x.shown with late := repeated } })
        (countCmp k 1 (winHeld g w m) m1)
      let m3 := (cmpSources c).foldl (fun x s => sourceStart s x) (sendOutputs k w m2)
      let order := drawOrder c.force
      let hidden := (c.force.layers.map Prod.fst).filter fun i => !order.contains i
      let t := takeLayers k order (takeLayers k hidden m3).2
      let f : CFrame :=
        { window := w, format := c.format, background := c.background, drawn := t.1,
          cursor := if c.cursor.visible then some c.cursor else none, lutPreset := c.force.lutPreset, lut := c.force.lut,
          enc2020 := c.force.enc2020, guard := c.guard, atlas := glyphs m (keyDie k), late := false }
      winMark g w (updComp k (fun x => { x with job := some (f, winDeadline g w 3 m) }) t.2)

/-! ## Ends -/

/-- CMP_STOP: the job is discarded, the layers' holds clear, SDI lanes go black. -/
def cmpStop (k : Nat) (m : M) : M :=
  match getComp m k with
  | none => m
  | some c =>
    let m1 := c.runs.foldl (fun x r => dropHold r.2 x) m
    let m2 := updComp k (fun x =>
      { x with state := 1, job := none, window := none, runs := x.runs.map fun r => (r.1, { r.2 with held := none, frozen := false, grey := false }) }) m1
    c.force.outputs.foldl (fun x o => if o.2.1 = 1 then sdiBlack o.2.2 x else x) m2

/-- The compositor becomes ABSENT: every reservation, hold and output goes. -/
def cmpGone (k : Nat) (m : M) : M :=
  match getComp m k with
  | none => m
  | some c =>
    let m1 := unbindAll c (fun _ => false) (c.runs.foldl (fun x r => dropHold r.2 x) m)
    let m2 := applyOutputs k c.force.outputs [] m1
    let m3 := [c.outNow, c.outNext, c.feedNow, c.feedNext].foldl (fun x n => dropOutOpt (keyDie k) n x) m2
    let m4 := unreserve (keyDie k) c.reserved.1 c.reserved.2 m3
    disown (cmpOid k) { m4 with cmp.comps := tdel m4.cmp.comps k }

end Sys2Proof.Machine
end

