-- ==== Sys2Proof/Machine/CmpCmd.lean ====
section
/-!
DEFINITION. The compositor commands (R242 to R246, R253, R256 to R264).
-/
namespace Sys2Proof.Machine

/-! ## Reading buffers -/

/-- 16-bit and 32-bit little-endian words of a byte list. -/
def le16s : List Byte → List Nat
  | a :: b :: r => (a.toNat + 256 * b.toNat) :: le16s r
  | _ => []

def le32s : List Byte → List Nat
  | a :: b :: c :: d :: r => (a.toNat + 256 * b.toNat + 65536 * c.toNat + 16777216 * d.toNat) :: le32s r
  | _ => []

/-- Position of the first element above a bound. -/
def firstOver (top : Nat) (l : List Nat) : Option Nat := l.findIdx? fun n => decide (top < n)

def setBits (p : List (Nat × Nat)) (d : Desc) : Option Nat := (p.find? fun x => bufByte d x.1 &&& x.2 != 0).map Prod.fst

/-! ## Shared checks -/

def cmpObj (creating : Bool) (d : Desc) (m : M) : Bool := oidOk m 0xD creating (oid d)
def cmpKey (d : Desc) : Nat := oidKey (oid d)
def cmpState (d : Desc) (m : M) : Nat := if oidDie (oid d) = 0 then 0 else cmpCode m (cmpKey d)

def cmpWhen (d : Desc) (m : M) : Option Boundary := match getComp m (cmpKey d) with
  | some c => some (cmpGrid c)
  | none => some hubWindow

/-- A guarded layer is set, or was set by a command not yet at its boundary (R259). -/
def guarded (k : Nat) (m : M) : Bool := match getComp m k with
  | some c => c.guardSet
  | none => false

/-- A compositor command legal in some states, at the compositor's window start. -/
def cmpSpec (opcode : Nat) (perm : Perm) (legal : List Nat) : CmdSpec :=
  { baseSpec opcode perm with
    obj := cmpObj false
    late := fun d m => orFail (dieLate m false (oid d)) (firstFail [(!legal.contains (cmpState d m), stConflict, 0)])
    when := cmpWhen
    ostate := cmpState }

/-- A staged command: it changes the staged set when it executes, and takes no commit time (R257). -/
def stagedSpec (opcode : Nat) : CmdSpec := { cmpSpec opcode permMedia [1, 2] with when := fun _ _ => none }

def updStaged (k : Nat) (f : CmpSet → CmpSet) (m : M) : M := updComp k (fun c => { c with staged := f c.staged }) m

/-! ## CMP_DEFINE, CMP_START, CMP_STOP, CMP_DELETE -/

def cursorReset : Cursor := { x := 0, y := 0, visible := false, hotX := 0, hotY := 0, image := List.replicate 16384 0 }

/-- A free instance that takes a width. -/
def cmpFree (m : M) (die w i : Nat) : Bool := cmpCode m (mkKey die i) == 0 && decide (w ≤ cmpWidth m (mkKey die i))

/-- Free compositors of a die (R26). -/
def cmpFrees (m : M) (die : Nat) : Nat := ((List.range 3).filter fun i => cmpFree m die 0 i).length

/-- The compositor a CMP_DEFINE sets: on the die that R26 chooses the lowest one free that takes the format's width (DESIGN
CHOICE, log 119: R26 fixes the die and not the index). -/
def cmpPlace (d : Desc) (m : M) : Option Nat :=
  if oidDie (oid d) ≠ 0 then some (cmpKey d)
  else (placeMost (cmpFrees m) m).bind fun die =>
    (firstBelow (fun i => cmpFree m die (formatSize (pay d 0 2)).1 i) 3).map fun i => mkKey die i

/-- The set whose load CMP_DEFINE checks. -/
def presentSet (m : M) (k : Nat) : CmpSet := match getComp m k with
  | some c => c.force
  | none => setEmpty

def defineLoad (d : Desc) (m : M) (k : Nat) : Nat := cmpLoad (pay d 0 2) (cmpWidth m k) (cmpPace m k) (presentSet m k)

/-- The reservation of CMP_DEFINE, the compositor's present one given back first. -/
def defineReserve (d : Desc) (m : M) (k : Nat) : Option (Nat × Nat) :=
  let n := cmpReserve (pay d 0 2) (pay d 3 1)
  let m1 := match getComp m k with
    | some c => unreserve (keyDie k) c.reserved.1 c.reserved.2 m
    | none => m
  reserveFail m1 (keyDie k) n.1 n.2

/-- The compositor as CMP_DEFINE leaves it: it keeps its layers; its LUT is the identity and its encoding matrix BT.709 (R244,
R252). -/
def compNew (d : Desc) (c : Option Comp) : Comp :=
  let z : Comp :=
    { state := 1, format := pay d 0 2, overPace := payBit d 2 0, feed := pay d 3 1, background := pay d 4 4, load := 0,
      staged := setEmpty, force := setEmpty, captured := none, runs := [], cursor := cursorReset, guard := none, guardSet := false,
      guardLast := 0, job := none,
      frame := { window := 0, format := pay d 0 2, background := pay d 4 4, drawn := [], cursor := none, lutPreset := 0, lut := [],
                 enc2020 := false, guard := none, atlas := [], late := false },
      good := none,
      shown := { window := 0, format := pay d 0 2, background := pay d 4 4, drawn := [], cursor := none, lutPreset := 0, lut := [],
                 enc2020 := false, guard := none, atlas := [], late := false },
      reserved := cmpReserve (pay d 0 2) (pay d 3 1), outNow := none, outNext := none, feedNow := none, feedNext := none,
      window := none }
  let plain (x : CmpSet) : CmpSet := { x with lutPreset := 0, lut := [], enc2020 := false }
  match c with
  | some x => { z with staged := plain x.staged, force := plain x.force, runs := x.runs, cursor := x.cursor }
  | none => z

/-- The settings take effect; the last complete frame is the background, in buffers of the new size. -/
def defineComp (k : Nat) (d : Desc) (m : M) : M :=
  let old := getComp m k
  let m1 := match old with
    | some c =>
      unreserve (keyDie k) c.reserved.1 c.reserved.2
        ([c.outNow, c.outNext, c.feedNow, c.feedNext].foldl (fun x n => dropOutOpt (keyDie k) n x) m)
    | none => m
  let n := compNew d old
  let c := { n with load := defineLoad d m k }
  let m2 := reserve (keyDie k) c.reserved.1 c.reserved.2 { m1 with cmp.comps := tset m1.cmp.comps k c }
  let b := frameBufs k m2
  updComp k (fun x => { x with outNow := b.1.1, feedNow := b.1.2 }) b.2

def cmpDefineSpec : CmdSpec :=
  { baseSpec 0x1301 permMedia with
    mask := mb 0 2 ||| mbits 2 1 ||| mb 3 4 ||| mbits 7 0x3F
    obj := cmpObj true
    deny := fun d m => guarded (cmpKey d) m
    fields := fun d m => firstBad
      [(!formatOk (pay d 0 2), off 0),
       (if oidDie (oid d) = 0 then (placeMost (cmpFrees m) m).isSome && (cmpPlace d m).isNone
        else decide (cmpWidth m (cmpKey d) < (formatSize (pay d 0 2)).1), off 0),
       (decide (3 < pay d 3 1), off 3)]
    late := fun d m =>
      let fresh := oidDie (oid d) = 0 || (getComp m (cmpKey d)).isNone
      orFail (dieLate m fresh (oid d)) (orFail (firstFail [(fresh && quotaFull m d 0xD, stResource, 0xD)]) (
      match cmpPlace d m with
      | none => some (stResource, 0)
      | some k => orFail (firstFail [(loadBad (defineLoad d m k) (payBit d 2 0), stResource, 0x06)])
          (orFail (defineReserve d m k) (firstFail
            [(!(cmpCode m k == 0 || cmpCode m k == 1), stConflict, 0),
             (guardOver m 3 (formatRate (pay d 0 2)).1 (formatRate (pay d 0 2)).2, stConflict, 2 ^ 46)]))))
    when := fun d _ => some (formatWindow (pay d 0 2))
    ostate := cmpState
    apply := fun d m =>
      match cmpPlace d m with
      | none => (m, okReply 0)
      | some k =>
        let was := cmpCode m k
        let m1 := defineComp k d m
        let beyond := decide (1000 < defineLoad d m k)
        (if was = 0 then own (cmpOid k) (pathFn m d.path) m1 else m1,
         .done { reply (if beyond then stDegraded else stOK) (if oidDie (oid d) = 0 then cmpOid k else b2n beyond) 1 with before := was }) }

def execCmpDefine (d : Desc) (s : State) : Host.Outcome State Fault Refusal := lift (hostRow cmpDefineSpec d) s

def cmpStartSpec : CmdSpec :=
  { cmpSpec 0x1302 permMedia [1] with
    apply := fun d m => (updComp (cmpKey d) (fun c => { c with state := 2, window := none, job := none }) m, okDetail 0 1 2) }

def execCmpStart (d : Desc) (s : State) : Host.Outcome State Fault Refusal := lift (hostRow cmpStartSpec d) s

def cmpStopSpec : CmdSpec :=
  { cmpSpec 0x1303 permMedia [2] with
    deny := fun d m => guarded (cmpKey d) m
    apply := fun d m => (cmpStop (cmpKey d) m, okDetail 0 2 1) }

def execCmpStop (d : Desc) (s : State) : Host.Outcome State Fault Refusal := lift (hostRow cmpStopSpec d) s

def cmpDeleteSpec : CmdSpec :=
  { cmpSpec 0x1304 permMedia [1] with
    deny := fun d m => guarded (cmpKey d) m
    apply := fun d m => (cmpGone (cmpKey d) m, okDetail 0 1 0) }

def execCmpDelete (d : Desc) (s : State) : Host.Outcome State Fault Refusal := lift (hostRow cmpDeleteSpec d) s

/-! ## CMP_OUTPUT_SET (R262) -/

/-- What the payload binds, `none` for kind 0. -/
def outputOf (d : Desc) : Option (Nat × Nat) :=
  if pay d 1 1 = 0 then none else if pay d 1 1 = 1 then some (1, pay d 2 1) else some (2, oidKey (pay d 4 4))

/-- A bound output that the command removes or replaces (R259). -/
def outputReplaced (d : Desc) (m : M) : Bool := match getComp m (cmpKey d) with
  | some c => match tget? c.force.outputs (pay d 0 1) with
    | some o => some o != outputOf d
    | none => false
  | none => false

def outputFields (d : Desc) (m : M) : Option Nat :=
  let fmt := match getComp m (cmpKey d) with
    | some c => c.format
    | none => 0
  let k := oidKey (pay d 4 4)
  orBad (firstBad [(decide (1 < pay d 0 1), off 0), (decide (2 < pay d 1 1), off 1)])
    (if pay d 1 1 = 1 then firstBad
      [(!(lanePers (img m) (pay d 2 1 / 16) (pay d 2 1 % 16) == 4 && decide (1 ≤ pay d 2 1 / 16)), off 2),
       (fmt != 0 && !sdiFormatOk fmt, off 1)]
    else if pay d 1 1 = 2 then firstBad
      [(!(oidOk m 0xA false (pay d 4 4) && decide (4096 ≤ oidIdx (pay d 4 4))), off 4),
       (match getSend m k with | some s => s.kind != 2 || (fmt != 0 && s.param != fmt) || !pacedMtu m k | none => true, off 4)]
    else none)

def cmpOutputSetSpec : CmdSpec :=
  { stagedSpec 0x1305 with
    mask := mb 0 3 ||| mb 4 4
    names := fun d _ => if pay d 1 1 = 2 then [(pay d 4 4, off 4)] else []
    deny := fun d m => guarded (cmpKey d) m && outputReplaced d m
    fields := fun d m => orBad (outputFields d m) (commitBad d)
    late := fun d m =>
      let k := cmpKey d
      let s := oidKey (pay d 4 4)
      let fmt := match getComp m k with | some c => c.format | none => 0
      orFail (dieLate m false (oid d)) (firstFail
        [(pay d 1 1 == 2 && !pacedAdmits m s fmt, stResource, 0x0B),
         (!(cmpState d m == 1 || cmpState d m == 2), stConflict, 0),
         (pay d 1 1 == 1 && laneHeld m k (pay d 2 1), stConflict, 4),
         (pay d 1 1 == 2 && !sendAdmits m k s, stConflict, 0)])
    apply := fun d m =>
      (updStaged (cmpKey d) (fun x =>
        { x with outputs := match outputOf d with
            | some o => tset x.outputs (pay d 0 1) o
            | none => tdel x.outputs (pay d 0 1) }) m, okReply (cmpState d m)) }

def execCmpOutputSet (d : Desc) (s : State) : Host.Outcome State Fault Refusal := lift (hostRow cmpOutputSetSpec d) s

/-! ## CMP_LAYER_SET (R246, R249) -/

/-- A source that fits a picture layer of a compositor (Table 11-5). -/
def layerSourceOk (m : M) (k src : Nat) : Bool :=
  if oidCls src = 0xB then oidOk m 0xB false src && decide (oidIdx src < 3072)
  else if oidCls src = 0xA then oidOk m 0xA false src && decide (oidIdx src < 4096) &&
    (match getStrm m (oidKey src) with | some s => s.kind == 2 || s.kind == 6 | none => false)
  else if oidCls src = 0xD then oidOk m 0xD false src && oidKey src != k
  else false

/-- Fields of a picture layer. -/
def pictureFields (d : Desc) (m : M) : Option Nat :=
  let h := 2 ^ bits (pay d 3 1) 0 2
  let v := 2 ^ bits (pay d 3 1) 2 2
  let sw := pay d 12 2
  let sh := pay d 14 2
  let dw := pay d 20 2
  let dh := pay d 22 2
  firstBad
    [(!layerSourceOk m (cmpKey d) (pay d 4 4), off 4), (pay d 8 2 % 2 == 1, off 8), (pay d 10 2 % 2 == 1, off 10),
     (sw % 2 == 1 || decide (sw < 16) || decide (8192 < sw), off 12), (sh % 2 == 1 || decide (sh < 16) || decide (4352 < sh), off 14),
     (decide (2 * dw * h < sw) || decide (16 * sw < dw * h), off 20), (decide (2 * dh * v < sh) || decide (16 * sh < dh * v), off 22)]

def layerFields (d : Desc) (m : M) : Option Nat :=
  let kind := pay d 1 1
  let far (o : Nat) : Bool := decide (payS d o 2 < -8192) || decide (8191 < payS d o 2)
  orBad (firstBad [(decide (63 < pay d 0 1), off 0), (decide (4 < kind), off 1)])
  (if kind = 0 then firstBad [(pay d 2 1 != 0, off 2), (pay d 3 1 != 0, off 3), (pay d 4 4 != 0, off 4)]
   else
    orBad (firstBad [(far 16, off 16), (far 18, off 18), (pay d 20 2 == 0 || decide (8192 < pay d 20 2), off 20),
                     (pay d 22 2 == 0 || decide (8192 < pay d 22 2), off 22), (decide (1024 < pay d 24 2), off 24)])
      (if kind = 1 then pictureFields d m
       else firstBad [(pay d 2 1 != 0, off 2), (pay d 3 1 != 0, off 3), (pay d 4 4 != 0, off 4), (pay d 8 8 != 0, off 8)]))

/-- The layer a payload describes; its chain and style stay while its kind does. -/
def layerOf (d : Desc) (old : Option Layer) : Layer :=
  let keep := match old with
    | some l => if l.kind = pay d 1 1 then some l else none
    | none => none
  { kind := pay d 1 1, split := payBit d 2 0, freeze := payBit d 2 1, h := 2 ^ bits (pay d 3 1) 0 2, v := 2 ^ bits (pay d 3 1) 2 2,
    source := pay d 4 4, srcX := pay d 8 2, srcY := pay d 10 2, srcW := pay d 12 2, srcH := pay d 14 2, dstX := payS d 16 2,
    dstY := payS d 18 2, dstW := pay d 20 2, dstH := pay d 22 2, alpha := pay d 24 2, chain := keep.bind Layer.chain,
    style := keep.bind Layer.style }

def cmpLayerSetSpec : CmdSpec :=
  { stagedSpec 0x1306 with
    mask := mb 0 2 ||| mbits 2 3 ||| mbits 3 15 ||| mb 4 22
    names := fun d _ => if pay d 1 1 = 1 then [(pay d 4 4, off 4)] else []
    fields := fun d m => orBad (layerFields d m) (commitBad d)
    apply := fun d m =>
      (updStaged (cmpKey d) (fun x =>
        { x with layers := if pay d 1 1 = 0 then tdel x.layers (pay d 0 1)
                           else tset x.layers (pay d 0 1) (layerOf d (tget? x.layers (pay d 0 1))) }) m, okReply (cmpState d m)) }

def execCmpLayerSet (d : Desc) (s : State) : Host.Outcome State Fault Refusal := lift (hostRow cmpLayerSetSpec d) s

/-- The layer of the staged set, by its kind. -/
def stagedKind (m : M) (k i : Nat) : Nat := match getComp m k with
  | some c => match tget? c.staged.layers i with
    | some l => l.kind
    | none => 0
  | none => 0

/-! ## CMP_LAYER_COLOUR (R251) -/

def s16 (n : Nat) : Int := sext 16 n

def chainOfBuf (d : Desc) : Chain :=
  let w := le16s d.buf
  { m := (w.take 9).map s16, pre := ((w.drop 9).take 3).map s16, post := ((w.drop 12).take 3).map s16,
    inLut := (w.drop 16).take 3072, outLut := (w.drop 3088).take 3072 }

/-- First of the six offsets out of −1,024 to 1,023. -/
def chainOffsetBad (d : Desc) : Option Nat :=
  (((le16s ((d.buf.drop 18).take 12)).map s16).findIdx? fun i => decide (i < -1024) || decide (1023 < i)).map fun i => 18 + 2 * i

def cmpLayerColourSpec : CmdSpec :=
  { stagedSpec 0x1307 with
    ptr := true
    bufRsv := fun d _ =>
      orBad (setBits [(31, 255)] d) ((firstOver 1023 (le16s (d.buf.drop 32))).map fun i => 33 + 2 * i)
    fields := fun d m => orBad (orBad (commitBad d) (firstBad
      [(ptrLen d != 12320, 0x20),
       (decide (63 < bufByte d 30) || stagedKind m (cmpKey d) (bufByte d 30) != 1, inBuf 30)])) ((chainOffsetBad d).map inBuf)
    apply := fun d m =>
      (updStaged (cmpKey d) (fun x =>
        { x with layers := tupd x.layers (bufByte d 30) fun l => { l with chain := some (chainOfBuf d) } }) m,
       okReply (cmpState d m)) }

def execCmpLayerColour (d : Desc) (s : State) : Host.Outcome State Fault Refusal := lift (hostRow cmpLayerColourSpec d) s

/-! ## CMP_LAYER_STYLE (R253) -/

/-- Read text runs: each item, and the offset after it; the first byte out of range. -/
def textItems : Nat → Nat → List Byte → Except Nat (List StyleItem × Nat)
  | 0, o, _ => .ok ([], o)
  | n + 1, o, b =>
    let c := (b.getD 4 0).toNat
    if c = 0 || decide (64 < c) then .error (o + 4)
    else if (b.getD 5 0).toNat ≠ 0 then .error (o + 5)
    else
      let size := cdiv (6 + 2 * c) 4 * 4
      let w := le16s b
      match textItems n (o + size) (b.drop size) with
      | .error e => .error e
      | .ok (r, e) => .ok (.run (s16 (w.getD 0 0)) (s16 (w.getD 1 0)) ((w.drop 3).take c) :: r, e)

/-- Read bars and outlines of 16 bytes each. -/
def boxItems (media : Nat) (kind : Nat) : Nat → Nat → List Byte → Except Nat (List StyleItem × Nat)
  | 0, o, _ => .ok ([], o)
  | n + 1, o, b =>
    let w := le16s b
    let by_ (i : Nat) : Nat := (b.getD i 0).toNat
    let bad :=
      if kind = 3 then firstBad
        [(decide (2 < by_ 8), 8), (by_ 9 == 0 || decide (media < by_ 9), 9), (decide (7 < by_ 12), 12), (by_ 13 != 0, 13),
         (by_ 14 != 0, 14), (by_ 15 != 0, 15)]
      else firstBad
        [(by_ 8 == 0 || decide (16 < by_ 8), 8), (bit (by_ 9) 5, 9), (bit (by_ 10) 5, 10), (by_ 11 != 0, 11), (by_ 12 != 0, 12),
         (by_ 13 != 0, 13), (by_ 14 != 0, 14), (by_ 15 != 0, 15)]
    match bad with
    | some i => .error (o + i)
    | none =>
      let x := s16 (w.getD 0 0)
      let y := s16 (w.getD 1 0)
      let item := if kind = 3 then StyleItem.bar x y (w.getD 2 0) (w.getD 3 0) (by_ 8) (by_ 9) (w.getD 5 0) (by_ 12)
        else StyleItem.outline x y (w.getD 2 0) (w.getD 3 0) (by_ 8) (by_ 9) (by_ 10)
      match boxItems media kind n (o + 16) (b.drop 16) with
      | .error e => .error e
      | .ok (r, e) => .ok (item :: r, e)

def readItems (media kind : Nat) (d : Desc) : Except Nat (List StyleItem × Nat) :=
  if kind = 2 then textItems (bufByte d 1) 32 (d.buf.drop 32) else boxItems media kind (bufByte d 1) 32 (d.buf.drop 32)

def glyphsIn (l : List StyleItem) : Nat := (l.map fun i => match i with
  | .run _ _ g => g.length
  | _ => 0).sum

def styleFields (d : Desc) (m : M) : Option Nat :=
  let kind := stagedKind m (cmpKey d) (bufByte d 0)
  let n := bufByte d 1
  orBad (firstBad
    [(decide (ptrLen d < 32), 0x20), (decide (63 < bufByte d 0) || !(kind == 2 || kind == 3 || kind == 4), inBuf 0),
     (n == 0 || decide ((if kind = 2 then 128 else 64) < n), inBuf 1),
     (if kind = 2 then decide (1024 < bufN d 16 2) else kind == 4 && bufN d 16 2 != 0, inBuf 16),
     (kind != 3 && bufN d 18 2 != 0, inBuf 18),
     (if kind = 3 then decide (bufS d 20 2 < -1000) || decide (-60 < bufS d 20 2) else bufN d 20 2 != 0, inBuf 20)])
    (match readItems m.part.media kind d with
     | .error o => some (inBuf o)
     | .ok (l, e) => firstBad [(ptrLen d != e, 0x20), (decide (2048 < glyphsIn l), inBuf 1)])

def styleOf (m : M) (d : Desc) : Style :=
  { colours := [bufN d 4 4, bufN d 8 4, bufN d 12 4], p0 := bufS d 16 2, p1 := bufS d 18 2, p2 := bufS d 20 2,
    items := match readItems m.part.media (stagedKind m (cmpKey d) (bufByte d 0)) d with
      | .ok (l, _) => l
      | .error _ => [] }

def cmpLayerStyleSpec : CmdSpec :=
  { stagedSpec 0x1308 with
    ptr := true
    bufRsv := fun d _ => setBits ([(2, 255), (3, 255), (7, 0xC0), (11, 0xC0), (15, 0xC0)] ++ (List.range 10).map fun i => (22 + i, 255)) d
    fields := fun d m => orBad (commitBad d) (styleFields d m)
    apply := fun d m =>
      let st := styleOf m d
      (updStaged (cmpKey d) (fun x =>
        { x with layers := tupd x.layers (bufByte d 0) fun l => { l with style := some st } }) m, okReply (cmpState d m)) }

def execCmpLayerStyle (d : Desc) (s : State) : Host.Outcome State Fault Refusal := lift (hostRow cmpLayerStyleSpec d) s

/-! ## CMP_ZLIST_SET and CMP_LUT3D_SET (R252, R254) -/

def zBytes (d : Desc) : List Nat := ((d.buf.drop 2).take (bufByte d 1)).map fun b => b.toNat

/-- First index above 63 or listed before. -/
def zBad : List Nat → List Nat → Nat → Option Nat
  | _, [], _ => none
  | seen, i :: r, o => if 63 < i || seen.contains i then some o else zBad (i :: seen) r (o + 1)

def cmpZlistSetSpec : CmdSpec :=
  { stagedSpec 0x1309 with
    ptr := true
    fields := fun d _ => orBad (orBad (commitBad d) (firstBad
      [(decide (1 < bufByte d 0), inBuf 0), (decide (64 < bufByte d 1), inBuf 1), (ptrLen d != 2 + bufByte d 1, 0x20)]))
      ((zBad [] (zBytes d) 2).map inBuf)
    apply := fun d m =>
      (updStaged (cmpKey d) (fun x => { x with zProg := bufByte d 0 == 1, zList := zBytes d }) m, okReply (cmpState d m)) }

def execCmpZlistSet (d : Desc) (s : State) : Host.Outcome State Fault Refusal := lift (hostRow cmpZlistSetSpec d) s

def cmpLut3dSetSpec : CmdSpec :=
  { stagedSpec 0x130A with
    ptr := true
    bufRsv := fun d _ =>
      orBad (setBits [(2, 255), (3, 255)] d) ((firstOver (2 ^ 30 - 1) (le32s (d.buf.drop 4))).map fun i => 7 + 4 * i)
    fields := fun d _ => orBad (commitBad d) (firstBad
      [(decide (6 < bufByte d 0) && bufByte d 0 != 0xFF, inBuf 0), (decide (1 < bufByte d 1), inBuf 1),
       (ptrLen d != (if bufByte d 0 = 0xFF then 143752 else 4), 0x20)])
    apply := fun d m =>
      (updStaged (cmpKey d) (fun x =>
        { x with lutPreset := bufByte d 0, enc2020 := bufByte d 1 == 1,
                 lut := if bufByte d 0 = 0xFF then le32s (d.buf.drop 4) else [] }) m, okReply (cmpState d m)) }

def execCmpLut3dSet (d : Desc) (s : State) : Host.Outcome State Fault Refusal := lift (hostRow cmpLut3dSetSpec d) s

/-! ## CMP_COMMIT (R257) -/

/-- A commit of the compositor waits for its boundary. -/
def commitPending (m : M) (o : Nat) : Bool := m.pend.any fun p => p.d.opcode == 0x130B && oid p.d == o

/-- The set a commit applies: captured at its execution. -/
def captureSet (d : Desc) (m : M) : M :=
  if payBit d 0 0 || commitPending m (oid d) then m
  else updComp (cmpKey d) (fun c => { c with captured := some c.staged }) m

/-- The checks of R257 in their order, then those of the outputs. -/
def commitFail (k : Nat) (m : M) : Option (Nat × Nat) :=
  match getComp m k with
  | none => some (stConflict, 0)
  | some c =>
    let x := c.captured.getD c.staged
    let buf := cmpWidth m k
    orNext ((cycleLayer m k x).map fun i => (stInvalid, i * 256))
      (orNext ((lineShort buf x).map fun i => (stLineBuf, i))
        (orNext (firstFail [(loadBad (cmpLoad c.format buf (cmpPace m k) x) c.overPace, stResource, 0x06)])
          (orNext (bindFail (newBindings m c x) (unbindAll c (keepsBinding c x) m)) (outputsBad m k x))))

/-- CMP_COMMIT at its window start, `late` when its commit time had passed when it executed; with revert, at once: it has no
boundary, and the spec gives no window number for its record (log 129). -/
def applyCommit (late : Bool) (d : Desc) (m : M) : M × Applied :=
  let k := cmpKey d
  match getComp m k with
  | none => (m, okReply 0)
  | some c =>
    let w := boundaryNo (cmpGrid c) m.dev
    if payBit d 0 0 then
      (draw (updComp k (fun y => { y with staged := y.force }) m),
       .done { reply stOK 0 c.state with plain := some (0, Config.freeNat m.drawn % 2 ^ 64) })
    else
      let x := c.captured.getD c.staged
      let sp := splitLayers (cmpWidth m k) x
      let m1 := applySet k x m
      let beyond := match getComp m1 k with | some y => decide (1000 < y.load) | none => false
      let st := if !sp.isEmpty then stSplit else if beyond then stDegraded else stOK
      let detail := if !sp.isEmpty then sp.length + (sp.headD 0) * 256 else b2n beyond
      (raise 0x1303 5 (cmpOid k) [.u 4 (w % 2 ^ 32), .u 1 (b2n late), .u 4 sp.length] m1,
       .done { reply st detail c.state with plain := some (0, w) })

def cmpCommitSpec : CmdSpec :=
  { cmpSpec 0x130B permMedia [1, 2] with
    mask := mbits 0 1
    onExec := captureSet
    late := fun d m => orFail (dieLate m false (oid d)) (
      if commitPending m (oid d) then some (stBusy, 0)
      else if !(cmpState d m == 1 || cmpState d m == 2) then some (stConflict, 0)
      else if payBit d 0 0 then none
      else commitFail (cmpKey d) m)
    when := fun d m => if payBit d 0 0 then none else cmpWhen d m
    plainNow := fun _ m => some (0, Config.freeNat m.drawn % 2 ^ 64)
    apply := applyCommit false
    applyLate := some (applyCommit true) }

def execCmpCommit (d : Desc) (s : State) : Host.Outcome State Fault Refusal := lift (hostRow cmpCommitSpec d) s

/-! ## The cursor (R256) -/

/-- CMP_CURSOR_SET; not journalled when only the position changes (R264). -/
def applyCursor (d : Desc) (m : M) : M × Applied :=
  let k := cmpKey d
  match getComp m k with
  | none => (m, okReply 0)
  | some c =>
    let n : Cursor := { c.cursor with x := payS d 0 2, y := payS d 2 2, visible := payBit d 4 0, hotX := pay d 5 1, hotY := pay d 6 1 }
    let moved := n.visible == c.cursor.visible && n.hotX == c.cursor.hotX && n.hotY == c.cursor.hotY
    let r := reply stOK 0 c.state
    (updComp k (fun x => { x with cursor := n }) m, if moved then .quiet r else .done r)

def cmpCursorSetSpec : CmdSpec :=
  { cmpSpec 0x130C permMedia [1, 2] with
    mask := mb 0 4 ||| mbits 4 1 ||| mb 5 2
    fields := fun d _ => firstBad [(decide (63 < pay d 5 1), off 5), (decide (63 < pay d 6 1), off 6)]
    apply := applyCursor }

def execCmpCursorSet (d : Desc) (s : State) : Host.Outcome State Fault Refusal := lift (hostRow cmpCursorSetSpec d) s

def cmpCursorImageSpec : CmdSpec :=
  { cmpSpec 0x130D permMedia [1, 2] with
    ptr := true
    fields := fun d _ => firstBad [(ptrLen d != 16384, 0x20)]
    apply := fun d m =>
      (updComp (cmpKey d) (fun c => { c with cursor := { c.cursor with image := d.buf.map fun b => b.toNat } }) m,
       okReply (cmpState d m)) }

def execCmpCursorImage (d : Desc) (s : State) : Host.Outcome State Fault Refusal := lift (hostRow cmpCursorImageSpec d) s

/-! ## CMP_GLYPH_LOAD (R253) -/

/-- Glyphs by their 8-byte entries; the first byte out of range. -/
def readGlyphs (buf : List Byte) (len : Nat) : Nat → Nat → List Byte → Except Nat (List Glyph)
  | 0, _, _ => .ok []
  | n + 1, o, b =>
    let by_ (i : Nat) : Nat := (b.getD i 0).toNat
    let at_ := by_ 5 + 256 * by_ 6 + 65536 * by_ 7
    match firstBad [(by_ 0 == 0 || decide (64 < by_ 0), 0), (by_ 1 == 0 || decide (64 < by_ 1), 1), (decide (64 < by_ 2), 2),
                    (decide (len < at_ + by_ 0 * by_ 1), 5)] with
    | some i => .error (o + i)
    | none => match readGlyphs buf len n (o + 8) (b.drop 8) with
      | .error e => .error e
      | .ok r => .ok ({ w := by_ 0, h := by_ 1, advance := by_ 2, bx := sext 8 (by_ 3), byy := sext 8 (by_ 4),
                        cover := ((buf.drop at_).take (by_ 0 * by_ 1)).map fun x => x.toNat } :: r)

def atlasOf (d : Desc) : Except Nat (List Glyph) := readGlyphs d.buf (ptrLen d) (bufN d 0 2) 2 (d.buf.drop 2)

def cmpGlyphLoadSpec : CmdSpec :=
  { baseSpec 0x130E permMedia with
    ptr := true
    obj := dieObj
    fields := fun d _ => orBad (firstBad
      [(decide (4194304 < ptrLen d), 0x20), (decide (1024 < bufN d 0 2), inBuf 0), (decide (ptrLen d < 2 + 8 * bufN d 0 2), 0x20)])
      (match atlasOf d with
       | .error o => some (inBuf o)
       | .ok _ => none)
    late := fun d m => dieLate m false (oid d)
    apply := fun d m =>
      ({ m with cmp.atlas := tset m.cmp.atlas (oidDie (oid d)) (match atlasOf d with | .ok l => l | .error _ => []) },
       okReply 0xFF) }

def execCmpGlyphLoad (d : Desc) (s : State) : Host.Outcome State Fault Refusal := lift (hostRow cmpGlyphLoadSpec d) s

/-! ## The guarded layer (R258 to R260) -/

/-- The guarded layer a buffer spells. -/
def guardOfBuf (d : Desc) : Guard :=
  { x := bufN d 0 2, y := bufN d 2 2, w := bufN d 4 2, h := bufN d 6 2, alpha := bufN d 8 2, policy := bufByte d 10,
    band := bufByte d 11, bandColour := bufN d 12 4, content := le32s (d.buf.drop 32), crc := 0 }

def guardFields (d : Desc) (m : M) : Option Nat :=
  let g := guardOfBuf d
  let s := match getComp m (cmpKey d) with
    | some c => formatSize c.format
    | none => (8192, 4320)
  firstBad
    [(decide (ptrLen d < 32), 0x20), (decide (s.1 < g.x + g.w), inBuf 0), (decide (s.2 < g.y + g.h), inBuf 2),
     (decide (2097152 < g.w * g.h), inBuf 4), (decide (1024 < g.alpha), inBuf 8), (decide (1 < g.policy), inBuf 10),
     (decide (32 < g.band), inBuf 11), (ptrLen d != 32 + 4 * g.w * g.h, 0x20)]

/-- From its execution on, the commands of Table 11-7 are denied (R259). -/
def guardExec (d : Desc) (m : M) : M :=
  if (dieLate m false (oid d)).isNone && (cmpState d m == 1 || cmpState d m == 2) && decide (m.pend.length < heldMax) then
    updComp (cmpKey d) (fun c => { c with guardSet := true }) m
  else m

def cmpGuardSetSpec : CmdSpec :=
  { cmpSpec 0x130F permCompliance [1, 2] with
    ptr := true
    bufRsv := fun d _ =>
      orBad (setBits ((15, 0xC0) :: (List.range 16).map fun i => (16 + i, 255)) d)
        ((firstOver (2 ^ 31 - 1) (le32s (d.buf.drop 32))).map fun i => 35 + 4 * i)
    fields := guardFields
    onExec := guardExec
    apply := fun d m =>
      let k := cmpKey d
      match getComp m k with
      | none => (m, okReply 0)
      | some c =>
        let g := guardOfBuf d
        let s := formatSize c.format
        (updComp k (fun x => { x with guard := some { g with crc := guardRef g s.1 s.2 }, guardSet := true }) m, okReply c.state) }

def execCmpGuardSet (d : Desc) (s : State) : Host.Outcome State Fault Refusal := lift (hostRow cmpGuardSetSpec d) s

def cmpGuardClearSpec : CmdSpec :=
  { cmpSpec 0x1310 permCompliance [1, 2] with
    apply := fun d m =>
      let again := m.pend.any fun p => p.d.opcode == 0x130F && oid p.d == oid d
      (updComp (cmpKey d) (fun c => { c with guard := none, guardSet := again, good := none }) m, okReply (cmpState d m)) }

def execCmpGuardClear (d : Desc) (s : State) : Host.Outcome State Fault Refusal := lift (hostRow cmpGuardClearSpec d) s

end Sys2Proof.Machine
end

