-- ==== Sys2Proof/Machine/Pixel.lean ====
section
/-!
DEFINITION. What a composed frame looks like, pixel by pixel (R249, R251 to R256, R258): scaling, colour chains, text, meters,
borders, blending, the cursor, the 3D LUT and the encoding matrix, the guarded layer, and chroma for each destination. The
samples of source pictures are free values (assumption 4), as is what the spec leaves to Svetfold's tables.
-/
namespace Sys2Proof.Machine

def clampI (lo hi i : Int) : Nat := (if i < lo then lo else if hi < i then hi else i).toNat

/-! ## Picture layers (R249, R251) -/

/-- Truncated mean of `n` adjacent values. -/
def meanOf (f : Nat → Nat) (n : Nat) : Nat := ((List.range n).map f).sum / n

/-- A decimated sample of a component's plane: horizontally, then vertically. -/
def decimated (d : Drawn) (c x y : Nat) : Nat :=
  let s := chromaStep c d.format
  meanOf (fun j => meanOf (fun i =>
    sampleAt d.format c (d.layer.srcX / s.1 + x * d.layer.h + i) (d.layer.srcY / s.2 + y * d.layer.v + j) d.pix) d.layer.h) d.layer.v

/-- The decimated plane of a component, by rows. -/
def decPlane (d : Drawn) (c : Nat) : List (List Nat) :=
  let s := chromaStep c d.format
  (List.range (d.cropH / s.2 / d.layer.v)).map fun y => (List.range (d.cropW / s.1 / d.layer.h)).map fun x => decimated d c x y

/-- A plane scaled to a width and height by the filters. -/
def scaledPlane (w h : Nat) (p : List (List Nat)) : List (List Nat) :=
  (List.range h).map fun y => (List.range w).map fun x => Config.scaler w h x y p

/-- The decimated component at 4:4:4: chroma planes are upsampled by the same filters. -/
def fullPlane (d : Drawn) (c : Nat) : List (List Nat) :=
  if c = 0 then decPlane d 0 else scaledPlane (d.cropW / d.layer.h) (d.cropH / d.layer.v) (decPlane d c)

/-- The columns of a plane that a strip holds (R250): the left one 0 to w/2 + 3, the right one w/2 − 4 to w − 1, their edge columns
standing for what lies beyond. -/
def stripPlane (left : Bool) (p : List (List Nat)) : List (List Nat) :=
  p.map fun row => (List.range row.length).map fun i =>
    let edge := if left then row.length / 2 + 3 else row.length / 2 - 4
    row.getD (if left == decide (i < edge) then i else edge) 0

/-- What the scaler takes for an output pixel: the plane, or the strip in which the pixel is centred. -/
def planeFor (d : Drawn) (c x : Nat) : List (List Nat) :=
  if d.strips then stripPlane (decide (2 * x + 1 < d.layer.dstW)) (fullPlane d c) else fullPlane d c

/-- A scaled source component at a pixel of the destination, as a 10-bit value; a layer without a picture is mid-grey
(R207, R251). -/
def scaledAt (d : Drawn) (c x y : Nat) : Nat :=
  if d.desc.isSome then
    Config.scaler d.layer.dstW d.layer.dstH x y (planeFor d c x) % sampleTop d.format * (if d.format = 0 then 4 else 1)
  else 512

/-- Identity tables and the BT.709 narrow-range Y′CbCr to full-range R′G′B′ matrix, rounded to Q3.12. -/
def chainReset : Chain :=
  { m := [4783, 0, 7365, 4783, -876, -2189, 4783, 8678, 0], pre := [64, 512, 512], post := [0, 0, 0],
    inLut := List.range 1024 ++ List.range 1024 ++ List.range 1024,
    outLut := List.range 1024 ++ List.range 1024 ++ List.range 1024 }

/-- The matrix of a chain for one component (R251). -/
def matrixOut (ch : Chain) (v : List Nat) (i : Nat) : Nat :=
  let s := ((List.range 3).map fun j => ch.m.getD (3 * i + j) 0 * ((v.getD j 0 : Int) - ch.pre.getD j 0)).sum
  clampI 0 1023 (ch.post.getD i 0 + s.tdiv 4096)

/-- A chain on one pixel. -/
def chainOut (ch : Chain) (v : List Nat) : List Nat :=
  let a := (List.range 3).map fun i => ch.inLut.getD (1024 * i + v.getD i 0) 0
  (List.range 3).map fun i => ch.outLut.getD (1024 * i + matrixOut ch a i) 0

/-! ## Blending (R254) -/

/-- A contribution: premultiplied colour and alpha. -/
structure Ink where
  cp : List Nat
  a : Nat
deriving DecidableEq, Repr

/-- One contribution with a global alpha on a destination. -/
def blend (g : Nat) (d : List Nat) (k : Ink) : List Nat :=
  let as := k.a * g / 1024
  (List.range 3).map fun i =>
    let v := k.cp.getD i 0 * g / 1024 + d.getD i 0 * (1024 - as) / 1024
    if v < 1023 then v else 1023

/-- The three components of a packed working-space colour. -/
def unpack (c : Nat) : List Nat := [bits c 0 10, bits c 10 10, bits c 20 10]

/-- A colour with an alpha, premultiplied. -/
def inkOf (c a : Nat) : Ink := { cp := (unpack c).map fun v => v * a / 1024, a := a }

/-! ## Text, meters and borders (R253) -/

/-- Left edge, top edge and glyph of each glyph of a run, its pen moving by the advances. -/
def placeGlyphs (atlas : List Glyph) : Int → Int → List Nat → List (Int × Int × Glyph)
  | _, _, [] => []
  | x, y, n :: r => match atlas[n]? with
    | some g => (x + g.bx, y - g.byy, g) :: placeGlyphs atlas (x + g.advance) y r
    | none => placeGlyphs atlas x y r

/-- Coverage of a placed glyph at a pixel. -/
def coverAt (p : Int × Int × Glyph) (x y : Int) : Nat :=
  let i := x - p.1
  let j := y - p.2.1
  if 0 ≤ i && decide (i < p.2.2.w) && decide (0 ≤ j) && decide (j < p.2.2.h) then p.2.2.cover.getD (j.toNat * p.2.2.w + i.toNat) 0 else 0

/-- The box of a run: the rectangle of its glyphs, padded by 2 pixels. -/
def inBox (ps : List (Int × Int × Glyph)) (x y : Int) : Bool :=
  ps.any (fun p => decide (p.1 - 2 ≤ x)) && ps.any (fun p => decide (x < p.1 + p.2.2.w + 2)) &&
  ps.any (fun p => decide (p.2.1 - 2 ≤ y)) && ps.any (fun p => decide (y < p.2.1 + p.2.2.h + 2))

def colourAt (st : Style) (i : Nat) : Nat := st.colours.getD i 0

/-- What a run draws at a pixel: its box, then its glyphs. -/
def runInks (st : Style) (atlas : List Glyph) (px py : Int) (gs : List Nat) (x y : Int) : List Ink :=
  let ps := placeGlyphs atlas px py gs
  (if st.p0 ≠ 0 && inBox ps x y then [inkOf (colourAt st 1) st.p0.toNat] else []) ++
  (ps.filterMap fun p => let c := coverAt p x y; if c = 0 then none else some (inkOf (colourAt st 0) (c * 1024 / 255)))

/-- Colour of a filled position of a bar by the level it stands for. -/
def barColour (st : Style) (level : Int) : Nat :=
  if level < st.p0 then colourAt st 0 else if level < st.p1 then colourAt st 1 else colourAt st 2

/-- Pixels of a length that a value fills: (value − floor) / (0 − floor), held to 0 and 1. -/
def barFill (st : Style) (len : Nat) (v : Int) : Nat :=
  let f := if v < st.p2 then 0 else if 0 < v then -st.p2 else v - st.p2
  ((len : Int) * f / (-st.p2)).toNat

/-- What a bar draws at an offset of its rectangle: a horizontal bar fills from the left, a vertical one from below. -/
def barInks (st : Style) (w h flags : Nat) (s : Int × Int) (i j : Nat) : List Ink :=
  let len := if bit flags 0 then h else w
  let pos := if bit flags 0 then h - 1 - j else i
  let level := st.p2 + -st.p2 * (pos : Int) / (len : Int)
  let top := barFill st len s.2
  let line := bit flags 2 && decide (top ≤ pos + 2) && decide (pos < top)
  if line || decide (pos < barFill st len s.1) then [inkOf (barColour st level) 1024] else []

/-- What an item draws at a pixel of its layer's rectangle, with what it sampled. -/
def itemInks (st : Style) (atlas : List Glyph) (s : Int × Int) (x y : Int) : StyleItem → List Ink
  | .run px py gs => runInks st atlas px py gs x y
  | .bar bx by_ w h _ _ _ flags =>
    if bx ≤ x && decide (x < bx + w) && decide (by_ ≤ y) && decide (y < by_ + h) then
      barInks st w h flags s (x - bx).toNat (y - by_).toNat else []
  | .outline bx by_ w h width _ _ =>
    let inside := bx ≤ x && decide (x < bx + w) && decide (by_ ≤ y) && decide (y < by_ + h)
    let core := bx + width ≤ x && decide (x < bx + w - width) && decide (by_ + width ≤ y) && decide (y < by_ + h - width)
    if inside && !core then [inkOf (colourAt st s.1.toNat) 1024] else []

/-! ## A frame -/

/-- What a drawn layer contributes at an output pixel, lowest first. -/
def layerInks (f : CFrame) (d : Drawn) (x y : Nat) : List Ink :=
  let i := (x : Int) - d.layer.dstX
  let j := (y : Int) - d.layer.dstY
  if i < 0 || decide (d.layer.dstW ≤ i.toNat) || decide (j < 0) || decide (d.layer.dstH ≤ j.toNat) then []
  else if d.layer.kind = 1 then
    let v := (List.range 3).map fun c => scaledAt d c i.toNat j.toNat
    [{ cp := chainOut (d.layer.chain.getD chainReset) v, a := 1024 }]
  else match d.layer.style with
    | some st => (st.items.zip d.samples).flatMap fun p => itemInks st f.atlas p.2 i j p.1
    | none => []

/-- Background and layers (R254). -/
def layersAt (f : CFrame) (x y : Nat) : List Nat :=
  f.drawn.foldl (fun a d => (layerInks f d x y).foldl (blend d.layer.alpha) a) (unpack f.background)

/-- The cursor at a pixel: hidden over guarded positions (R255, R256). -/
def cursorInk (f : CFrame) (x y : Nat) : Option Ink :=
  let s := formatSize f.format
  match f.cursor with
  | none => none
  | some c =>
    let i := (x : Int) - (c.x - c.hotX)
    let j := (y : Int) - (c.y - c.hotY)
    let covered := match f.guard with
      | some g => guardCovers g s.1 s.2 x y
      | none => false
    if covered || decide (i < 0) || decide (63 < i) || decide (j < 0) || decide (63 < j) then none
    else
      let at_ (o : Nat) : Nat := c.image.getD (4 * (j.toNat * 64 + i.toNat) + o) 0
      let a := at_ 0 * 1024 / 255
      some { cp := [1, 2, 3].map fun o => (at_ o * 4 + at_ o / 64) * a / 1024, a := a }

/-- An entry of the 3D LUT, as three components. -/
def lutEntry (f : CFrame) (r g b : Nat) : List Nat :=
  let n := (b * 33 + g) * 33 + r
  if f.lutPreset = 0xFF then unpack (f.lut.getD n 0)
  else (List.range 3).map fun c => Config.lutPreset f.lutPreset n c % 1024

/-- A whole number from a rational, with the rounding the spec leaves open. -/
def roundQ (q : Rat) : Int :=
  let k : Nat := Config.roundTerm % 1000
  (q + (k : Rat) / 1000).floor

/-- Tetrahedral interpolation: from the corner below, along the axes in falling order of their fractions. -/
def tetra (f : CFrame) (v : List Nat) : List Nat :=
  let base : List Nat := v.map fun c => c * 32 / 1023
  let frac : List Nat := v.map fun c => c * 32 % 1023
  let up (p : List Nat) (i : Nat) : List Nat := p.set i (let n := p.getD i 0 + 1; if n < 32 then n else 32)
  let order := (List.range 3).mergeSort fun i j => decide (frac.getD j 0 ≤ frac.getD i 0)
  let at_ (p : List Nat) (c : Nat) : Rat :=
    let e : Nat := (lutEntry f (p.getD 0 0) (p.getD 1 0) (p.getD 2 0)).getD c 0
    (e : Rat)
  (List.range 3).map fun c =>
    let step (a : List Nat × Rat) (i : Nat) : List Nat × Rat :=
      let p := up a.1 i
      let u : Nat := frac.getD i 0
      (p, a.2 + (at_ p c - at_ a.1 c) * (u : Rat) / 1023)
    clampI 0 1023 (roundQ (order.foldl step (base, at_ base c)).2)

/-- Preset 0 is the identity. -/
def lutOut (f : CFrame) (v : List Nat) : List Nat := if f.lutPreset = 0 then v else tetra f v

/-- Narrow-range 10-bit Y′CbCr by BT.709 or BT.2020 non-constant luminance, held to 4 to 1,019 (R252). -/
def encodeYcc (bt2020 : Bool) (v : List Nat) : List Nat :=
  let part (i : Nat) : Rat :=
    let n : Nat := v.getD i 0
    (n : Rat)
  let r := part 0
  let g := part 1
  let b := part 2
  let kr : Rat := if bt2020 then 2627 / 10000 else 2126 / 10000
  let kb : Rat := if bt2020 then 593 / 10000 else 722 / 10000
  let y := kr * r + (1 - kr - kb) * g + kb * b
  [64 + 876 * y / 1023, 512 + 896 * (b - y) / (2 * (1 - kb)) / 1023, 512 + 896 * (r - y) / (2 * (1 - kr)) / 1023].map fun q =>
    clampI 4 1019 (roundQ q)

/-- The guarded layer on an encoded pixel (R258, R260). -/
def guardOn (f : CFrame) (x y : Nat) (v : List Nat) : List Nat :=
  match f.guard with
  | none => v
  | some g => match guardAt g (formatSize f.format).1 (formatSize f.format).2 x y with
    | some p => blend g.alpha v { cp := unpack p, a := 1024 }
    | none => v

/-- A pixel of a frame before its chroma is subsampled: 10-bit Y′, Cb, Cr (R255, stages 1 to 3). -/
def framePixel (f : CFrame) (x y : Nat) : List Nat :=
  let a := layersAt f x y
  let b := match cursorInk f x y with
    | some k => blend 1024 a k
    | none => a
  guardOn f x y (encodeYcc f.enc2020 (lutOut f b))

/-- The 4:2:2 chroma sample at an even `x`: component 1 or 2, edge samples repeated. -/
def chroma422 (f : CFrame) (c x y : Nat) : Nat :=
  let w := (formatSize f.format).1
  let at_ (i : Nat) : Nat := (framePixel f i y).getD c 0
  (at_ (x - 1) + 2 * at_ x + at_ (if x + 1 < w then x + 1 else w - 1)) / 4

/-- The 4:2:0 chroma sample of row `y`: the truncated mean of rows 2y and 2y + 1 of the 4:2:2 result. -/
def chroma420 (f : CFrame) (c x y : Nat) : Nat := (chroma422 f c x (2 * y) + chroma422 f c x (2 * y + 1)) / 2

/-- A value for an 8-bit destination. -/
def to8 (v : Nat) : Nat := v / 4

end Sys2Proof.Machine
end

