-- ==== Sys2Proof/Machine/Enc.lean ====
section
/-!
DEFINITION. The encode contexts (chapter 12): layers, sources, key frames and switching points, rate control by block row, the
end of a frame, and the ENC commands.
-/
namespace Sys2Proof.Machine

/-! ## Accessors -/

def encOid (k : Nat) : Nat := mkOid 0xB (keyDie k) (keyIdx k)
def encGrid (e : Enc) : Boundary := .video e.num e.den

/-- Rows of a layer of a height (R269). -/
def rowHeight (codec : Nat) : Nat := if codec = 16 then 16 else 64
def rowCount (codec h : Nat) : Nat := cdiv h (rowHeight codec)

def encSize (e : Enc) (l : Nat) : Nat × Nat := layerSize e.width e.height e.s l

/-- Luma samples of rows `r` on of a layer. -/
def rowsLuma (e : Enc) (l r : Nat) : Nat :=
  let s := encSize e l
  s.1 * (s.2 - (if r * rowHeight e.codec < s.2 then r * rowHeight e.codec else s.2))

/-- First row of the odd engine's half of a layer on a compound pair (R288). -/
def seamRow (e : Enc) (l : Nat) : Nat := cdiv (rowCount e.codec (encSize e l).2) 2

/-- Rows of a layer that an engine codes: all of them, or its half on a pair. -/
def ownRows (e : Enc) (pair odd : Bool) (l : Nat) : Nat × Nat :=
  let n := rowCount e.codec (encSize e l).2
  if !pair then (0, n) else if odd then (seamRow e l, n) else (0, seamRow e l)

/-- Luma samples of rows `a` to `b` − 1 of a layer. -/
def spanLuma (e : Enc) (l a b : Nat) : Nat := rowsLuma e l a - rowsLuma e l b

/-- Temporal id of a frame by its position (R267). -/
def temporalId (t f : Nat) : Nat :=
  if t = 1 then 0 else if t = 2 then f % 2 else if f % 2 = 1 then 2 else if f % 4 = 2 then 1 else 0

/-! ## Reservations (R276) -/

/-- Descriptors and KiB on the context's die. -/
def encReserve (e : Enc) : Nat × Nat :=
  let wide := if bit e.format 0 then 2 else 1
  (e.s * (e.maxRefs + 1),
   ((List.range e.s).map fun l =>
      let s := encSize e l
      (e.maxRefs + 1) * tileKib s.1 s.2 (bufFormat e.format) + cdiv (s.1 * s.2 * wide * 5 / 16) 1024).sum)

/-- Die and KiB of the input binding. -/
def encNeed (m : M) (src : Nat) : Nat × Nat :=
  if oidCls src = 0xD then
    (oidDie src, match getComp m (oidKey src) with
      | some c => tileKib (formatSize c.format).1 (formatSize c.format).2 (feedFormat c.feed)
      | none => 0)
  else bindNeed m src

/-! ## Budgets and debt (R283, R286) -/

/-- Nominal budget of a layer's frame, without and with the key factor. -/
def nominal (e : Enc) (r : EncRate) (l t : Nat) : Nat := r.targets.getD l 0 * 1000 * e.den * r.weights.getD t 1000 / (e.num * 1000)
def nominalKey (e : Enc) (r : EncRate) (l t : Nat) (key : Bool) : Nat :=
  if key then nominal e r l t * r.kf / 1000 else nominal e r l t

/-- The budget of a frame, and the debt and count after it is set: a rest of debt at count 0 is dropped. -/
def takeBudget (bn : Nat) (x : EncLayer) : Nat × EncLayer × Nat :=
  if x.n = 0 || x.debt = 0 then (bn, { x with n := x.n - 1 }, 0)
  else
    let low := bn - cdiv x.debt x.n
    let b := if low < bn / 4 then bn / 4 else low
    let d := x.debt - (bn - b)
    if x.n = 1 then (b, { x with debt := 0, n := 0 }, d) else (b, { x with debt := d, n := x.n - 1 }, 0)

/-- Bits above the budget, or above the nominal budget of a key frame, become debt. -/
def addDebt (beyond carry : Nat) (x : EncLayer) : EncLayer := if beyond = 0 then x else { x with debt := x.debt + beyond, n := carry }

/-! ## Rows (R284, R285, R287) -/

/-- QP steps per doubling of bits, and the QP of one unit. -/
def qpPerDouble (codec : Nat) : Nat := if codec = 18 then 24 else 6
def qpUnit (codec : Nat) : Nat := if codec = 18 then 4 else 1

/-- Table 12-3. -/
def rowStep (e : Nat) : Int :=
  if e < 500 then -2 else if e < 875 then -1 else if e < 1125 then 0 else if e < 1500 then 1 else if e < 2000 then 2 else 3

def clampZ (lo hi i : Int) : Int := if i < lo then lo else if hi < i then hi else i

/-- trunc(a / b × 2^(−d / k)). -/
def halved (a b d k : Nat) : Nat := largest (fun n => decide (n ^ k * b ^ k * 2 ^ d ≤ a ^ k)) 64 0 (a / b)

/-- What the row procedure keeps between rows. `last`: bits, complexity and QP of the last row coded; `frozen`: first frozen
row and whether pace froze it. -/
structure RowRun where
  spent : Nat
  qp : Int
  e : Option Nat
  last : Option (Nat × Nat × Nat)
  first : Option Nat
  frozen : Option (Nat × Bool)
  rows : Nat
deriving DecidableEq, Repr

/-- The settings of a run: QP range, step limit, overspend limit, first QP, budget, codec. -/
structure RowSet where
  qpMin : Nat
  qpMax : Nat
  dqp : Nat
  limit : Nat
  qpFirst : Nat
  budget : Nat
  codec : Nat
deriving DecidableEq, Repr

/-- Projected bits of the rows that are left once the budget is spent. -/
def projected (s : RowSet) (x : RowRun) (rest : List RowIn) : Nat :=
  match x.last with
  | none => x.spent
  | some (b, c, q) => x.spent + (rest.map fun r => halved (b * r.c) c (s.qpMax - q) (qpPerDouble s.codec)).sum

/-- Freeze a row. -/
def freezeRow (i : Nat) (pace : Bool) (r : RowIn) (x : RowRun) : RowRun :=
  { x with spent := x.spent + r.skip, frozen := some (x.frozen.getD (i, pace)), rows := x.rows + 1 }

/-- Code a row at a QP. -/
def codeRow (q : Int) (b : Option Nat) (r : RowIn) (x : RowRun) : RowRun :=
  { x with spent := x.spent + r.bits, qp := q, e := b.map fun n => if n = 0 then 2000 else r.bits * 1000 / n,
           last := some (r.bits, r.c, q.toNat), first := some (x.first.getD q.toNat) }

/-- The row procedure over the rows that are left; `pace i r` says that the completion is predicted too late. -/
def codeRows (s : RowSet) (pace : Nat → RowIn → Bool) : Nat → List RowIn → RowRun → RowRun
  | _, [], x => x
  | i, r :: rest, x =>
    if x.frozen.isSome then codeRows s pace (i + 1) rest (freezeRow i false r x)
    else if pace i r then codeRows s pace (i + 1) rest (freezeRow i true r x)
    else if s.budget ≤ x.spent then
      if s.budget * s.limit < (projected s x (r :: rest) - s.budget) * 1000 then
        codeRows s pace (i + 1) rest (freezeRow i false r x)
      else codeRows s pace (i + 1) rest (codeRow s.qpMax none r x)
    else
      let total := ((r :: rest).map RowIn.c).sum
      let b := if total = 0 then 0 else (s.budget - x.spent) * r.c / total
      let q : Int := match x.last with
        | none => s.qpFirst
        | some _ => x.qp + qpUnit s.codec * clampZ (-s.dqp) s.dqp (match x.e with | some e => rowStep e | none => 0)
      codeRows s pace (i + 1) rest (codeRow (clampZ s.qpMin s.qpMax q) (some b) r x)

def rowRun0 : RowRun := { spent := 0, qp := 0, e := none, last := none, first := none, frozen := none, rows := 0 }

/-! ## A layer of a frame -/

/-- How a frame's layers went so far: per half (R288), samples coded and whether a pace freeze has reached it; freezes as
(layer, row, pace). -/
structure FrameRun where
  coded0 : Nat
  coded1 : Nat
  stop0 : Bool
  stop1 : Bool
  freezes : List (Nat × Nat × Bool)
  rows : Nat
  qpLast : Nat
  /-- bits by layer -/
  bits : List Nat
  dropped : Nat
  beyond : Nat
  layers : List EncLayer
deriving DecidableEq, Repr

/-- The first-row QP (R284): from the last frame of the kind, stepped by its bits per mille of its budget. -/
def qpFirst (r : EncRate) (codec : Nat) (mem : Option QpMem) : Nat :=
  match mem with
  | none => r.qpInit
  | some q =>
    let e := if q.budget = 0 then 2000 else q.bits * 1000 / q.budget
    (clampZ r.qpMin r.qpMax (q.qp + qpUnit codec * clampZ (-r.dqp) r.dqp (rowStep e))).toNat

/-- The prediction of R287 for a row: samples left, pace so far or the meter's. -/
def paceLate (meter deadline coded left : Nat) (r : RowIn) : Bool :=
  if coded = 0 || r.busy = 0 then decide (deadline * meter < (r.now + 50000) * meter + left * 1000)
  else decide (deadline * coded < (r.now + 50000) * coded + left * r.busy)

/-- Pace of an engine by its meter, 300 Msample/s when that reads 0. -/
def enginePace (m : M) (die e : Nat) : Nat :=
  let p := (tget m.pace.pace (paceKey die e) (0, 0)).1
  if p = 0 then 300 else p

/-- Luma that an engine codes of the layers above one. -/
def higherLuma (e : Enc) (pair odd : Bool) (l : Nat) : Nat :=
  ((List.range e.s).map fun x => if l < x then spanLuma e x (ownRows e pair odd x).1 (ownRows e pair odd x).2 else 0).sum

/-- What a layer's coding needs of its context and job: the paces are those of its engine, and of the odd one of a pair. -/
structure LayerArg where
  e : Enc
  j : EncJob
  meter : Nat
  meter1 : Nat
  /-- this part follows: pace freezes are the leading part's -/
  follow : Bool
  pair : Bool
deriving DecidableEq, Repr

/-- The rows of a layer that one engine codes, with its share of the budget; `stop`: frozen from its first row. -/
def codeHalf (a : LayerArg) (odd : Bool) (l coded budget first : Nat) (stop : Bool) (rows : List RowIn) : RowRun :=
  let s : RowSet :=
    { qpMin := a.j.rate.qpMin, qpMax := a.j.rate.qpMax, dqp := a.j.rate.dqp, limit := a.j.rate.limit, qpFirst := first,
      budget := budget, codec := a.e.codec }
  let own := ownRows a.e a.pair odd l
  let pace (i : Nat) (r : RowIn) : Bool :=
    if stop then true
    else if a.follow then a.e.freezeAt.any fun f => f.1 == l && decide (own.1 ≤ f.2) && decide (f.2 ≤ i)
    else paceLate (if odd then a.meter1 else a.meter) a.j.deadline (coded + spanLuma a.e l own.1 i)
      (spanLuma a.e l i own.2 + higherLuma a.e a.pair odd l) r
  codeRows s pace own.1 rows rowRun0

/-- One spatial layer of a frame: its budget from R283 and R286, its rows in one run or in two halves (R288), its debt. -/
def codeLayer (a : LayerArg) (l : Nat) (rows : List RowIn) (x : FrameRun) : FrameRun :=
  let r := a.j.rate
  let t := a.j.t
  let st := a.e.layers.getD l { debt := 0, n := 0, lastBits := 0, lastBudget := 0, mem := [] }
  let bn := nominal a.e r l t
  let tb := takeBudget (nominalKey a.e r l t a.j.key) st
  let kind := t * 2 + b2n a.j.key
  let first := qpFirst r a.e.codec (tget? st.mem kind)
  let half := if a.pair then seamRow a.e l else rows.length
  let r0 := rows.take half
  let r1 := rows.drop half
  let c0 := (r0.map RowIn.c).sum
  let ct := (rows.map RowIn.c).sum
  let b0 := if a.pair && ct != 0 then tb.1 * c0 / ct else tb.1
  let skip (q : List RowIn) : RowRun := { rowRun0 with spent := (q.map RowIn.skip).sum }
  let h0 := if a.j.skip then skip r0 else codeHalf a false l x.coded0 b0 first x.stop0 r0
  let h1 := if a.j.skip then skip r1 else if r1.isEmpty then rowRun0 else codeHalf a true l x.coded1 (tb.1 - b0) first x.stop1 r1
  let spent := h0.spent + h1.spent
  let beyond := spent - (if a.j.key && decide (bn < tb.1) then bn else tb.1)
  let mem := match h0.first with
    | some q => tset st.mem kind { qp := q, bits := spent, budget := tb.1 }
    | none => st.mem
  let st1 := addDebt beyond r.carry { tb.2.1 with lastBits := spent, lastBudget := tb.1, mem := mem }
  let fz (h : RowRun) : List (Nat × Nat × Bool) := match h.frozen with
    | some f => [(l, f.1, f.2)]
    | none => []
  let byPace (h : RowRun) : Bool := match h.frozen with
    | some f => f.2
    | none => false
  let q1 := match (if r1.isEmpty then h0.last else h1.last) with
    | some q => q.2.2
    | none => x.qpLast
  { coded0 := x.coded0 + spanLuma a.e l (ownRows a.e a.pair false l).1 (ownRows a.e a.pair false l).2,
    coded1 := x.coded1 + spanLuma a.e l (ownRows a.e a.pair true l).1 (ownRows a.e a.pair true l).2, stop0 := x.stop0 || byPace h0, stop1 := x.stop1 || byPace h1,
    freezes := x.freezes ++ fz h0 ++ fz h1, rows := x.rows + h0.rows + h1.rows, qpLast := q1, bits := x.bits ++ [spent],
    dropped := x.dropped + tb.2.2, beyond := x.beyond + b2n (decide (tb.1 < spent)), layers := x.layers ++ [st1] }

/-- Every layer in ascending order (R275). -/
def codeLayers (a : LayerArg) : Nat → List (List RowIn) → FrameRun → FrameRun
  | _, [], x => x
  | l, r :: rest, x => codeLayers a (l + 1) rest (codeLayer a l r x)

/-! ## Reference pictures (R267, R276, R278) -/

/-- Take a descriptor for a reconstructed picture. -/
def encBuf (k w h fmt : Nat) (m : M) : Option Nat × M :=
  match freeDesc m (keyDie k) with
  | some n =>
    (some n, addBuf (keyDie k) n { plainBuf w h fmt m.drawn with out := false, encRef := 1 } (draw m))
  | none => (none, m)

def dropRefs (k : Nat) (l : List Nat) (m : M) : M := l.foldl (fun x n => encDrop (keyDie k, n) x) m

/-- The reconstruction of a layer joins its reference set, newest first; a key frame empties the set before it, and a frame
that no later frame refers to stays out. -/
def keepRef (k l : Nat) (fresh keep : Bool) (m : M) : M :=
  match getEnc m k with
  | none => m
  | some e =>
    let old := e.refs.getD l []
    let m1 := if fresh then dropRefs k old m else m
    let base := if fresh then [] else old
    if !keep then updEnc k (fun x => { x with refs := x.refs.set l base }) m1
    else
      let s := encSize e l
      let b := encBuf k s.1 s.2 (bufFormat e.format) m1
      let all := (match b.1 with | some n => [n] | none => []) ++ base
      dropRefs k (all.drop e.maxRefs) (updEnc k (fun x => { x with refs := x.refs.set l (all.take e.maxRefs) }) b.2)

/-- Every reference of a context is given back. -/
def clearEncRefs (k : Nat) (m : M) : M :=
  match getEnc m k with
  | none => m
  | some e => dropRefs k e.refs.flatten (updEnc k (fun x => { x with refs := List.replicate x.s [] }) m)

/-! ## The end of a frame (R279) -/

/-- The context becomes ABSENT: its source, references, reservations and send stream are released. -/
def encGone (k : Nat) (m : M) : M :=
  match getEnc m k with
  | none => m
  | some e =>
    let m0 := match e.job.bind EncJob.src with
      | some p => encDrop p m
      | none => m
    let m1 := clearEncRefs k m0
    let m2 := unreserve e.srcRes.1 1 e.srcRes.2 (unreserve (keyDie k) e.reserved.1 e.reserved.2 m1)
    let m3 := if (match getSend m2 e.send with | some s => s.feeder == some (encOid k) | none => false) then sendState e.send 1 0 m2 else m2
    disown (encOid k) { m3 with enc.encs := tdel m3.enc.encs k }

/-- RTP timestamp of a window start at 90 kHz. -/
def encTs (e : Enc) (w : Nat) : Nat := w * e.den * 90000 / e.num % 2 ^ 32

/-- The access units of a frame go to its send stream, one for each layer. -/
def handFrame (e : Enc) (j : EncJob) (bits : List Nat) (m : M) : M :=
  bits.zipIdx.foldl (fun x b =>
    let sw := match j.switch with
      | some s => decide (s ≤ b.2)
      | none => false
    handUnit e.send (encTs e j.window) (cdiv b.1 8) b.2 j.t j.window j.key (j.key || sw)
      (b.2 + 1 == bits.length) x) m

/-- EV_ENC_FROZEN, at most once per context per second. -/
def frozenEvent (k : Nat) (f : Nat × Nat × Bool) (w : Nat) (m : M) : M :=
  limited { ev := 0x1402, i := encOid k, j := 0 } nsPerS
    (raise 0x1402 3 (encOid k) [.u 2 (keyIdx k), .u 1 (b2n f.2.2), .u 1 f.1, .u 4 f.2.1, .u 4 (w % 2 ^ 32)]) m

/-- What a completed frame leaves in its context. -/
def frameCounts (k : Nat) (e : Enc) (j : EncJob) (x : FrameRun) (m : M) : M :=
  let unit := ctxEngine (keyIdx k)
  let m1 := countEnc k 0 1 (countEnc k 3 x.rows (countEnc k 8 x.dropped (countEnc k 9 x.beyond (if j.key then countEnc k 4 1 m else m))))
  let m2 := reportSlack (keyDie k) unit ((j.deadline : Int) - m.dev) (winLen (encGrid e) j.window) m1
  match x.freezes with
  | [] => m2
  | f :: _ =>
    let paced := x.freezes.filter fun g => g.2.2
    let pair := codPaired m (keyDie k) unit
    let halves : List (Option (Nat × Nat × Bool)) :=
      if pair then [paced.find? fun g => decide (g.2.1 < seamRow e g.1), paced.find? fun g => decide (seamRow e g.1 ≤ g.2.1)]
      else [paced.head?]
    let m3 := (halves.filterMap id).foldl (fun y g => noteOut (.encFreeze k g.1 g.2.1) y) m2
    countUnit (keyDie k) unit (countEnc k (if f.2.2 then 2 else 1) 1 (frozenEvent k f j.window m3))

/-- A frame ends: its access units are handed on, its debt and references follow, and its engine is free if the frame ran
on it. -/
def encFinish (k : Nat) (rows : List (List RowIn)) (m : M) : M :=
  match getEnc m k with
  | none => m
  | some e => match e.job with
    | none => m
    | some j =>
      let a : LayerArg :=
        { e := e, j := j, meter := enginePace m (keyDie k) (ctxEngine (keyIdx k)),
          meter1 := enginePace m (keyDie k) (ctxEngine (keyIdx k) + 1), follow := m.pair.role == 3,
          pair := codPaired m (keyDie k) (ctxEngine (keyIdx k)) }
      let x := codeLayers a 0 ((List.range e.s).map fun l => (rows.getD l []).take (rowCount e.codec (encSize e l).2))
        { coded0 := 0, coded1 := 0, stop0 := false, stop1 := false, freezes := [], rows := 0, qpLast := e.qpLast, bits := [], dropped := 0, beyond := 0,
          layers := [] }
      let m1 := match j.src with
        | some p => encDrop p m
        | none => m
      let leave (y : M) : M := if onEngine m k then engineFree k y else y
      if j.discard then leave (encGone k (updEnc k (fun y => { y with job := none }) m1))
      else
        let m2 := handFrame e j x.bits (frameCounts k e j x m1)
        let m3 := updEnc k (fun y =>
          { y with job := none, layers := x.layers, qpLast := x.qpLast, lastFrozen := !x.freezes.isEmpty,
                   paceCause := match x.freezes with | f :: _ => f.2.2 | [] => false, freezeAt := [] }) m2
        let keep := e.t == 1 || decide (j.t + 1 < e.t)
        let m4 := (List.range e.s).foldl (fun y l => keepRef k l j.key keep y) m3
        leave (if e.state = 1 then clearEncRefs k m4 else m4)

/-- Rows of a frame none of which was coded: each frozen, for bits the spec does not state. -/
def freeRows (e : Enc) (m : M) : List (List RowIn) :=
  (List.range e.s).map fun l => (List.range (rowCount e.codec (encSize e l).2)).map fun i =>
    { c := 1, bits := 0, skip := Config.freeNat (m.drawn + l * 1024 + i) % 4096, now := m.dev, busy := 0 }

/-- The deadline strobe of an encode context (R48): a frame still not complete ends with all its rows frozen for pace. -/
def encStrobe (k : Nat) (m : M) : M :=
  match getEnc m k with
  | none => m
  | some e => match e.job with
    | some j =>
      if j.deadline ≤ m.dev then
        noteOut (.encLate k) (encFinish k (freeRows e m) { m with drawn := m.drawn + 4096 })
      else m
    | none => m

/-- ENCODE_FRAME_COMPLETE: the frame on the engine is coded. At or after its deadline the strobe has won (R47, R57). -/
def encodeComplete (die idx : Nat) (rows : List (List RowIn)) (m : M) : M :=
  let k := mkKey die idx
  if !onEngine m k then m
  else match getEnc m k with
    | none => m
    | some e => match e.job with
      | some j => if j.deadline ≤ m.dev then encStrobe k m else encFinish k rows m
      | none => m

def execEncodeFrameComplete (die idx : Nat) (rows : List (List RowIn)) (s : State) : Host.Outcome State Fault Refusal :=
  lift (encodeComplete die idx rows) s

/-! ## Windows (R278, R281, R282) -/

/-- The picture a source gives now: descriptor with its die, its size, and whether it is flagged late. -/
def encPic (m : M) (src : Nat) : Option ((Nat × Nat) × Nat × Nat × Bool) :=
  if oidCls src = 0xD then
    (getComp m (oidKey src)).bind fun c => c.feedNow.bind fun n =>
      (getBuf m (oidDie src) n).map fun b => ((oidDie src, n), b.width, b.height, c.shown.late)
  else (sourcePic m src).map fun p => ((oidDie src, p.1), p.2.1, p.2.2.1, false)

/-- The source's fault with its event (R278), once until it ends. -/
def encFault (k : Nat) (e : Enc) (absent wrong : Bool) (m : M) : M :=
  let m1 := if absent || wrong then countEnc k 7 1 m else m
  let m2 := if absent && !e.absentRaised then raise 0x1401 2 (encOid k) [.u 2 (keyIdx k), .u 1 0] m1 else m1
  let m3 := if wrong && !e.sizeRaised then raise 0x1401 2 (encOid k) [.u 2 (keyIdx k), .u 1 1] m2 else m2
  updEnc k (fun x => { x with absentRaised := absent, sizeRaised := if absent then x.sizeRaised else wrong }) m3

/-- A pending request may be served by a frame that starts now. -/
def reqDue (e : Enc) (r : KeyReq) (now : Nat) : Bool :=
  r.force || (match e.lastKey with
    | some t => decide (t + e.mergeMs * 1000000 ≤ now)
    | none => true)

/-- A key frame by interval or at the start; and by request. -/
def keyDue (e : Enc) : Bool := e.frames == 0 || (e.keyInt != 0 && decide (e.keyInt ≤ e.f + 1))

def lowestOpt (a b : Option Nat) : Option Nat := match a, b with
  | some x, some y => some (if x < y then x else y)
  | some x, none => some x
  | none, y => y

/-- The settings of a frame that starts: a new ENC_RATE_SET, with its restart. -/
def takeRate (e : Enc) : Enc :=
  match e.rateNext with
  | none => e
  | some (r, restart) =>
    let clear (x : EncLayer) : EncLayer := if restart then { x with debt := 0, n := 0, mem := [] } else x
    { e with rate := some r, rateNext := none, layers := e.layers.map clear }

/-- A window of an encode context starts: a frame left over ends, and the next takes its source. -/
def encWindow (k : Nat) (m : M) : M :=
  match getEnc m k with
  | none => m
  | some e0 =>
    match (if e0.state = 2 then winOpen (encGrid e0) e0.window m else none) with
    | none => m
    | some w =>
      let g := encGrid e0
      let mA := if e0.job.isSome then noteOut (.encLate k) (encFinish k (freeRows e0 m) { m with drawn := m.drawn + 4096 }) else m
      let m1 := sourceStart e0.source (updEnc k takeRate mA)
      match getEnc m1 k with
      | none => m1
      | some e => match e.rate with
        | none => m1
        | some rate =>
          let pic := encPic m1 e.source
          let wrong := match pic with
            | some p => p.2.1 != e.width || p.2.2.1 != e.height
            | none => false
          let served := match e.req with
            | some r => if reqDue e r m.vault.mono then some r else none
            | none => none
          let key := keyDue e || (match served with | some r => r.scope == 0 | none => false)
          let byReq := match served with
            | some r => if r.scope = 1 then some r.s else none
            | none => none
          let bySw := if e.swInt ≠ 0 && (e.f + 1) % e.swInt = 0 && 1 < e.s then some 1 else none
          let sw := if key then some 0 else lowestOpt byReq bySw
          let done := served.isSome || (key && e.req.isSome)
          let desc := pic.map fun p => p.1
          let repeated := desc.isSome && desc == e.lastSrc
          let skip := !key && (pic.isNone || wrong || (repeated && !e.lastFrozen))
          let m2 := encFault k e pic.isNone wrong m1
          let m3 := if skip && repeated && !wrong then countEnc k 6 1 m2 else m2
          let m4 := match desc with
            | some p => noteOut (.encSource k p.1 p.2) (encHold p m3)
            | none => m3
          let m5 := match e.req with
            | some r => if done then
                raise 0x1404 5 (encOid k) [.u 2 (keyIdx k), .u 1 r.scope, .u 1 r.s, .u 4 r.merged] (noteOut (.encKey k r.scope r.s) m4)
              else m4
            | none => m4
          let job : EncJob :=
            { window := w, start := boundaryAt g w, deadline := winDeadline g w 4 m, t := if key then 0 else temporalId e.t e.f, key := key,
              switch := sw, skip := skip, src := desc, late := match pic with | some p => p.2.2.2 | none => false, rate := rate,
              discard := false }
          let m6 := updEnc k (fun x =>
            { x with window := some w, job := some job, f := if key then 0 else x.f + 1, frames := x.frames + 1,
                     lastKey := if key then some m.vault.mono else x.lastKey, req := if done then none else x.req,
                     lastSrc := if desc.isSome then desc else x.lastSrc }) m5
          winMark g w (engineStart (keyDie k) (ctxEngine (keyIdx k)) (boundaryAt g w) (cntAdd { reg := .timLate, i := keyDie k, j := ctxEngine (keyIdx k), k := 0 } (winHeld g w m) m6))

/-! ## Commands (R270 to R274, R290) -/

def encObj (creating : Bool) (d : Desc) (m : M) : Bool := oidOk m 0xB creating (oid d) && decide (4096 ≤ oidIdx (oid d) || (creating && oidDie (oid d) == 0))
def encKey (d : Desc) : Nat := oidKey (oid d)
def encState (d : Desc) (m : M) : Nat := if oidDie (oid d) = 0 then 0 else match getEnc m (encKey d) with
  | some e => e.state
  | none => 0

def encWhen (d : Desc) (m : M) : Option Boundary := match getEnc m (encKey d) with
  | some e => some (encGrid e)
  | none => some hubWindow

/-- The context a payload describes (Table 12-6). -/
def encOf_ (d : Desc) : Enc :=
  let s := bits (pay d 3 1) 0 2
  { state := 1, codec := pay d 0 1, format := pay d 1 1, s := s, t := bits (pay d 3 1) 4 2, source := pay d 4 4,
    send := oidKey (pay d 8 4), width := pay d 12 2, height := pay d 14 2, num := pay d 16 2, den := pay d 18 2, maxRefs := pay d 20 1,
    keyInt := pay d 22 2, swInt := pay d 24 2, mergeMs := if pay d 26 2 = 0 then 250 else pay d 26 2, rate := none, rateNext := none,
    layers := List.replicate s { debt := 0, n := 0, lastBits := 0, lastBudget := 0, mem := [] }, f := 0, frames := 0, lastKey := none,
    req := none, lastSrc := none, lastFrozen := false, refs := List.replicate s [], freezeAt := [], paceCause := false, job := none,
    qpLast := 0, absentRaised := false, sizeRaised := false, window := none, reserved := (0, 0), srcRes := (0, 0) }

def encDie (d : Desc) : Nat := if oidDie (oid d) = 0 then oidDie (pay d 4 4) else oidDie (oid d)

/-- A source that an encode context takes (R277), and whether its chroma is 4:2:2. -/
def encSourceOk (m : M) (src : Nat) : Bool :=
  if oidCls src = 0xD then oidOk m 0xD false src && (match getComp m (oidKey src) with | some c => c.feed != 0 | none => false)
  else if oidCls src = 0xB then oidOk m 0xB false src && decide (oidIdx src < 3072)
  else if oidCls src = 0xA then oidOk m 0xA false src && decide (oidIdx src < 4096) &&
    (match getStrm m (oidKey src) with | some s => s.kind == 2 || s.kind == 6 | none => false)
  else false

def source422 (m : M) (src : Nat) : Bool :=
  if oidCls src = 0xD then (match getComp m (oidKey src) with | some c => c.feed == 3 | none => false)
  else if oidCls src = 0xB then (match getCtx m (oidKey src) with | some c => bit c.format 1 | none => true)
  else true

/-- Range checks of Table 12-6. -/
def encFields (d : Desc) (m : M) : Option Nat :=
  let codec := pay d 0 1
  let s := bits (pay d 3 1) 0 2
  let t := bits (pay d 3 1) 4 2
  let fits (n : Nat) : Bool := n % 2 ^ s == 0 && decide (64 ≤ n / 2 ^ (s - 1))
  orBad (firstBad
    [(!(decide (16 ≤ codec) && decide (codec ≤ 18)), off 0), ((payBit d 1 1 && codec != 17) || (payBit d 1 2 && codec != 18), off 1),
     (decide (11 < pay d 2 1) && pay d 2 1 != 0xFF, off 2), (s == 0 || t == 0, off 3), (!encSourceOk m (pay d 4 4), off 4),
     (payBit d 1 1 && !source422 m (pay d 4 4), off 1),
     (!(oidOk m 0xA false (pay d 8 4) && decide (4096 ≤ oidIdx (pay d 8 4))), off 8),
     (decide (pay d 12 2 < 64) || decide (8192 < pay d 12 2) || !fits (pay d 12 2), off 12),
     (decide (pay d 14 2 < 64) || decide (4352 < pay d 14 2) || !fits (pay d 14 2), off 14)])
  (orBad ((rateBad (pay d 16 2) (pay d 18 2)).map fun b => off (16 + b))
    (firstBad [(pay d 20 1 == 0 || decide (4 < pay d 20 1), off 20), (decide (2000 < pay d 26 2), off 26)]))

/-- A named engine encodes and is large enough. -/
def encNamedBad (d : Desc) (m : M) : Option Nat :=
  let e := pay d 2 1
  let die := encDie d
  if e = 0xFF then none
  else if !mayEncode m die e then some (off 2)
  else if oidDie (oid d) ≠ 0 && (oidIdx (oid d) - 4096) / 64 != e then some (off 2)
  else firstBad [(decide ((engineLimit m die e).1 < pay d 12 2), off 12), (decide ((engineLimit m die e).2 < pay d 14 2), off 14)]

def encFits (m : M) (die : Nat) (c : Enc) (skip e : Nat) : Bool :=
  mayEncode m die e && decide (c.width ≤ (engineLimit m die e).1) && decide (c.height ≤ (engineLimit m die e).2) &&
  decide (2 * encodeRate c.width c.height c.s c.num c.den ≤ engineLeft m die e skip)

/-- Free slots of an engine. -/
def freeEnc (m : M) (die e : Nat) : Option Nat := firstBelow (fun c => (getEnc m (mkKey die (4096 + e * 64 + c))).isNone) 64

/-- Engine and slot of a new context; or the detail of the refusal (R271, R272). -/
def encPlace (d : Desc) (m : M) : Except Nat Nat :=
  let die := encDie d
  let c := encOf_ d
  let slot (e : Nat) : Except Nat Nat := match freeEnc m die e with
    | some i => .ok (mkKey die (4096 + e * 64 + i))
    | none => .error 0x07
  if !dieTakes m die then .error 0x01
  else if pay d 2 1 = 0xFF then
    match bestEngine m die fun e => encFits m die c 0 e && (freeEnc m die e).isSome with
    | some e => slot e
    | none => .error (if (List.range 12).any fun e => encFits m die c 0 e then 0x07 else 0x01)
  else
    let e := pay d 2 1
    if !encFits m die c 0 e then .error 0x01
    else if (freeEnc m die e).isNone then .error 0x07
    else if oidDie (oid d) = 0 then slot e
    else .ok (encKey d)

/-- A send stream admits this encoder: DEFINED, of kind 1 or 6, and of its codec (R294); or it is bound to it already. -/
def encAdmits (m : M) (k : Option Nat) (c : Enc) : Bool := match getSend m c.send with
  | some s =>
    (s.state == 1 || (match k with | some x => s.feeder == some (encOid x) | none => false)) &&
    ((s.kind == 1 && s.format == c.codec) || (s.kind == 6 && c.s == 1 && c.codec != 18))
  | none => false

def encMask : Nat := mb 0 1 ||| mbits 1 7 ||| mb 2 1 ||| mbits 3 0x33 ||| mb 4 17 ||| mb 22 6

/-- The send stream and the source of a context are bound. -/
def encBind (k : Nat) (c : Enc) (m : M) : M :=
  let need := encNeed m c.source
  let res := encReserve c
  let m1 := reserve need.1 1 need.2 (reserve (keyDie k) res.1 res.2 m)
  let m2 := updSend c.send (fun s => { s with state := 2, feeder := some (encOid k) }) m1
  joinWait c.send { m2 with enc.encs := tset m2.enc.encs k { c with reserved := res, srcRes := need } }

/-- A failure of the reservations of a context. -/
def encReserveFail (m : M) (die : Nat) (c : Enc) : Option (Nat × Nat) :=
  let need := encNeed m c.source
  let res := encReserve c
  orFail (reserveFail m die res.1 res.2) (reserveFail (reserve die res.1 res.2 m) need.1 1 need.2)

def encContextOpenSpec : CmdSpec :=
  { baseSpec 0x1401 permMedia with
    mask := encMask
    obj := encObj true
    names := fun d _ => [(pay d 4 4, off 4), (pay d 8 4, off 8)]
    fields := fun d m => orBad (encFields d m) (encNamedBad d m)
    late := fun d m =>
      let c := encOf_ d
      orFail (dieLate m true (oid d)) (orFail (firstFail [(quotaFull m d 0xB, stResource, 0xB)]) (
      match encPlace d m with
      | .error n => some (stResource, n)
      | .ok k => orFail (encReserveFail m (encDie d) c) (firstFail
          [((getEnc m k).isSome, stConflict, 0), (guardOver m 4 c.num c.den, stConflict, 2 ^ 46), (!encAdmits m none c, stConflict, 2)])))
    when := fun d _ => some (.video (pay d 16 2) (pay d 18 2))
    ostate := encState
    apply := fun d m =>
      match encPlace d m with
      | .error _ => (m, okReply 0)
      | .ok k =>
        (own (encOid k) (pathFn m d.path) (encBind k (encOf_ d) m),
         okDetail (if pay d 2 1 = 0xFF || oidDie (oid d) = 0 then encOid k else 0) 0 1) }

def execEncContextOpen (d : Desc) (s : State) : Host.Outcome State Fault Refusal := lift (hostRow encContextOpenSpec d) s

/-- A MODIFY that changes what a RUNNING context must keep: all but bytes 22 to 27. -/
def encDiffers (d : Desc) (c : Enc) : Bool :=
  let n := encOf_ d
  pay d 2 1 != 0xFF && pay d 2 1 != ctxEngine (oidIdx (oid d)) ||
  n.codec != c.codec || n.format != c.format || n.s != c.s || n.t != c.t || n.source != c.source || n.send != c.send ||
  n.width != c.width || n.height != c.height || n.num != c.num || n.den != c.den || n.maxRefs != c.maxRefs

/-- The bindings and reservations of a context are released before it takes new ones. -/
def encUnbind (k : Nat) (e : Enc) (newSend : Nat) (m : M) : M :=
  let m1 := unreserve e.srcRes.1 1 e.srcRes.2 (unreserve (keyDie k) e.reserved.1 e.reserved.2 (clearEncRefs k m))
  if newSend = e.send then m1 else sendState e.send 1 0 m1

def encContextModifySpec : CmdSpec :=
  { baseSpec 0x1402 permMedia with
    mask := encMask
    obj := encObj false
    names := fun d _ => [(pay d 4 4, off 4), (pay d 8 4, off 8)]
    fields := fun d m => orBad (encFields d m)
      (firstBad [(encState d m == 1 && pay d 2 1 != 0xFF && pay d 2 1 != ctxEngine (oidIdx (oid d)), off 2)])
    late := fun d m => orFail (dieLate m false (oid d)) (
      match getEnc m (encKey d) with
      | none => some (stConflict, 0)
      | some c =>
        let die := oidDie (oid d)
        let n := encOf_ d
        if c.state = 3 then some (stConflict, 0)
        else if c.state = 2 then firstFail [(encDiffers d c, stConflict, 0)]
        else
          let m1 := unreserve c.srcRes.1 1 c.srcRes.2 (unreserve die c.reserved.1 c.reserved.2 m)
          orFail (firstFail [(!encFits m die n (encKey d) (ctxEngine (oidIdx (oid d))), stResource, 0x01)])
            (orFail (encReserveFail m1 die n)
              (firstFail [(guardOver m 4 n.num n.den, stConflict, 2 ^ 46), (!encAdmits m (some (encKey d)) n, stConflict, 2)])))
    when := encWhen
    ostate := encState
    apply := fun d m =>
      let k := encKey d
      match getEnc m k with
      | none => (m, okReply 0)
      | some c =>
        let n := encOf_ d
        if c.state = 2 then
          (updEnc k (fun x => { x with keyInt := n.keyInt, swInt := n.swInt, mergeMs := n.mergeMs }) m, okReply 2)
        else
          (encBind k { n with rate := c.rate, rateNext := c.rateNext, job := c.job, qpLast := c.qpLast } (encUnbind k c n.send m), okReply 1) }

def execEncContextModify (d : Desc) (s : State) : Host.Outcome State Fault Refusal := lift (hostRow encContextModifySpec d) s

/-- An ENC command on a context in some states. -/
def encSpec (opcode : Nat) (legal : List Nat) : CmdSpec :=
  { baseSpec opcode permMedia with
    obj := encObj false
    late := fun d m => orFail (dieLate m false (oid d)) (firstFail [(!legal.contains (encState d m), stConflict, 0)])
    when := encWhen
    ostate := encState }

/-- A started context begins with a key frame and no debt (R274). -/
def encBegin (e : Enc) : Enc :=
  let r := takeRate e
  { r with state := 2, f := 0, frames := 0, lastKey := none, req := none, lastSrc := none, lastFrozen := false, window := none,
           absentRaised := false, sizeRaised := false,
           layers := r.layers.map fun x => { x with debt := 0, n := 0, mem := [] } }

def encStartSpec : CmdSpec :=
  { encSpec 0x1403 [1] with
    late := fun d m => orFail (dieLate m false (oid d)) (
      match getEnc m (encKey d) with
      | none => some (stConflict, 0)
      | some e =>
        let bound := match getSend m e.send with
          | some s => s.feeder == some (encOid (encKey d))
          | none => false
        firstFail [(e.state != 1, stConflict, 0), (e.rate.isNone && e.rateNext.isNone, stConflict, 1 + 2 * b2n !bound), (!bound, stConflict, 2)])
    apply := fun d m => (updEnc (encKey d) encBegin m, okDetail 0 1 2) }

def execEncStart (d : Desc) (s : State) : Host.Outcome State Fault Refusal := lift (hostRow encStartSpec d) s

/-- ENC_STOP: no further frame starts; the references clear once a frame in progress is handed on. -/
def encStop (k : Nat) (m : M) : M :=
  match getEnc m k with
  | none => m
  | some e =>
    let m1 := updEnc k (fun x => { x with state := 1 }) m
    match e.job with
    | none => clearEncRefs k m1
    | some j =>
      if onEngine m k then m1
      else
        let m2 := match j.src with
          | some p => encDrop p m1
          | none => m1
        clearEncRefs k (updEnc k (fun x => { x with job := none }) m2)

def encStopSpec : CmdSpec :=
  { encSpec 0x1404 [2] with
    apply := fun d m => (encStop (encKey d) m, okDetail 0 2 1) }

def execEncStop (d : Desc) (s : State) : Host.Outcome State Fault Refusal := lift (hostRow encStopSpec d) s

/-- ENC_CONTEXT_CLOSE: ABSENT at once, or when the frame on the engine, which is discarded, ends. -/
def applyEncClose (d : Desc) (m : M) : M × Applied :=
  let k := encKey d
  match getEnc m k with
  | none => (m, okReply 0)
  | some e =>
    if e.job.isSome && onEngine m k then
      (updEnc k (fun x => { x with state := 3, job := x.job.map fun j => { j with discard := true } }) m, okDetail 0 e.state 3)
    else (encGone k m, okDetail 0 e.state 0)

def encContextCloseSpec : CmdSpec :=
  { encSpec 0x1405 [1, 2] with
    apply := applyEncClose }

def execEncContextClose (d : Desc) (s : State) : Host.Outcome State Fault Refusal := lift (hostRow encContextCloseSpec d) s

/-- The settings of an ENC_RATE_SET (Table 12-5), 0 taking the default. -/
def rateOfD (d : Desc) : EncRate :=
  { targets := [pay d 0 4, pay d 4 4, pay d 8 4], qpMin := pay d 12 1, qpMax := pay d 13 1, qpInit := pay d 14 1,
    dqp := orDef (pay d 15 1) 2, limit := orDef (pay d 16 2) 125, carry := orDef (pay d 18 1) 8, kf := orDef (pay d 20 2) 4000,
    weights := [orDef (pay d 22 2) 1000, orDef (pay d 24 2) 1000, orDef (pay d 26 2) 1000] }

def rateFields (d : Desc) (m : M) : Option Nat :=
  let e := getEnc m (encKey d)
  let s := match e with | some x => x.s | none => 3
  let av1 := match e with | some x => x.codec == 18 | none => false
  let qpBad (n : Nat) : Bool := if av1 then n == 0 else decide (51 < n)
  let tBad (l : Nat) : Bool :=
    let v := pay d (4 * l) 4
    if l < s then decide (v < 16) || decide (400000 < v) else v != 0
  let wBad (o : Nat) : Bool := pay d o 2 != 0 && (decide (pay d o 2 < 100) || decide (4000 < pay d o 2))
  firstBad
    [(e.isSome && tBad 0, off 0), (e.isSome && tBad 1, off 4), (e.isSome && tBad 2, off 8), (e.isSome && qpBad (pay d 12 1), off 12),
     (e.isSome && qpBad (pay d 13 1), off 13), (e.isSome && qpBad (pay d 14 1), off 14),
     (decide (pay d 14 1 < pay d 12 1) || decide (pay d 13 1 < pay d 14 1), off 14), (decide (6 < pay d 15 1), off 15),
     (decide (1000 < pay d 16 2), off 16), (decide (8 < pay d 18 1), off 18),
     (pay d 20 2 != 0 && (decide (pay d 20 2 < 1000) || decide (16000 < pay d 20 2)), off 20), (wBad 22, off 22), (wBad 24, off 24),
     (wBad 26, off 26)]

def encRateSetSpec : CmdSpec :=
  { encSpec 0x1406 [1, 2] with
    mask := mb 0 19 ||| mbits 19 1 ||| mb 20 8
    fields := rateFields
    apply := fun d m =>
      let again := match getEnc m (encKey d) with
        | some e => match e.rateNext with | some r => r.2 | none => false
        | none => false
      (updEnc (encKey d) (fun e => { e with rateNext := some (rateOfD d, payBit d 19 0 || again) }) m, okReply (encState d m)) }

def execEncRateSet (d : Desc) (s : State) : Host.Outcome State Fault Refusal := lift (hostRow encRateSetSpec d) s

def encKeyframeSpec : CmdSpec :=
  { encSpec 0x1407 [2] with
    force := true
    mask := mb 0 2
    fields := fun d m =>
      let s := match getEnc m (encKey d) with | some e => e.s | none => 3
      firstBad [(decide (1 < pay d 0 1), off 0),
        (if pay d 0 1 = 1 then pay d 1 1 == 0 || decide (s ≤ pay d 1 1) else pay d 1 1 != 0, off 1)]
    apply := fun d m => (encRequest (encKey d) (pay d 0 1) (pay d 1 1) (isForce d) m, okReply 2) }

def execEncKeyframe (d : Desc) (s : State) : Host.Outcome State Fault Refusal := lift (hostRow encKeyframeSpec d) s

end Sys2Proof.Machine
end

