-- ==== Sys2Proof/Machine/DspCmd.lean ====
section
/-!
DEFINITION. Codec instances and admission on the signal engines (R340, R341), parameter swaps (R363), and the DSP commands
(R365).
-/
namespace Sys2Proof.Machine

/-! ## Cost and instances (R339 to R341) -/

/-- Slots per ms of a codec instance. -/
def instCost (decode : Bool) (codec : Nat) : Nat :=
  if codec = 0 then (if decode then 20000 else 28000) else if codec = 3 then (if decode then 6000 else 9000) else 900

/-- The blob an engine runs: the placed one, or the one a DSP_PAIR named. -/
def loadedBlob (m : M) (die n : Nat) : Option Blob :=
  (getDsp m die n).bind fun e => (imgBlobs (img m) die).find? fun b => b.id == e.blob

/-- Inputs, cost and delay of a blob's function. -/
def functionOf (m : M) (die n code : Nat) : Option (Nat × Nat × Nat) :=
  (loadedBlob m die n).bind fun b => (b.functions.find? fun f => f.1 == code).map Prod.snd

def portCost (m : M) (die n : Nat) (p : DPort) : Nat := match functionOf m die n p.code with
  | some f => f.2.1
  | none => 0

/-- Instances of an engine, by stream. -/
def engineInsts (m : M) (die n : Nat) : List (Nat × Inst) := m.dsp.insts.filter fun i => keyDie i.1 == die && i.2.engine == n

/-- Slots per ms admitted on an engine, one port left out. -/
def engineCost (m : M) (die n skip : Nat) : Nat :=
  ((engineInsts m die n).map fun i => instCost (decide (keyIdx i.1 < 4096)) i.2.codec).sum +
  (match getDsp m die n with
   | some e => ((e.ports.filter fun p => p.1 != skip).map fun p => portCost m die n p.2).sum
   | none => 0)

def costMax : Nat := 1440000

/-- Free encode slot of an engine. -/
def freeSlot (m : M) (die n : Nat) : Option Nat :=
  firstBelow (fun j => !((engineInsts m die n).any fun i => i.2.slot == some j)) 64

/-- An engine that takes an instance: AUDIO_SVC with cost left, and a slot for an encode instance. -/
def instFits (m : M) (die n codec : Nat) (decode : Bool) : Bool :=
  (match getDsp m die n with
   | some e => e.state == 1 || e.state == 2
   | none => false) &&
  (match loadedBlob m die n with
   | some b => b.service
   | none => false) &&
  decide (engineCost m die n 16 + instCost decode codec ≤ costMax) && (decode || (freeSlot m die n).isSome)

/-- The engine of a new instance: most cost left, ties to the lowest number. -/
def instEngine (m : M) (die codec : Nat) (decode : Bool) : Option Nat :=
  (List.range 32).foldl (fun a n =>
    if instFits m die n codec decode then
      match a with
      | none => some n
      | some b => if engineCost m die n 16 < engineCost m die b 16 then some n else some b
    else a) none

/-- Give a stream of kind 0 its instance. -/
def instNew (k codec : Nat) (m : M) : M :=
  let decode := decide (keyIdx k < 4096)
  match instEngine m (keyDie k) codec decode with
  | none => m
  | some n =>
    let i : Inst := { engine := n, slot := if decode then none else freeSlot m (keyDie k) n, codec := codec }
    { m with dsp.insts := tset m.dsp.insts k i }

/-- The stream's instance goes; its tasks go with it. -/
def instGone (k : Nat) (m : M) : M :=
  { m with dsp.insts := tdel m.dsp.insts k, tsk.ready := tmap m.tsk.ready fun _ l => l.filter fun t => t.stream != k }

/-! ## Parameters (R363) -/

def halfBase (b : Bool) : Nat := if b then 0x3100 else 0x3000

/-- Copy the active half of every port into the inactive one. -/
def copyHalves (e : Dsp) : Dsp :=
  (List.range 256).foldl (fun x i => memPut false 0 (halfBase (!e.pb) + i) (memGet e false 0 (halfBase e.pb + i)) x) e

/-- Words of a port into a half. -/
def writeParams (half : Bool) (port offset : Nat) (ws : List Nat) (e : Dsp) : Dsp :=
  ws.zipIdx.foldl (fun x v => memPut false 0 (halfBase half + 16 * port + offset + v.2) (BitVec.ofNat 32 v.1) x) e

/-- The parameter swap of the window that starts, once, with one command's words: the half it writes becomes active and the
parameter interrupt falls due. -/
def paramSwap (now port offset : Nat) (ws : List Nat) (e : Dsp) : Dsp :=
  let first := e.swapAt != some now
  let e1 := if first then copyHalves e else e
  let half := if first then !e.pb else e.pb
  let old := tget e1.params port (List.replicate 16 0)
  let new := (List.range 16).map fun i => if offset ≤ i && decide (i < offset + ws.length) then BitVec.ofNat 32 (ws.getD (i - offset) 0) else old.getD i 0
  { writeParams half port offset ws e1 with
      pb := half, parDue := true, swapAt := some now, params := if ws.isEmpty then e1.params else tset e1.params port new }

/-! ## Commands -/

def dspObj (d : Desc) (m : M) : Bool := oidOk m 0xE false (oid d) && decide (12 ≤ oidIdx (oid d)) && decide (oidIdx (oid d) < 44)
def dspNo (d : Desc) : Nat := oidIdx (oid d) - 12
def dspOf (d : Desc) (m : M) : Option Dsp := getDsp m (oidDie (oid d)) (dspNo d)
def dspCode (d : Desc) (m : M) : Nat := match dspOf d m with
  | some e => e.state
  | none => 0

def dspWhen (d : Desc) (m : M) : Option Boundary := some (.audio (dieWindow (img m) (oidDie (oid d))))

/-- Start of the audio window of a die that runs. -/
def dieStart (m : M) (die : Nat) : Nat := m.dev / dieWindow (img m) die * dieWindow (img m) die

def dspSpec (opcode : Nat) : CmdSpec :=
  { baseSpec opcode permMedia with
    obj := dspObj
    late := fun d m => orFail (dieLate m false (oid d)) (firstFail [(!(dspCode d m == 1 || dspCode d m == 2), stConflict, 0)])
    when := dspWhen
    ostate := dspCode }

def updDsp (d : Desc) (f : Dsp → Dsp) (m : M) : M := match dspOf d m with
  | some e => setDsp (oidDie (oid d)) (dspNo d) (f e) m
  | none => m

def portInput (d : Desc) (i : Nat) : Nat := pay d (4 + 4 * i) 4

/-- Reference of a port as a source. -/
def portRef (die n p : Nat) : Nat := 2 * 2 ^ 28 + die * 2 ^ 25 + n * 2 ^ 20 + p

/-- A port is reached from a source through the inputs of ports. -/
def feeds (m : M) (target : Nat) : Nat → Nat → Bool
  | 0, r => r == target
  | n + 1, r => r == target || (srcKind r == 2 && (match getDsp m (srcDie r) (srcEngine r) with
    | some e => match tget? e.ports (bits r 0 4) with
      | some p => p.inputs.any fun s => feeds m target n s
      | none => false
    | none => false))

/-- SUM4 takes one to four inputs; every other function all of its own. -/
def needInputs (m : M) (die n code inputs : Nat) : Nat :=
  if imgPlacement (img m) die n = 0x5302 && code = 4 then 1 else inputs

def isDelay (m : M) (die n code : Nat) : Bool := imgPlacement (img m) die n == 0x5302 && code == 3

/-- The port would feed itself through a chain of ports: INVALID, at its boundary too. -/
def portLoops (d : Desc) (m : M) : Bool :=
  (List.range 4).any fun i =>
    portInput d i != 0 && feeds m (portRef (oidDie (oid d)) (dspNo d) (pay d 0 1)) 512 (portInput d i)

def portFields (d : Desc) (m : M) : Option Nat :=
  let die := oidDie (oid d)
  let n := dspNo d
  let service := match loadedBlob m die n with
    | some b => b.service
    | none => false
  if 15 < pay d 0 1 then some (off 0)
  else if service then some (off 1)
  else match functionOf m die n (pay d 1 1) with
  | none => if dspCode d m = 1 || dspCode d m = 2 then some (off 1) else none
  | some f =>
    let bad (i : Nat) : Bool :=
      let r := portInput d i
      if f.1 ≤ i then r != 0
      else if r = 0 && decide (needInputs m die n (pay d 1 1) f.1 ≤ i) then false
      else !sourceOk m r || srcDie r != die
    orBad (firstBad [(bad 0, off 4), (bad 1, off 8), (bad 2, off 12), (bad 3, off 16)])
      (firstBad
        [(portLoops d m, 0x1D), (isDelay m die n (pay d 1 1) && decide (12000 < pay d 20 4), off 20)])

/-- Inputs of a payload, in place. -/
def portInputsOf (d : Desc) : List Nat := (List.range 4).map (portInput d)

/-- Inputs in use: a zero reference is no input. -/
def inUse (rs : List Nat) : Nat := (rs.filter fun r => r != 0).length

/-- Each input in use takes the next of the free input slots; the others have none, 0xFF. -/
def giveSlots : List Nat → List Nat → List Nat
  | [], _ => []
  | r :: rs, free => if r = 0 then 0xFF :: giveSlots rs free else free.headD 0xFF :: giveSlots rs (free.drop 1)

/-- Input slots that other ports leave free. -/
def slotsLeft (e : Dsp) (p : Nat) : List Nat :=
  (List.range 16).filter fun i => !(e.ports.any fun x => x.1 != p && x.2.slots.contains i)

/-- Samples that the DELAY ports of an engine hold, one left out. -/
def delaySum (m : M) (die n skip : Nat) : Nat := match getDsp m die n with
  | some e => ((e.ports.filter fun p => p.1 != skip && isDelay m die n p.2.code).map fun p => p.2.arg).sum
  | none => 0

def portRefusal (d : Desc) (m : M) : Option (Nat × Nat) :=
  let die := oidDie (oid d)
  let n := dspNo d
  let p := pay d 0 1
  let cost := match functionOf m die n (pay d 1 1) with
    | some f => f.2.1
    | none => 0
  let left := match dspOf d m with
    | some e => (slotsLeft e p).length
    | none => 16
  firstFail
    [(portLoops d m, stInvalid, 0x1D),
     (decide (costMax < engineCost m die n p + cost), stResource, 0x0C),
     (isDelay m die n (pay d 1 1) && decide (12288 < delaySum m die n p + pay d 20 4), stResource, 0x0D),
     (decide (left < inUse (portInputsOf d)), stResource, 0x0E)]

/-- DSP_PORT_SET: the port takes the lowest free input slots, its entry is written, and a parameter swap follows. -/
def applyPortSet (d : Desc) (m : M) : M :=
  let p := pay d 0 1
  let now := dieStart m (oidDie (oid d))
  updDsp d (fun e =>
    let x : DPort :=
      { code := pay d 1 1, inputs := portInputsOf d, slots := giveSlots (portInputsOf d) (slotsLeft e p), arg := pay d 20 4, lateAt := none }
    paramSwap now p 0 [] (writeEntry p (portEntry x) { e with ports := tset e.ports p x })) m

def dspPortSetSpec : CmdSpec :=
  { dspSpec 0x1501 with
    mask := mb 0 2 ||| mb 4 20
    rsv := fun d _ => (List.range 4).findSome? fun i => srcReserved (portInput d i) (4 + 4 * i)
    names := fun d _ => (List.range 4).flatMap fun i =>
      if portInput d i = 0 then [] else srcNames (portInput d i) (off (4 + 4 * i))
    fields := portFields
    late := fun d m => orFail (dieLate m false (oid d)) (orFail (portRefusal d m)
      (firstFail [(!(dspCode d m == 1 || dspCode d m == 2), stConflict, 0)]))
    apply := fun d m => (applyPortSet d m, okReply (dspCode d m)) }

def execDspPortSet (d : Desc) (s : State) : Host.Outcome State Fault Refusal := lift (hostRow dspPortSetSpec d) s

/-- Crosspoints in either bank, and other ports, that name a port. -/
def portUses (m : M) (die n p : Nat) : Nat :=
  let r := portRef die n p
  (m.mix.xps.filter fun x => x.2.source == r && (x.2.act.isSome || x.2.ina.isSome)).length +
  (m.dsp.engines.map fun e => (e.2.ports.filter fun y => y.2.inputs.contains r).length).sum

def portFree (d : Desc) (m : M) : Bool := !portActive m (oidDie (oid d)) (dspNo d) (pay d 0 1)

def dspPortClearSpec : CmdSpec :=
  { dspSpec 0x1502 with
    mask := mb 0 1
    fields := fun d _ => firstBad [(decide (15 < pay d 0 1), off 0)]
    late := fun d m => orFail (dieLate m false (oid d)) (
      let uses := portUses m (oidDie (oid d)) (dspNo d) (pay d 0 1)
      firstFail [(!(dspCode d m == 1 || dspCode d m == 2), stConflict, 0), (portFree d m, stConflict, 1), (uses != 0, stConflict, uses % 65536)])
    apply := fun d m =>
      (updDsp d (fun e => writeEntry (pay d 0 1) [0, 0xFFFF, 0xFFFF, 0] { e with ports := tdel e.ports (pay d 0 1) }) m, okReply (dspCode d m)) }

def execDspPortClear (d : Desc) (s : State) : Host.Outcome State Fault Refusal := lift (hostRow dspPortClearSpec d) s

def dspParamSetSpec : CmdSpec :=
  { dspSpec 0x1503 with
    mask := mb 0 3 ||| mb 8 32
    fields := fun d _ => firstBad
      [(decide (15 < pay d 0 1), off 0), (decide (15 < pay d 1 1), off 1),
       (pay d 2 1 == 0 || decide (8 < pay d 2 1) || decide (16 < pay d 1 1 + pay d 2 1), off 2)]
    late := fun d m => orFail (dieLate m false (oid d))
      (firstFail [(!(dspCode d m == 1 || dspCode d m == 2), stConflict, 0), (portFree d m, stConflict, 1)])
    apply := fun d m =>
      let ws := (List.range (pay d 2 1)).map fun i => pay d (8 + 4 * i) 4
      (updDsp d (paramSwap (dieStart m (oidDie (oid d))) (pay d 0 1) (pay d 1 1) ws) m, okReply (dspCode d m)) }

def execDspParamSet (d : Desc) (s : State) : Host.Outcome State Fault Refusal := lift (hostRow dspParamSetSpec d) s

def dspHaltSpec : CmdSpec :=
  { dspSpec 0x1504 with
    force := true
    late := fun d m => orFail (dieLate m false (oid d)) (
      let held := (engineInsts m (oidDie (oid d)) (dspNo d)).length
      firstFail [(dspCode d m != 1, stConflict, 0), (!isForce d && held != 0, stConflict, held % 65536)])
    apply := fun d m => (dspHalt (oidDie (oid d)) (dspNo d) 7 m, okDetail 0 1 2) }

def execDspHalt (d : Desc) (s : State) : Host.Outcome State Fault Refusal := lift (hostRow dspHaltSpec d) s

/-- DSP_RESTART: the blob is loaded, the port table and both parameter halves are written again. -/
def dspReload (die n : Nat) (m : M) : M :=
  match getDsp m die n, loadedBlob m die n with
  | some e, some b =>
    let m1 := e.hand.foldl (fun x h => voidTask die n h.2 x) m
    let e1 := { dspLoad b e.c3 e.wide with fault := e.fault, faultPc := e.faultPc, ports := e.ports, params := e.params }
    let e2 := e1.ports.foldl (fun x p => writeEntry p.1 (portEntry p.2) x) e1
    let e3 := e1.params.foldl (fun x p =>
      writeParams true p.1 0 (p.2.map fun w => w.toNat) (writeParams false p.1 0 (p.2.map fun w => w.toNat) x)) e2
    setDsp die n e3 m1
  | _, _ => m

def dspRestartSpec : CmdSpec :=
  { dspSpec 0x1505 with
    force := true
    late := fun d m => orFail (dieLate m false (oid d))
      (firstFail [(!(dspCode d m == 2 || (dspCode d m == 1 && isForce d)), stConflict, 0)])
    apply := fun d m =>
      let die := oidDie (oid d)
      let m1 := dspReload die (dspNo d) m
      (if dspCode d m = 2 then dspState die (dspNo d) 2 1 0 m1 else m1, .later) }

def execDspRestart (d : Desc) (s : State) : Host.Outcome State Fault Refusal := lift (hostRow dspRestartSpec d) s

end Sys2Proof.Machine
end

