-- ==== Sys2Proof/Machine/Objects.lean ====
section
/-!
DEFINITION. What goes with an object: streams and send streams (R130, R197, R299), legs (R130, R233), and every object of a
media die that is re-structured or lost (R23, R76, R233).
-/
namespace Sys2Proof.Machine

/-- Action 0x0AC0 (R130): what was deleted, or what referred to the leg, and the leg. -/
def removedRec (leg obj : Nat) (m : M) : M :=
  action (netUnit (keyDie leg)) 0x0AC0 (legOid leg) obj (legId leg) m

/-- Every mixer is computed up to now: a removal applies from the next input sample (R233). -/
def mixersNow (m : M) : M := (m.mix.mixers.map Prod.fst).foldl (fun x d => mixAdvance d (samplesStarted x d) x) m

/-! ## Crosspoints and overlays -/

/-- What is left of a crosspoint when one test removes it whole and another the banks whose owner it selects. -/
def xpWithout (whole : Nat → Bool) (owner : Nat → Bool) (x : Xp) : Option Xp :=
  let keep (p : XpPar) : Bool := match p.owner with
    | some o => !owner o
    | none => true
  let act := x.act.bind fun p => if keep p then some p else none
  let ina := x.ina.bind fun p => if keep p then some p else none
  if whole x.source || (act.isNone && ina.isNone) then none else some { x with act := act, ina := ina }

/-- Crosspoints leave both banks; each is recorded against a leg. -/
def dropXps (whole owner : Nat → Bool) (leg : Nat) (m : M) : M :=
  let hit := m.mix.xps.filter fun x => xpWithout whole owner x.2 != some x.2
  hit.foldl (fun x k => removedRec leg (busOid k.2.bus) x)
    { m with mix.xps := tfilterMap m.mix.xps (fun _ => true) (xpWithout whole owner) }

/-- Overlay slots whose source a test selects leave both banks of their leg output. -/
def dropOverlays (sel : Nat → Bool) (leg : Nat) (m : M) : M :=
  let bad (b : LegBank) : Bool := b.ov.any fun o => sel o.2.source
  let cut (b : LegBank) : LegBank := { b with ov := b.ov.filter fun o => !sel o.2.source }
  let hit := m.mix.legs.filter fun l => bad l.2.act || bad l.2.ina
  hit.foldl (fun x l => removedRec leg (legOid l.1) x)
    { m with mix.legs := tmap m.mix.legs fun _ l => { l with act := cut l.act, ina := cut l.ina } }

/-- The source references of a stream. -/
def ofStrm (k r : Nat) : Bool := srcKind r == 1 && srcStrm r == k

/-! ## Streams -/

/-- Operations of a stream leave the fabric. -/
def dropOps (sel : CipOp → Bool) (m : M) : M :=
  let gone := m.key.ops.filter sel
  let m1 := (gone.map CipOp.slot).eraseDups.foldl (fun x s => sweepSlot s x) { m with key.ops := m.key.ops.filter fun o => !sel o }
  (gone.map CipOp.die).eraseDups.foldl (fun x d => serveDie d x) m1

/-- A receive stream becomes ABSENT: its crosspoints and overlays, its instance, its frames in the pool, the entries and the
pass-through streams of which it is the source. Decode contexts find it gone at their next window (R197). -/
def strmGone (k : Nat) (m : M) : M :=
  match getStrm m k with
  | none => m
  | some s =>
    let leg := strmLeg k
    let m1 := dropOverlays (ofStrm k) leg (dropXps (ofStrm k) (fun _ => false) leg (mixersNow m))
    let m2 := (s.sync.fresh.toList ++ s.sync.current.toList).foldl (fun x n => outDrop (keyDie k) n x) m1
    let m3 := dropOps (fun o => o.rx && o.stream == k) (instGone k m2)
    let m4 := { m3 with
      net.streams := tdel m3.net.streams k,
      cod.ctxs := tmap m3.cod.ctxs fun _ c => if c.stream = k && c.state == 2 then { c with streamLost := true } else c,
      mix.srcs := m3.mix.srcs.filter fun e => !ofStrm k e.1 }
    let m5 := (passSends m4 k).foldl (fun x q => sendState q 1 0 x) m4
    disown (strmOid k) (sourceGone (strmOid k) m5)

/-- No encoder and no compositor sends to a send stream any longer. -/
def unfeed (k : Nat) (m : M) : M :=
  let cut (x : CmpSet) : CmpSet := { x with outputs := x.outputs.filter fun o => o.2 != (2, k) }
  { m with
    enc.encs := tmap m.enc.encs fun _ e => if e.send = k then { e with send := 0 } else e,
    cmp.comps := tmap m.cmp.comps fun _ c =>
      { c with staged := cut c.staged, force := cut c.force, captured := c.captured.map cut } }

/-- Items of a send stream leave the flows; what is behind them goes on. -/
def dropItems (k : Nat) (m : M) : M :=
  let mine (b : FBody) : Bool := match b with
    | .pkt e => e.send == k
    | .dsp s _ _ => s == k
    | .plain => false
  let hit := m.tsk.flows.filter fun f => f.2.items.any (fun i => mine i.body) || f.2.beyond.any fun i => mine i.body
  hit.foldl (fun x f => flowSettle (f.1 / 4096) (f.1 % 4096)
    { x with tsk.flows := tupd x.tsk.flows f.1 fun y =>
        { flowMark (fun i => mine i.body) 2 y with beyond := y.beyond.filter fun i => !mine i.body } }) m

/-- A send stream becomes ABSENT: its instance, its memberships, its binding, the entries of which it is the source. -/
def sendGone (k : Nat) (m : M) : M :=
  match getSend m k with
  | none => m
  | some _ =>
    let m1 := (memberOf m k).foldl (fun x e => updFwd e.1 (fun f => { f with members := f.members.filter (· != k) }) x) m
    let m2 := sourceGone (sendOid k) m1
    let m3 := dropOps (fun o => !o.rx && o.stream == k) (dropItems k (instGone k (unfeed k m2)))
    disown (sendOid k) { m3 with
      snd.sends := tdel m3.snd.sends k,
      snd.queues := tmap m3.snd.queues fun _ q => { q with pkts := q.pkts.filter fun p => p.send != k },
      tsk.parked := m3.tsk.parked.filter fun t => !(t.1 == keyDie k && t.2.1 == 2 && t.2.2 == k) }

/-! ## Legs (R130) -/

/-- The streams of a leg are deleted: each is recorded, and a send stream's change raises EV_NET_SEND_STATE. -/
def legStreamsGone (leg : Nat) (m : M) : M :=
  let m1 := (legStreams m leg).foldl (fun x s => removedRec leg (strmOid s.1) (strmGone s.1 x)) m
  (legSends m1 leg).foldl (fun x s =>
    removedRec leg (sendOid s.1) (sendGone s.1 ((memberOf x s.1).foldl (fun y e => removedRec leg (mkOid 7 0 e.1) y)
      (sendState s.1 0 2 x)))) m1

/-- The egress queue of a leg is freed with its flow. -/
def legQueueFree (leg : Nat) (m : M) : M :=
  match getLeg m leg with
  | none => m
  | some l => match l.queue with
    | none => m
    | some q =>
      let m1 := freeQueueOf (queueKey (keyDie leg) q) m
      updLeg leg (fun x => { x with queue := none })
        { m1 with tsk.flows := tdel m1.tsk.flows (flowKey (keyDie leg) q) }

/-- A leg becomes ABSENT: its streams, queue, binding to its key slot, mixer output, and every reference that names it go in
the same step. -/
def legGone (leg cause : Nat) (m : M) : M :=
  match getLeg m leg with
  | none => m
  | some l =>
    let m1 := legQueueFree leg (legStreamsGone leg (authRecord leg m))
    let m2 := dropXps (fun _ => false) (· == leg) leg (mixersNow m1)
    let own := match getLegOut m2 leg with
      | some x => (x.act.ov.map Prod.fst ++ x.ina.ov.map Prod.fst).eraseDups.length
      | none => 0
    let m3 := (List.range own).foldl (fun x _ => removedRec leg (legOid leg) x) m2
    let m4 := { m3 with
      mix.legs := tdel m3.mix.legs leg,
      mix.partials := m3.mix.partials.map fun p => { p with owned := p.owned.filter fun o => o.1 != leg },
      mix.totals := m3.mix.totals.map fun t => { t with owned := t.owned.filter fun o => o.1 != leg },
      snd.legs := tdel m3.snd.legs leg,
      auth := tdel m3.auth leg,
      tsk.parked := m3.tsk.parked.filter fun t => !(t.1 == keyDie leg && t.2.1 == 1 && t.2.2 == leg),
      net.legs := tdel m3.net.legs leg }
    disown (legOid leg) (if cause = 0 then
        raise 0x0A01 3 (legOid leg) [.u 2 (legId leg), .u 1 l.state, .u 1 0, .u 1 0] m4
      else legEvent leg l.state 0 cause m4)

/-! ## Every object of a die (R23, R76, R233) -/

/-- Action 0x02C0: an object set ABSENT by a re-structure (R76). -/
def absentRec (restr : Bool) (obj old : Nat) (m : M) : M := if restr then action 2 0x02C0 obj old 0 m else m

/-- An object whose class has no event of its own set ABSENT, by a re-structure or a loss: each removal is journalled (R111,
R259); by R76's action in both cases (DESIGN CHOICE, log 130). -/
def removed (obj old : Nat) (m : M) : M := action 2 0x02C0 obj old 0 m

def keysOf {α : Type} (t : Tbl α) (die : Nat) : List (Nat × α) := t.filter fun x => keyDie x.1 == die

/-- The objects of chapters 09, 11 and 12. -/
def dieVideo (die : Nat) (restr : Bool) (m : M) : M :=
  let m1 := (keysOf m.enc.encs die).foldl (fun x e =>
    encGone e.1 (absentRec restr (encOid e.1) e.2.state
      (announce (ctxUnit e.1) 0x1403 3 (encOid e.1) [.u 2 (keyIdx e.1), .u 1 e.2.state, .u 1 0, .u 1 0] 0 x))) m
  let m2 := (keysOf m1.cmp.comps die).foldl (fun x c => cmpGone c.1 (removed (cmpOid c.1) c.2.state x)) m1
  (keysOf m2.cod.ctxs die).foldl (fun x c =>
    ctxGone c.1 (absentRec restr (ctxOid c.1) c.2.state
      (announce (ctxUnit c.1) 0x1003 3 (ctxOid c.1) [.u 2 (keyIdx c.1), .u 1 c.2.state, .u 1 0, .u 1 1] 0 x))) m2

/-- The objects of chapters 08, 10 and 15, and the unit pairs: those a command formed on a die that is re-structured are
recorded as they dissolve (Table 17-5). -/
def dieUnits (die : Nat) (restr : Bool) (m : M) : M :=
  let m1 := ((m.mix.buses.filter fun b => busDie b.1 == die).map Prod.fst).foldl (fun x b =>
    let y := removed (busOid b) 1 x
    dropBus b { y with
      mix.xps := y.mix.xps.filter fun k => k.2.bus != b,
      mix.legs := tmap y.mix.legs fun _ l =>
        let cut (k : LegBank) : LegBank :=
          { k with par := k.par.map fun p => if p.bus = some b then { p with bus := none } else p }
        { l with act := cut l.act, ina := cut l.ina } }) m
  let m2 := (keysOf m1.cod.modems die).foldl (fun x c => removed (modOid die (keyIdx c.1)) c.2.state x) m1
  let m3 := (keysOf m2.dsp.engines die).foldl (fun x e =>
    absentRec restr (dspOid die (keyIdx e.1 - 12)) e.2.state (dspState die (keyIdx e.1 - 12) e.2.state 0 2 x)) m2
  if restr && m3.join.byCmd.contains die then
    let cods := (m3.join.cod.filter fun p => p / 16 == die).foldl (fun x p =>
      action (unitPath die (2 * (p % 16))) 0x10C0 (mkOid 0xE die (2 * (p % 16))) 2 1 x) m3
    let cmps := if cods.join.cmp.contains die then action (unitPath die 44) 0x13C0 (mkOid 0xD die 0) 2 1 cods else cods
    (cmps.join.dsp.filter fun p => p / 16 == die).foldl (fun x p =>
      action (unitPath die (12 + 2 * (p % 16))) 0x15C0 (dspOid die (2 * (p % 16))) 1 0 x) cmps
  else m3

/-- Lanes of a die leave test modes, recorded as action 0x17C0 (Table 17-5). -/
def lanesOff (die : Nat) (m : M) : M :=
  let hit := m.join.loops.filter fun l => l.1 / 8 == die && l.2.1 != 0
  let m1 := { m with join.loops := m.join.loops.filter fun l => l.1 / 8 != die }
  hit.foldl (fun x l => action (unitPath die (if die = 0 then 0xB else 0x46)) 0x17C0 (infraOid die) l.2.1 0 x) m1

/-- Commands that units of the die still owed their completion. -/
def dieDeferred (die : Nat) (status : Nat) (m : M) : M :=
  let mine := m.deferred.filter fun d => oidCls (oid d) ≥ 9 && oidDie (oid d) == die
  mine.foldl (fun x d => finish d (isPtr d) (reply status 0 0) x) m

/-- Nothing of the die is left in tables, buffers and queues; what other dies hold of its pool is given up. -/
def dieClear (die : Nat) (m : M) : M :=
  let off {α : Type} (t : Tbl α) : Tbl α := t.filter fun x => keyDie x.1 != die
  let m1 := dropOps (fun o => o.die == die) m
  let m2 := { m1 with
    net.ports := m1.net.ports.filter fun p => p.1 / 16 != die,
    snd.ports := m1.snd.ports.filter fun p => p.1 / 16 != die,
    snd.queues := m1.snd.queues.filter fun q => q.1 / 1536 != die,
    snd.sample := tdel m1.snd.sample die,
    tsk.flows := m1.tsk.flows.filter fun f => f.1 / 4096 != die,
    tsk.ready := tdel m1.tsk.ready die,
    tsk.notMade := tdel m1.tsk.notMade die,
    tsk.parked := m1.tsk.parked.filter fun t => t.2.1 == 0 || t.1 != die,
    cod.modems := off m1.cod.modems,
    cod.pools := tdel m1.cod.pools die,
    cmp.atlas := tdel m1.cmp.atlas die,
    enc.engines := m1.enc.engines.filter fun e => e.1 / 16 != die,
    dsp.engines := off m1.dsp.engines,
    dsp.insts := off m1.dsp.insts,
    dsp.window := tdel m1.dsp.window die }
  let m3 := { m2 with
    mix.mixers := tdel m2.mix.mixers die,
    mix.xps := m2.mix.xps.filter fun x => xpDie x.1 != die,
    mix.partials := m2.mix.partials.filter fun p => p.die != die,
    mix.totals := m2.mix.totals.map fun (t : Total) => { t with at_ := t.at_.filter fun d => d != die },
    mix.srcs := m2.mix.srcs.filter fun r => srcDie r.1 != die,
    key.cache := tdel m2.key.cache die,
    mem.chans := m2.mem.chans.filter fun c => c.1 / 8 != die,
    mem.trackers := m2.mem.trackers.filter fun t => t.1 / 128 != die,
    mem.throttles := m2.mem.throttles.filter fun t => t.1 / 8 != die && t.2.1 != die,
    mem.eccSince := m2.mem.eccSince.filter fun c => c.1 / 8 != die }
  { m3 with
    join.cod := m3.join.cod.filter fun p => p / 16 != die,
    join.cmp := m3.join.cmp.filter (· != die),
    join.dsp := m3.join.dsp.filter fun p => p / 16 != die,
    join.byCmd := m3.join.byCmd.filter (· != die),
    join.waits := m3.join.waits.filter fun w => oidDie (oid w.1) != die,
    pin.lanes := m3.pin.lanes.filter fun l => l.1 / 8 != die,
    cmp.comps := tmap m3.cmp.comps fun _ c => { c with runs := tmap c.runs fun _ r =>
      { r with held := r.held.filter fun h => h.1 != die, reserved := r.reserved.filter fun h => h.1 != die } },
    enc.encs := tmap m3.enc.encs fun _ e =>
      { e with srcRes := if e.srcRes.1 = die then (0, 0) else e.srcRes,
               lastSrc := e.lastSrc.filter fun h => h.1 != die } }

/-- Every object homed on a die becomes ABSENT (R76 step 2, R23): `restr` for a re-structure, else a loss. -/
def dieGone (die : Nat) (restr : Bool) (m : M) : M :=
  let m1 := dieDeferred die (if restr then stBusy else stResource) (mixersNow m)
  let m2 := dieVideo die restr m1
  let m3 := (keysOf m2.net.legs die).foldl (fun x l => legGone l.1 3 (absentRec restr (legOid l.1) l.2.state x)) m2
  dieClear die (lanesOff die (dieUnits die restr m3))

end Sys2Proof.Machine
end

