-- ==== Sys2Proof/Machine/Legs.lean ====
section
/-!
DEFINITION. The leg commands (R126 to R131) but LEG_MOVE, and the end of a drain (R129).
-/
namespace Sys2Proof.Machine

/-! ## The leg record (Table 06-1) -/

/-- The record a payload gives. A leg of transport 1 or 2 names no key slot and no secondary port. -/
def legOf (d : Desc) : Leg :=
  let rtp := pay d 0 1 == 0
  { state := 1, transport := pay d 0 1, port := pay d 1 1, secondary := if rtp then pay d 2 1 else 0xFF, flags := pay d 3 1,
    vlan := pay d 4 2, localPort := pay d 6 2, remotePort := pay d 8 2, keySlot := if rtp then pay d 10 2 else 0xFFFF,
    profile := pay d 12 1, silenceS := pay d 13 1, drainMs := pay d 14 2, remoteAddr := pay d 16 16, rtcpMs := pay d 32 4,
    queue := none, silent := false, lastRelease := 0, drainAt := 0, armDev := 0, drainDev := 0, rtcpAt := 0, rtcpGap := 0 }

/-- An Ethernet port of a media die. -/
def mediaEth (m : M) (code : Nat) : Bool := decide (1 ≤ code / 16) && ethPort m code

/-- The port byte does not match the transport. -/
def legPortBad (d : Desc) (m : M) : Bool :=
  let p := pay d 1 1
  match pay d 0 1 with
  | 0 => !mediaEth m p
  | 1 => !(decide (1 ≤ p / 16) && decide (p / 16 ≤ m.part.media) && decide (p % 16 < 8) && lanePers (img m) (p / 16) (p % 16) == 4)
  | _ => !(decide (1 ≤ p / 16) && decide (p / 16 ≤ m.part.media) && decide (p % 16 < 2) && modemEnabled (img m) (p / 16) (p % 16))

/-- Another leg that is not ABSENT has the record's port, local port, remote address and remote port (R126). -/
def legClash (d : Desc) (skip : Option Nat) (m : M) : Bool :=
  pay d 0 1 == 0 && m.net.legs.any fun l =>
    some l.1 != skip && l.2.transport == 0 && l.2.port == pay d 1 1 && l.2.localPort == pay d 6 2 &&
    l.2.remoteAddr == pay d 16 16 && l.2.remotePort == pay d 8 2

/-- Another leg names the record's modem channel. -/
def legChannelTaken (d : Desc) (skip : Option Nat) (m : M) : Bool :=
  pay d 0 1 == 2 && m.net.legs.any fun l => some l.1 != skip && l.2.transport == 2 && l.2.port == pay d 1 1

/-- First byte that must be zero and is not, of transports 1 and 2. -/
def legZeroBad (d : Desc) : Option Nat :=
  ((List.range 34).map (· + 2)).find? fun o => !(decide (12 ≤ o) && decide (o ≤ 15)) && pay d o 1 != 0

def drainBad (d : Desc) : Bool := pay d 14 2 == 0 || decide (2000 < pay d 14 2)

/-- Step 6 of R96 for a leg record. -/
def legRecBad (skip : Option Nat) (d : Desc) (m : M) : Option Nat :=
  let rtp := firstBad
    [(pay d 2 1 != 0xFF && (pay d 2 1 == pay d 1 1 || !mediaEth m (pay d 2 1)), off 2),
     (decide (pay d 6 2 < 1024) || pay d 6 2 == 65535, off 6),
     (decide (16383 < pay d 10 2) && pay d 10 2 != 0xFFFF, off 10),
     (drainBad d, off 14),
     (!payBit d 3 0 && pay d 20 12 != 0, off 16),
     (payBit d 3 2 && !(decide (100 ≤ pay d 32 4) && decide (pay d 32 4 ≤ 10000)), off 32),
     (legClash d skip m, 0x11E)]
  orBad (firstBad [(decide (2 < pay d 0 1), off 0), (legPortBad d m, off 1), (legChannelTaken d skip m, off 1)])
    (if pay d 0 1 = 0 then rtp
     else match legZeroBad d with
       | some o => if drainBad d && decide (14 < o) then some (off 14) else some (off o)
       | none => firstBad [(drainBad d, off 14)])

def legMask : Nat := mb 0 3 ||| mbits 3 0x3F ||| mbits 4 0xFF ||| mbits 5 0x7F ||| mb 6 30

/-- Every LEG command applies at a 1 ms audio window start (R127). -/
def legWhen (_ : Desc) (_ : M) : Option Boundary := some hubWindow

/-- A LEG command legal in some states. -/
def legSpec (opcode : Nat) (legal : List Nat) : CmdSpec :=
  { baseSpec opcode permMedia with
    obj := legObj
    late := fun d m => orFail (dieLate m false (oid d)) (firstFail [(!legal.contains (legState d m), stConflict, 0)])
    when := legWhen
    ostate := legState }

/-! ## LEG_DEFINE, LEG_MODIFY, LEG_DELETE -/

/-- The home die of a new leg: the named one, or the one that owns its port (R26, R28). -/
def legHome (d : Desc) : Nat := if oidDie (oid d) = 0 then pay d 1 1 / 16 else oidDie (oid d)

def freeLeg (m : M) (die : Nat) : Option Nat := firstBelow (fun i => (getLeg m (mkKey die i)).isNone) (imgLegs (img m) die)

def legDefine (d : Desc) (m : M) : M × Applied :=
  match freeLeg m (legHome d) with
  | none => (m, okReply 0)
  | some i =>
    let k := mkKey (legHome d) i
    let m1 := own (legOid k) (pathFn m d.path) { m with net.legs := tset m.net.legs k (legOf d) }
    (raise 0x0A01 3 (legOid k) [.u 2 (legId k), .u 1 0, .u 1 1, .u 1 0] m1, okDetail (legOid k) 0 1)

def legDefineSpec : CmdSpec :=
  { baseSpec 0x0A01 permMedia with
    mask := legMask
    obj := fun d m => oidOk m 9 true (oid d)
    fields := legRecBad none
    late := fun d m => orFail (dieLate m true (mkOid 9 (legHome d) 0)) (firstFail
      [(quotaFull m d 9, stResource, 9),
       ((freeLeg m (legHome d)).isNone, stResource, 0),
       (legClash d none m, stInvalid, 0x11E), (legChannelTaken d none m, stInvalid, 0x19)])
    when := legWhen
    ostate := fun _ _ => 0
    apply := legDefine }

def execLegDefine (d : Desc) (s : State) : Host.Outcome State Fault Refusal := lift (hostRow legDefineSpec d) s

/-- Bytes 0 to 2 and flags [0], [3], [4] and [5], which a restricted LEG_MODIFY leaves as they are (R127). -/
def legFixed (a b : Leg) : Bool :=
  a.transport == b.transport && a.port == b.port && a.secondary == b.secondary &&
  [0, 3, 4, 5].all fun i => bit a.flags i == bit b.flags i

/-- The record takes the place of the present one; what the leg is doing stays. -/
def legModify (d : Desc) (m : M) : M :=
  let n := legOf d
  updLeg (legOfD d) (fun l =>
    { n with state := l.state, queue := l.queue, silent := l.silent, lastRelease := l.lastRelease, drainAt := l.drainAt,
             armDev := l.armDev, drainDev := l.drainDev, rtcpAt := l.rtcpAt, rtcpGap := l.rtcpGap }) m

def legModifySpec : CmdSpec :=
  { legSpec 0x0A02 [1, 2, 3] with
    mask := legMask
    fields := fun d m => legRecBad (some (legOfD d)) d m
    late := fun d m => orFail (dieLate m false (oid d)) (firstFail
      [(match getLeg m (legOfD d) with
        | none => true
        | some l => l.state == 4 || (l.state != 1 && !legFixed l (legOf d)), stConflict, 0),
       (legClash d (some (legOfD d)) m, stInvalid, 0x11E), (legChannelTaken d (some (legOfD d)) m, stInvalid, 0x19)])
    apply := fun d m => (legModify d m, okReply (legState d m)) }

def execLegModify (d : Desc) (s : State) : Host.Outcome State Fault Refusal := lift (hostRow legModifySpec d) s

def legDeleteSpec : CmdSpec :=
  { legSpec 0x0A06 [1] with apply := fun d m => (legGone (legOfD d) 0 m, okDetail 0 1 0) }

def execLegDelete (d : Desc) (s : State) : Host.Outcome State Fault Refusal := lift (hostRow legDeleteSpec d) s

/-! ## LEG_ARM and LEG_DISARM -/

/-- The function whose grant a leg's queue comes from. -/
def legFn (m : M) (leg : Nat) : Nat := tget m.owner (legOid leg) 0

/-- A stream of the leg starts afresh: nothing released since the leg was armed. -/
def strmArm (now : Nat) (s : Strm) : Strm := { s with state := 1, released := false, lastRelease := now, mismatch := false }

/-- A leg's sender reports begin: one event entry each, while the die has one (R323). -/
def armSend (k : Nat) (m : M) : M :=
  match getSend m k, getLeg m (sendLeg k) with
  | some _, some l =>
    let made := !bit l.flags 2 || decide (eventUsed m (keyDie k) ≤ eventMax)
    let m1 := updSend k (fun x => { x with srAt := m.dev, srGap := if made then drawGap l.rtcpMs m else 2 ^ 63 }) (draw m)
    joinWait k (if made then m1 else eventFull (keyDie k) m1)
  | _, _ => m

/-- EV_LEG_STATE of a change a command makes. -/
def legCmdEvent (k old new : Nat) (m : M) : M :=
  raise 0x0A01 3 (legOid k) [.u 2 (legId k), .u 1 old, .u 1 new, .u 1 0] m

/-- The leg becomes ARMED: queue, estimate, learning, silence and reports begin anew. -/
def legArm (k : Nat) (m : M) : M :=
  match getLeg m k, freeQueue m (keyDie k) (legFn m k) with
  | some l, some q =>
    let now := m.dev
    let t := getTLeg m k
    let m1 := setTLeg k { t with auto := (getProfile m l.profile).start, prev := none, loss := 0, rtt := 0, sent := [], others := [],
                                 learnedAddr := 0, learnedPort := 0, destRaised := false } m
    let m2 := allocQueue (queueKey (keyDie k) q) k l m1
    let room := eventRoom m2 (keyDie k)
    let m3 := updLeg k (fun x =>
      { x with state := 2, queue := some q, silent := false, lastRelease := now, armDev := m.dev, rtcpAt := now,
               rtcpGap := if bit l.flags 2 && !room then 2 ^ 63 else drawGap l.rtcpMs m2 }) (draw m2)
    let m4 := if bit l.flags 2 && !room then eventFull (keyDie k) m3 else m3
    let m5 := (legStreams m4 k).foldl (fun x s => updStream s.1 (strmArm now) x) m4
    legCmdEvent k 1 2 ((legSends m5 k).foldl (fun x s => armSend s.1 x) m5)
  | _, _ => m

/-- Why LEG_ARM does not run beyond its queue and cache: no stream, detail bit 0; SRTP without a generation, bit 1. -/
def armBits (d : Desc) (m : M) : Nat :=
  match getLeg m (legOfD d) with
  | none => 0
  | some l => b2n (legStreams m (legOfD d)).isEmpty + 2 * b2n (legSrtp l && (getSlot m l.keySlot).cur.isNone)

def legArmSpec : CmdSpec :=
  { legSpec 0x0A03 [1] with
    late := fun d m => orFail (dieLate m false (oid d)) (firstFail
      [(legState d m == 1 && (freeQueue m (oidDie (oid d)) (legFn m (legOfD d))).isNone, stResource, 0),
       (legState d m == 1 && (cacheOver (updLeg (legOfD d) (fun x => { x with state := 2 }) m)).isSome, stResource, 0),
       (legState d m != 1, stConflict, 0),
       (armBits d m != 0, stConflict, armBits d m)])
    apply := fun d m => (legArm (legOfD d) m, okDetail 0 1 2) }

def execLegArm (d : Desc) (s : State) : Host.Outcome State Fault Refusal := lift (hostRow legArmSpec d) s

/-- What a queue holds, and the frames that ports have of it in service, are discarded and counted as packets of a leg that
does not carry. -/
def queueDiscard (leg : Nat) (m : M) : M :=
  match getLeg m leg with
  | none => m
  | some l => match legQueueKey leg l with
    | none => m
    | some qk => match getQueue m qk with
      | none => m
      | some q =>
        let m1 := (q.pkts ++ inFlight m qk).foldl (fun x p => countSend p.send 9 1 x) m
        updQueue qk (fun x => { x with pkts := [] }) m1

def legDisarm (k : Nat) (m : M) : M :=
  legCmdEvent k 2 1 (updLeg k (fun x => { x with state := 1 }) (legQueueFree k (queueDiscard k (legFlush k (mixersNow m)))))

def legDisarmSpec : CmdSpec :=
  { legSpec 0x0A04 [2] with apply := fun d m => (legDisarm (legOfD d) m, okDetail 0 2 1) }

def execLegDisarm (d : Desc) (s : State) : Host.Outcome State Fault Refusal := lift (hostRow legDisarmSpec d) s

/-! ## LEG_DRAIN (R129) -/

/-- The leg's ingress closes and its mixer contribution ends with the window before. -/
def legDrain (k : Nat) (m : M) : M :=
  let m1 := mixersNow m
  legCmdEvent k (match getLeg m k with | some l => l.state | none => 0) 4
    (updLeg k (fun x => { x with state := 4, drainAt := m.vault.mono, drainDev := m.dev }) m1)

def legDrainSpec : CmdSpec :=
  { legSpec 0x0A05 [2, 3] with
    apply := fun d m => (legDrain (legOfD d) m, okDetail 0 (legState d m) 4) }

def execLegDrain (d : Desc) (s : State) : Host.Outcome State Fault Refusal := lift (hostRow legDrainSpec d) s

/-- All streams of the leg hold no packet and its egress queue and flow are empty. -/
def legEmpty (leg : Nat) (l : Leg) (m : M) : Bool :=
  (legStreams m leg).all (fun s => s.2.held.isEmpty) &&
  (match legQueueKey leg l with
   | none => true
   | some qk => (match getQueue m qk with
     | none => true
     | some q => q.pkts.isEmpty && (inFlight m qk).isEmpty)) &&
  (match l.queue with
   | none => true
   | some q => let f := getFlow m (keyDie leg) q
     f.items.isEmpty && f.beyond.isEmpty)

/-- LEG_DRAIN_COMPLETE: a DRAINING leg that holds nothing more becomes ABSENT. -/
def drainComplete (die idx : Nat) (m : M) : M :=
  let k := mkKey die idx
  match getLeg m k with
  | some l => if l.state = 4 && legEmpty k l m then legGone k 2 m else m
  | none => m

def execLegDrainComplete (die idx : Nat) (s : State) : Host.Outcome State Fault Refusal := lift (drainComplete die idx) s

/-- LEG_DRAIN_LIMIT: drain_ms after the boundary, what remains is discarded and counted, and the leg becomes ABSENT. -/
def drainLimit (die idx : Nat) (m : M) : M :=
  let k := mkKey die idx
  match getLeg m k with
  | some l =>
    if l.state ≠ 4 || decide (m.vault.mono < l.drainAt + l.drainMs * 1000000) then m
    else
      let m1 := (legStreams m k).foldl (fun x s => countStrm s.1 9 s.2.held.length x) m
      legGone k 2 (queueDiscard k m1)
  | none => m

def execLegDrainLimit (die idx : Nat) (s : State) : Host.Outcome State Fault Refusal := lift (drainLimit die idx) s

end Sys2Proof.Machine
end

