-- ==== Sys2Proof/Machine/Streams.lean ====
section
/-!
DEFINITION. The commands of receive streams (R132) and of send streams (R293 to R295).
-/
namespace Sys2Proof.Machine

/-! ## Receive streams (Tables 06-4 and 06-5) -/

def rstrmObj (d : Desc) (m : M) : Bool := oidOk m 0xA false (oid d) && decide (oidIdx (oid d) < 4096)
def strmOfD (d : Desc) : Nat := oidKey (oid d)
def strmState (d : Desc) (m : M) : Nat := streamSt m (strmOfD d)

/-- The leg a stream command's slot belongs to. -/
def strmHome (d : Desc) : Nat := strmLeg (strmOfD d)

/-- A kind the leg's transport does not carry, or a second stream of kind 6 or 7. -/
def strmKindBad (d : Desc) (m : M) : Bool :=
  let n := pay d 0 1
  match getLeg m (strmHome d) with
  | none => decide (8 < n)
  | some l =>
    (match l.transport with
     | 0 => decide (5 < n)
     | 1 => !(n == 6 || n == 7)
     | _ => n != 8) ||
    ((n == 6 || n == 7) && (legStreams m (strmHome d)).any fun s => s.1 != strmOfD d && s.2.kind == n)

def strmFormatBad (kind format : Nat) : Bool :=
  match kind with
  | 0 => decide (3 < format)
  | 1 => !(decide (16 ≤ format) && decide (format ≤ 18))
  | 3 => decide (3 < format)
  | 7 => false
  | _ => format != 0

def strmChansBad (kind format chans : Nat) : Bool :=
  if kind = 3 || kind = 4 then
    chans == 0 || decide (64 < chans) || (kind == 3 && !bit format 1 && decide (8 < chans))
  else chans != 0

def strmFields (d : Desc) (m : M) : Option Nat :=
  let k := pay d 0 1
  let out (lo hi n : Nat) : Bool := decide (n < lo) || decide (hi < n)
  firstBad
    [(strmKindBad d m, off 0), (strmFormatBad k (pay d 2 1), off 2), (strmChansBad k (pay d 2 1) (pay d 3 1), off 3),
     (out 64 25000000 (pay d 8 4), off 8), (out 1518 16777216 (pay d 12 4), off 12), (decide (20000 < pay d 16 2), off 16),
     (out (pay d 16 2) 20000 (pay d 18 2), off 18),
     (if k = 2 || k = 6 then !formatOk (pay d 20 2) else pay d 20 2 != 0, off 20), (out 10 10000 (pay d 22 2), off 22)]

/-- Default level of a receive stream (Table 14-2). -/
def strmLevel (kind : Nat) : Nat :=
  match kind with
  | 3 => 1 | 7 => 1 | 0 => 2 | 2 => 3 | 5 => 3 | 6 => 3 | 4 => 4
  | _ => 6

/-- A stream as its definition gives it: IDLE, buckets full, nothing received. -/
def strmNew (d : Desc) (m : M) : Strm where
  state := 1
  kind := pay d 0 1
  pt := pay d 1 1 % 128
  learn := payBit d 1 7
  format := pay d 2 1
  channels := pay d 3 1
  ssrc := pay d 4 4
  kbps := pay d 8 4
  burst := pay d 12 4
  target := pay d 16 2
  early := pay d 18 2
  vfmt := pay d 20 2
  stallMs := pay d 22 2
  learned := none
  mismatch := false
  pathA := pathReset (pay d 12 4) (m.dev / 1000)
  pathB := pathReset (pay d 12 4) (m.dev / 1000)
  police := none
  top := none
  marks := 0
  staleRun := 0
  tsExt := none
  anchor := none
  anchorMin := none
  anchorAt := 0
  held := []
  base := none
  done := none
  lostAhead := []
  released := false
  lastRelease := m.dev
  roc := 0
  seqHigh := none
  srtcp := 0
  nacks := []
  pcm := []
  forward := []
  sync := { window := boundaryNo (formatWindow (pay d 20 2)) m.dev, fresh := none, current := none }
  sdiLast := []
  level := strmLevel (pay d 0 1)

/-- An SRTP leg's stream above the per-stream cipher rate (R150). -/
def strmOver (d : Desc) (m : M) : Bool :=
  match getLeg m (strmHome d) with
  | some l => legSrtp l && decide (rateLimit150 m (keyDie (strmHome d)) l.keySlot false < pay d 8 4)
  | none => false

/-- A stream of kind 0 finds no instance (R340). -/
def noInstance (d : Desc) (decode : Bool) (m : M) : Bool :=
  pay d 0 1 == 0 && (instEngine m (oidDie (oid d)) (pay d 2 1) decode).isNone

def netStreamDefineSpec : CmdSpec :=
  { baseSpec 0x0B02 permMedia with
    mask := mb 0 24
    names := fun d _ => [(legOid (strmHome d), off 0)]
    obj := rstrmObj
    fields := strmFields
    late := fun d m => orFail (dieLate m true (oid d)) (firstFail
      [(quotaFull m d 0xA, stResource, 0xA),
       (strmOver d m, stResource, 0x08),
       ((getLeg m (strmHome d)).isSome && noInstance d true m, stResource, 0x0C),
       ((getLeg m (strmHome d)).isNone, stConflict, 1),
       ((match getLeg m (strmHome d) with | some l => l.state != 1 | none => true) || strmState d m != 0, stConflict, 0)])
    when := netWhen
    ostate := strmState
    apply := fun d m =>
      let k := strmOfD d
      let m1 := own (oid d) (pathFn m d.path) { m with net.streams := tset m.net.streams k (strmNew d m) }
      (if pay d 0 1 = 0 then instNew k (pay d 2 1) m1 else m1, okDetail 0 0 1) }

def execNetStreamDefine (d : Desc) (s : State) : Host.Outcome State Fault Refusal := lift (hostRow netStreamDefineSpec d) s

/-- Bytes 0 to 7 of the payload are the stream's present ones. -/
def strmHeadSame (d : Desc) (s : Strm) : Bool :=
  pay d 0 1 == s.kind && pay d 1 1 == s.pt + 128 * b2n s.learn && pay d 2 1 == s.format && pay d 3 1 == s.channels &&
  pay d 4 4 == s.ssrc

/-- A change of bytes 0 to 7 needs another instance. -/
def strmMovesInst (d : Desc) (s : Strm) : Bool := !(s.kind == pay d 0 1 && (s.kind != 0 || s.format == pay d 2 1))

/-- The stream as modified: with another head it starts afresh; else what it received stays, and rate and burst apply from
the next refill step, the steps up to now having run at the old ones (R136). -/
def strmModify (d : Desc) (s : Strm) (m : M) : Strm :=
  if strmHeadSame d s then
    { strmRefill (m.dev / 1000) s with
             police := some (pay d 8 4, pay d 12 4), target := pay d 16 2, early := pay d 18 2, vfmt := pay d 20 2,
             stallMs := pay d 22 2,
             sync := if s.vfmt = pay d 20 2 then s.sync
                     else { s.sync with window := boundaryNo (formatWindow (pay d 20 2)) m.dev } }
  else { strmNew d m with sync := s.sync, level := if s.kind = pay d 0 1 then s.level else strmLevel (pay d 0 1) }

def netStreamModifySpec : CmdSpec :=
  { baseSpec 0x0B03 permMedia with
    mask := mb 0 24
    obj := rstrmObj
    fields := strmFields
    late := fun d m => orFail (dieLate m false (oid d)) (match getStrm m (strmOfD d), getLeg m (strmHome d) with
      | some s, some l => firstFail
        [(strmOver d m, stResource, 0x08),
         (strmMovesInst d s && noInstance d true (instGone (strmOfD d) m), stResource, 0x0C),
         (l.state == 4 || (l.state != 1 && !strmHeadSame d s), stConflict, 0)]
      | _, _ => some (stConflict, 0))
    when := netWhen
    ostate := strmState
    apply := fun d m =>
      match getStrm m (strmOfD d) with
      | none => (m, okReply 0)
      | some s =>
        let k := strmOfD d
        let m1 := updStream k (fun _ => strmModify d s m) m
        let m2 := if strmMovesInst d s then
            let g := instGone k m1
            if pay d 0 1 = 0 then instNew k (pay d 2 1) g else g
          else m1
        (m2, okDetail 0 s.state (streamSt m2 k)) }

def execNetStreamModify (d : Desc) (s : State) : Host.Outcome State Fault Refusal := lift (hostRow netStreamModifySpec d) s

/-- Streams are deleted while their leg is DEFINED. What referred to the stream goes with it and is recorded. -/
def netStreamDeleteSpec : CmdSpec :=
  { baseSpec 0x0B04 permMedia with
    obj := rstrmObj
    late := fun d m => orFail (dieLate m false (oid d)) (firstFail
      [(strmState d m == 0 || (match getLeg m (strmHome d) with | some l => l.state != 1 | none => true), stConflict, 0)])
    when := netWhen
    ostate := strmState
    apply := fun d m => (strmGone (strmOfD d) m, okDetail 0 (strmState d m) 0) }

def execNetStreamDelete (d : Desc) (s : State) : Host.Outcome State Fault Refusal := lift (hostRow netStreamDeleteSpec d) s

/-! ## Send streams (Table 13-3) -/

def sendObj (d : Desc) (m : M) : Bool := oidOk m 0xA false (oid d) && decide (4096 ≤ oidIdx (oid d))
def sendHome (d : Desc) : Nat := sendLeg (strmOfD d)
def sendSt (d : Desc) (m : M) : Nat := streamSt m (strmOfD d)

/-- A kind the leg does not take, or a second stream of kind 0 or 3 (R293). -/
def sendKindBad (d : Desc) (m : M) : Bool :=
  let n := pay d 0 1
  n == 5 || decide (6 < n) ||
  (match getLeg m (sendHome d) with
   | none => false
   | some l =>
     (match l.transport with
      | 0 => n == 6
      | 1 => true
      | _ => n != 6) ||
     ((n == 0 || n == 3) && (legSends m (sendHome d)).any fun s => s.1 != strmOfD d && (s.2.kind == 0 || s.2.kind == 3)))

def sendFormatBad (kind format : Nat) : Bool :=
  match kind with
  | 0 => decide (3 < format)
  | 1 => !(decide (16 ≤ format) && decide (format ≤ 18))
  | 2 => decide (2 < format)
  | 3 => decide (3 < format)
  | _ => format != 0

def sendParamBad (kind format param : Nat) : Bool :=
  match kind with
  | 0 => !(param == 10 || param == 20 || (format == 0 && (param == 40 || param == 60)))
  | 2 => !formatOk param
  | 6 => decide (param < 0x20) || decide (0x1FFE < param)
  | _ => param != 0

def sendRateBad (kind format param rate : Nat) : Bool :=
  match kind with
  | 0 => if format = 0 then decide (rate < 6) || decide (510 < rate) else rate != 64
  | 2 => decide ((formatRate param).2 * nsPerS < 2 * rate * (formatRate param).1)
  | 3 => rate != 0
  | _ => decide (rate < 64) || decide (25000000 < rate)

/-- The source of a kind 4 stream: a receive stream of kind 4 or 5. -/
def sendSourceBad (d : Desc) (m : M) : Bool :=
  if pay d 0 1 = 4 then
    !(oidOk m 0xA false (pay d 16 4) && decide (oidIdx (pay d 16 4) < 4096) &&
      (match getStrm m (oidKey (pay d 16 4)) with
       | some s => s.kind == 4 || s.kind == 5
       | none => false))
  else pay d 16 4 != 0

def sendFields (d : Desc) (m : M) : Option Nat :=
  let k := pay d 0 1
  let f := pay d 2 1
  firstBad
    [(sendKindBad d m, off 0), (payBit d 1 7, off 1), (sendFormatBad k f, off 2),
     (payBit d 3 0 && (match getLeg m (sendHome d) with | some l => l.transport != 0 || l.secondary == 0xFF | none => false), off 3),
     ((k == 2 || k == 3) && pay d 8 4 != 0, off 8), (sendParamBad k f (pay d 14 2), off 14), (sendSourceBad d m, off 16),
     (sendRateBad k f (pay d 14 2) (pay d 20 4), off 20)]

def sendMask : Nat := mb 0 3 ||| mbits 3 1 ||| mb 4 36

/-- Kinds that are bound from their definition. -/
def boundAtOnce (kind : Nat) : Bool := kind == 0 || kind == 3 || kind == 4

def sendLevel (kind : Nat) : Nat :=
  match kind with
  | 3 => 1 | 0 => 2 | 2 => 3 | 4 => 4
  | _ => 6

/-- A send stream as its definition gives it. -/
def sendNew (d : Desc) (m : M) : Send where
  state := if boundAtOnce (pay d 0 1) then 2 else 1
  kind := pay d 0 1
  pt := pay d 1 1
  format := pay d 2 1
  flags := pay d 3 1
  ssrc := pay d 4 4
  tsOffset := pay d 8 4
  seq0 := pay d 12 2
  param := pay d 14 2
  source := pay d 16 4
  rate := pay d 20 4
  alt := pay d 24 16
  next := pay d 12 2
  roc := 0
  feeder := none
  waiting := false
  ps := 0
  pt_ := 0
  ts_ := 0
  tt := 0
  frame := none
  raised := false
  upSince := none
  rtx := []
  srcq := []
  acc := []
  accAt := 0
  srAt := m.dev
  srGap := match getLeg m (sendHome d) with
    | some l => drawGap l.rtcpMs m
    | none => 0
  srtcp := 0
  sentPkts := 0
  sentBytes := 0
  paced := []
  psiAt := m.vault.mono
  pcrAt := m.vault.mono
  level := sendLevel (pay d 0 1)

/-- An SRTP leg's send stream above the per-stream cipher rate (R150, R295). -/
def sendOver (d : Desc) (m : M) : Bool :=
  match getLeg m (sendHome d) with
  | some l => legSrtp l && decide (rateLimit150 m (keyDie (sendHome d)) l.keySlot true * 1000 <
      sendBits (pay d 0 1) (pay d 2 1) (pay d 14 2) (pay d 20 4) (bit l.flags 0))
  | none => false

/-- The leg's state in which a send stream is defined. -/
def sendLegOpen (d : Desc) (m : M) : Bool := match getLeg m (sendHome d) with
  | some l => l.state == 1 || l.state == 2 || l.state == 3
  | none => false

def netSendDefineSpec : CmdSpec :=
  { baseSpec 0x0B05 permMedia with
    mask := sendMask
    names := fun d _ => (legOid (sendHome d), off 0) :: (if pay d 0 1 = 4 then [(pay d 16 4, off 16)] else [])
    obj := sendObj
    fields := sendFields
    late := fun d m => orFail (dieLate m true (oid d)) (firstFail
      [(quotaFull m d 0xA, stResource, 0xA),
       (sendOver d m, stResource, 0x08),
       ((getLeg m (sendHome d)).isSome && noInstance d false m, stResource, 0x0C),
       ((getLeg m (sendHome d)).isNone, stConflict, 1),
       (!sendLegOpen d m || sendSt d m != 0, stConflict, 0)])
    when := netWhen
    ostate := sendSt
    apply := fun d m =>
      let k := strmOfD d
      let x := sendNew d m
      let m1 := own (oid d) (pathFn m d.path) { draw m with snd.sends := tset m.snd.sends k x }
      (if x.kind = 0 then instNew k x.format m1 else m1, okDetail 0 0 x.state) }

def execNetSendDefine (d : Desc) (s : State) : Host.Outcome State Fault Refusal := lift (hostRow netSendDefineSpec d) s

/-- All but bytes 3 and 20 to 23 are as they are. -/
def sendSame (d : Desc) (s : Send) : Bool :=
  pay d 0 1 == s.kind && pay d 1 1 == s.pt && pay d 2 1 == s.format && pay d 4 4 == s.ssrc && pay d 8 4 == s.tsOffset &&
  pay d 12 2 == s.seq0 && pay d 14 2 == s.param && pay d 16 4 == s.source && pay d 24 16 == s.alt

/-- The stream is a direct output of a compositor under a guarded layer (R259). -/
def sendGuarded (d : Desc) (m : M) : Bool := match getSend m (strmOfD d) with
  | some s => (match s.feeder with
    | some o => oidCls o == 0xD && guarded (oidKey o) m
    | none => false)
  | none => false

/-- Setting flag [0] on a bound paced stream admits it on the secondary port too (R313). -/
def dualOver (d : Desc) (m : M) : Bool := match getSend m (strmOfD d), getLeg m (sendHome d) with
  | some s, some l =>
    s.kind == 2 && s.state == 2 && payBit d 3 0 && !bit s.flags 0 && !pacedFits m (strmOfD d) l.secondary s.param
  | _, _ => false

/-- The stream as modified. Its sequence starts again where seq0 changes. -/
def sendModify (d : Desc) (s : Send) (m : M) : Send :=
  if sendSame d s then { s with flags := pay d 3 1, rate := pay d 20 4 }
  else
    let x := sendNew d m
    if s.kind = x.kind && s.seq0 = x.seq0 then { x with next := s.next, roc := s.roc, srtcp := s.srtcp, level := s.level }
    else { x with srtcp := s.srtcp, level := if s.kind = x.kind then s.level else x.level }

def sendMovesInst (d : Desc) (s : Send) : Bool := !(s.kind == pay d 0 1 && (s.kind != 0 || s.format == pay d 2 1))

def netSendModifySpec : CmdSpec :=
  { baseSpec 0x0B06 permMedia with
    mask := sendMask
    names := fun d _ => if pay d 0 1 = 4 then [(pay d 16 4, off 16)] else []
    obj := sendObj
    fields := sendFields
    deny := fun d m => sendGuarded d m && (match getSend m (strmOfD d) with
      | some s => s.format != pay d 2 1 || s.param != pay d 14 2
      | none => false)
    late := fun d m => orFail (dieLate m false (oid d)) (match getSend m (strmOfD d) with
      | some s => firstFail
        [(sendOver d m, stResource, 0x08),
         (sendMovesInst d s && noInstance d false (instGone (strmOfD d) m), stResource, 0x0C),
         (dualOver d m, stResource, 0x0B),
         (s.state == 2 && !sendSame d s, stConflict, 0)]
      | none => some (stConflict, 0))
    when := netWhen
    ostate := sendSt
    apply := fun d m =>
      match getSend m (strmOfD d) with
      | none => (m, okReply 0)
      | some s =>
        let k := strmOfD d
        let m1 := updSend k (fun _ => sendModify d s m) (draw m)
        let m2 := if sendMovesInst d s then
            let g := instGone k m1
            if pay d 0 1 = 0 then instNew k (pay d 2 1) g else g
          else m1
        (m2, okDetail 0 s.state (streamSt m2 k)) }

def execNetSendModify (d : Desc) (s : State) : Host.Outcome State Fault Refusal := lift (hostRow netSendModifySpec d) s

def netSendDeleteSpec : CmdSpec :=
  { baseSpec 0x0B07 permMedia with
    obj := sendObj
    deny := sendGuarded
    late := fun d m => orFail (dieLate m false (oid d)) (firstFail [(sendSt d m == 0, stConflict, 0)])
    when := netWhen
    ostate := sendSt
    apply := fun d m => (sendGone (strmOfD d) m, okDetail 0 (sendSt d m) 0) }

def execNetSendDelete (d : Desc) (s : State) : Host.Outcome State Fault Refusal := lift (hostRow netSendDeleteSpec d) s

end Sys2Proof.Machine
end

