-- ==== Sys2Proof/Machine/LegMove.lean ====
section
/-!
DEFINITION. LEG_MOVE (R131): a leg takes another home die with its streams, and every reference to it follows.
-/
namespace Sys2Proof.Machine

/-- A move: the leg's old and new key. -/
structure Move where
  old : Nat
  new : Nat
deriving DecidableEq, Repr

/-! ## Names under a move -/

def mvLeg (v : Move) (k : Nat) : Nat := if k = v.old then v.new else k

/-- A stream keeps its slot. -/
def mvStrm (v : Move) (k : Nat) : Nat :=
  let base := if keyIdx k < 4096 then 0 else 4096
  if keyDie k = keyDie v.old && (keyIdx k - base) / 4 = keyIdx v.old then
    mkKey (keyDie v.new) (base + keyIdx v.new * 4 + keyIdx k % 4)
  else k

def mvOid (v : Move) (o : Nat) : Nat :=
  if oidCls o = 9 then (if oidKey o = v.old then legOid v.new else o)
  else if oidCls o = 0xA then strmOid (mvStrm v (oidKey o))
  else o

/-- A source reference to a channel of a moved stream. -/
def mvSrc (v : Move) (r : Nat) : Nat :=
  if srcKind r = 1 && mvStrm v (srcStrm r) != srcStrm r then
    let k := mvStrm v (srcStrm r)
    2 ^ 28 + keyDie k * 2 ^ 25 + keyIdx k * 2 ^ 12 + srcChan r
  else r

/-- The same entries under other keys. -/
def rekey {α : Type} (f : Nat → Nat) (t : Tbl α) : Tbl α := t.foldl (fun a x => tset a (f x.1) x.2) []

/-! ## Legs, streams and departure -/

def mvEPkt (v : Move) (p : EPkt) : EPkt := { p with send := mvStrm v p.send }

def mvBody (v : Move) (b : FBody) : FBody := match b with
  | .pkt p => .pkt (mvEPkt v p)
  | .dsp s ts x => .dsp (mvStrm v s) ts x
  | .plain => .plain

def mvItem (v : Move) (i : FItem) : FItem := { i with body := mvBody v i.body }
def mvFlow (v : Move) (f : OFlow) : OFlow := { f with items := f.items.map (mvItem v), beyond := f.beyond.map (mvItem v) }

/-- The leg, its streams, its settings and every entry that names them. -/
def mvNet (v : Move) (m : M) : M :=
  let sk := mvStrm v
  { m with
    net.legs := rekey (mvLeg v) m.net.legs,
    net.streams := rekey sk m.net.streams,
    snd.sends := rekey sk (tmap m.snd.sends fun _ s =>
      { s with source := mvOid v s.source, rtx := s.rtx.map fun r => { r with pkt := mvEPkt v r.pkt } }),
    snd.legs := rekey (mvLeg v) m.snd.legs,
    snd.fwds := tmap m.snd.fwds fun _ f => { f with source := mvOid v f.source, members := f.members.map sk },
    snd.rates := m.snd.rates.map fun r => { r with source := mvOid v r.source },
    auth := rekey (mvLeg v) m.auth,
    owner := rekey (mvOid v) m.owner,
    key.ops := m.key.ops.map fun o =>
      if o.leg = v.old then
        { o with die := keyDie v.new, leg := v.new, stream := sk o.stream, pipe := leastPipe m (keyDie v.new),
                 st := if o.st = 2 then 2 else 0,
                 waiting := o.st != 2 && o.gen != 0 && !cached m (keyDie v.new) o.slot o.gen }
      else o,
    tsk.parked := m.tsk.parked.map fun t =>
      if (t.2.1 = 1 && t.2.2 = v.old) || (t.2.1 = 2 && sk t.2.2 != t.2.2) then
        (keyDie v.new, t.2.1, if t.2.1 = 1 then v.new else sk t.2.2)
      else t }

/-- Contexts, compositors and signal engines that name a moved stream stay on their dies and name it anew. -/
def mvUsers (v : Move) (m : M) : M :=
  let sk := mvStrm v
  let set (x : CmpSet) : CmpSet :=
    { x with layers := tmap x.layers fun _ l => { l with source := if l.kind = 1 then mvOid v l.source else l.source },
             outputs := tmap x.outputs fun _ o => if o.1 = 2 then (2, sk o.2) else o }
  { m with
    cod.ctxs := tmap m.cod.ctxs fun _ c => { c with stream := sk c.stream },
    enc.encs := tmap m.enc.encs fun _ e => { e with send := sk e.send, source := mvOid v e.source },
    cmp.comps := tmap m.cmp.comps fun _ c => { c with staged := set c.staged, force := set c.force, captured := c.captured.map set },
    dsp.engines := tmap m.dsp.engines fun _ e =>
      { e with hand := e.hand.map (fun h => (h.1, { h.2 with stream := sk h.2.stream })),
               ports := tmap e.ports fun _ p => { p with inputs := p.inputs.map (mvSrc v) } } }

/-- The egress queue moves with what it holds, and with its ordered flow. -/
def mvQueue (v : Move) (q q1 : Nat) (m : M) : M :=
  let a := queueKey (keyDie v.old) q
  let b := queueKey (keyDie v.new) q1
  match getQueue m a with
  | none => m
  | some x =>
    let m1 := clearQueueHist b { m with
      snd.queues := tset (tdel m.snd.queues a) b
        { x with leg := v.new, pkts := x.pkts.map (mvEPkt v), tagA := tagReset, tagB := tagReset },
      tsk.flows := tset (tdel m.tsk.flows (flowKey (keyDie v.old) q)) (flowKey (keyDie v.new) q1)
        (mvFlow v (getFlow m (keyDie v.old) q)) }
    busyRekey a b (mvEPkt v) <| updLeg v.new (fun l => { l with queue := some q1 }) m1

/-! ## Instances (R340) -/

/-- Kind 0 streams of a leg: key and codec. -/
def legInsts (m : M) (leg : Nat) : List (Nat × Nat) :=
  ((legStreams m leg).filter fun s => s.2.kind == 0).map (fun s => (s.1, s.2.format)) ++
  ((legSends m leg).filter fun s => s.2.kind == 0).map fun s => (s.1, s.2.format)

/-- The flow of an encode instance (Table 14-3). -/
def instFlow (i : Inst) : Nat := 2048 + 64 * i.engine + i.slot.getD 0

/-- Place instances one after another under the keys given; `none` when one finds no engine. -/
def placeInsts : List (Nat × Nat) → M → Option M
  | [], m => some m
  | (k, codec) :: r, m =>
    if (instEngine m (keyDie k) codec (decide (keyIdx k < 4096))).isNone then none else placeInsts r (instNew k codec m)

/-- The streams' tasks go to the new die, an encode instance's flow with them. -/
def mvTasks (v : Move) (k : Nat) (old : Option Inst) (m : M) : M :=
  let k1 := mvStrm v k
  let fk (i : Inst) (die : Nat) : Nat := flowKey die (instFlow i)
  let flow : Option (Nat × Nat) := match old, tget? m.dsp.insts k1 with
    | some i, some j => if keyIdx k < 4096 then none else some (fk i (keyDie v.old), fk j (keyDie v.new))
    | _, _ => none
  let task (t : DTask) : DTask :=
    { t with stream := k1, flow := match flow with | some f => (if t.flow = f.1 then f.2 else t.flow) | none => t.flow }
  let mine := (tget m.tsk.ready (keyDie v.old) []).filter fun t => t.stream == k
  let m1 := { m with
    tsk.ready := tset (tset m.tsk.ready (keyDie v.old) ((tget m.tsk.ready (keyDie v.old) []).filter fun t => t.stream != k))
      (keyDie v.new) (tget m.tsk.ready (keyDie v.new) [] ++ mine.map task),
    dsp.engines := tmap m.dsp.engines fun _ e =>
      { e with hand := e.hand.map (fun h => if h.2.stream = k1 then (h.1, task h.2) else h) } }
  match flow with
  | none => m1
  | some f => { m1 with tsk.flows := match tget? m1.tsk.flows f.1 with
      | some x => tset (tdel m1.tsk.flows f.1) f.2 (mvFlow v x)
      | none => m1.tsk.flows }

/-- The instances of a leg's streams are re-placed. -/
def mvInsts (v : Move) (ks : List (Nat × Nat)) (m : M) : M :=
  let olds := ks.map fun x => (x.1, tget? m.dsp.insts x.1)
  let m1 := { m with dsp.insts := m.dsp.insts.filter fun i => !(ks.any fun x => x.1 == i.1) }
  let m2 := (placeInsts (ks.map fun x => (mvStrm v x.1, x.2)) m1).getD m1
  olds.foldl (fun x o => mvTasks v o.1 o.2 x) m2

/-! ## The mixer -/

/-- Crosspoints of the leg's streams, on the old die. -/
def legXps (m : M) (leg : Nat) : List (Nat × Xp) :=
  m.mix.xps.filter fun x => srcKind x.2.source == 1 && srcLeg x.2.source == leg

/-- A crosspoint goes to the new die at its lowest free index. -/
def mvXp (v : Move) (k : Nat) (x : Xp) (m : M) : M :=
  let die := keyDie v.new
  let t := tdel m.mix.xps k
  match firstBelow (fun i => (tget? t (xpKey die i)).isNone) 16384 with
  | some i => { m with mix.xps := tset t (xpKey die i) { x with source := mvSrc v x.source } }
  | none => m

def mvOwner (v : Move) (p : XpPar) : XpPar := { p with owner := p.owner.map (mvLeg v) }

/-- A leg output's blocks fit the new die's window. -/
def mvLegOut (same : Bool) (n : Nat) (o : LegOut) : LegOut :=
  if same then o else { o with block := [], last := padTo n (o.last.take n) }

/-- Crosspoints, owners, overlays, leg output, products and totals: the new die goes on with what the old one had. -/
def mvMixer (v : Move) (m : M) : M :=
  let same := dieWindow (img m) (keyDie v.old) == dieWindow (img m) (keyDie v.new)
  let n := if dieWindow (img m) (keyDie v.new) = 250000 then 12 else 48
  let cut (b : LegBank) : LegBank := { b with ov := tmap b.ov fun _ o => { o with source := mvSrc v o.source } }
  let own (l : List (Nat × List Int)) : List (Nat × List Int) := l.map fun o => (mvLeg v o.1, o.2)
  let m1 := (legXps m v.old).foldl (fun x k => mvXp v k.1 k.2 x) m
  { m1 with
    mix.xps := tmap m1.mix.xps fun _ x => { x with act := x.act.map (mvOwner v), ina := x.ina.map (mvOwner v) },
    mix.legs := rekey (mvLeg v) (tmap m1.mix.legs fun k l =>
      let y := if k = v.old then mvLegOut same n l else l
      { y with act := cut y.act, ina := cut y.ina }),
    mix.partials := m1.mix.partials.map fun p => { p with owned := own p.owned },
    mix.totals := m1.mix.totals.map fun (t : Total) =>
      { t with owned := own t.owned,
               at_ := if t.at_.contains (keyDie v.old) && !t.at_.contains (keyDie v.new) then t.at_ ++ [keyDie v.new] else t.at_ },
    mix.srcs := rekey (mvSrc v) (tmap m1.mix.srcs fun r s =>
      if mvSrc v r != r && !same then { s with block := [], win := none } else s) }

/-! ## Frames in the pool -/

/-- A frame of a moved stream is written to the new die's pool, and leaves the old one's. -/
def mvFrame (v : Move) (n : Option Nat) (m : M) : M × Option Nat :=
  match n.bind (getBuf m (keyDie v.old)), n with
  | some b, some i =>
    let m1 := outDrop (keyDie v.old) i m
    match spareDesc m1 (keyDie v.new) b.width b.height b.format with
    | some j => (addBuf (keyDie v.new) j { b with out := true, cmpHold := 0, encRef := 0 } m1, some j)
    | none => (m1, none)
  | _, _ => (m, none)

def mvSync (v : Move) (k : Nat) (m : M) : M :=
  match getStrm m k with
  | none => m
  | some s =>
    let a := mvFrame v s.sync.fresh m
    let b := mvFrame v s.sync.current a.1
    updStream k (fun x => { x with sync := { x.sync with fresh := a.2, current := b.2 } }) b.1

/-! ## The command -/

def moveDie (d : Desc) : Nat := pay d 0 1

/-- The new local index: the one named, or the lowest free one. -/
def moveIdx (d : Desc) (m : M) : Option Nat :=
  if pay d 2 2 = 0xFFFF then freeLeg m (moveDie d)
  else if (getLeg m (mkKey (moveDie d) (pay d 2 2))).isNone then some (pay d 2 2) else none

/-- The leg finds a queue of its function's grant on the destination, when it holds one. -/
def moveQueue (d : Desc) (m : M) : Bool :=
  legState d m == 1 || (freeQueue m (moveDie d) (legFn m (legOfD d))).isSome

/-- The destination mixer keeps its declared numbers (R71). -/
def moveMixer (d : Desc) (m : M) : Bool :=
  let xs := (legXps m (legOfD d)).length
  decide (xs = 0 || (dieXps m (moveDie d)).length + xs ≤ declX m (moveDie d)) &&
  decide ((getLegOut m (legOfD d)).isNone || legOutCount m (moveDie d) + 1 ≤ declL m (moveDie d))

/-- The destination's engines take the leg's instances (R340). -/
def moveInsts (d : Desc) (m : M) : Bool :=
  match moveIdx d m with
  | none => true
  | some i =>
    let v : Move := { old := legOfD d, new := mkKey (moveDie d) i }
    let ks := legInsts m (legOfD d)
    (placeInsts (ks.map fun x => (mvStrm v x.1, x.2)) m).isSome

def legMove (v : Move) (m : M) : M :=
  let q1 := freeQueue m (keyDie v.new) (legFn m v.old)
  let ks := legInsts m v.old
  let m0 := mvInsts v ks (mvUsers v (mvNet v (mvMixer v (mixersNow m))))
  let m1 := serveDie (keyDie v.new) (serveDie (keyDie v.old) m0)
  let m2 := match (getLeg m v.old).bind Leg.queue, q1 with
    | some q, some q2 => mvQueue v q q2 m1
    | _, _ => m1
  let m3 := (legStreams m2 v.new).foldl (fun x s => mvSync v s.1 x) m2
  raise 0x0A03 2 (legOid v.new) [.u 2 (legId v.old), .u 2 (legId v.new), .u 4 (m.dev / 1000000 % 2 ^ 32)] m3

/-- The audio window of the destination is longer than the exchange window of a bus on which the leg has crosspoints or its
output stands (R217). -/
def moveWindow (d : Desc) (m : M) : Bool :=
  let longer (b : Option Nat) : Bool := match b with
    | some x => windowOver m (moveDie d) x
    | none => false
  (legXps m (legOfD d)).any (fun x => longer (some x.2.bus)) || (match getLegOut m (legOfD d) with
    | some x => longer (bankPar x.act).bus || longer (bankPar x.ina).bus || longer x.bus || x.busNext.any fun c => longer c.2
    | none => false)

def legMoveSpec : CmdSpec :=
  { legSpec 0x0A07 [1, 2, 3] with
    mask := mb 0 1 ||| mb 2 2
    fields := fun d m => firstBad
      [(moveDie d == oidDie (oid d) || moveDie d == 0 || decide (m.part.media < moveDie d), off 0),
       (pay d 2 2 != 0xFFFF && decide (imgLegs (img m) (moveDie d) ≤ pay d 2 2), off 2),
       (moveWindow d m, off 0)]
    late := fun d m =>
      let legal := [1, 2, 3].contains (legState d m)
      orFail (dieLate m false (oid d)) (orFail
        (firstFail
          [(legal && (moveIdx d m).isNone, stResource, 0), (legal && !moveQueue d m, stResource, 0),
           (legal && !moveMixer d m, stResource, 0), (legal && !moveInsts d m, stResource, 0x0C)])
        (orFail (dieLate m true (mkOid 9 (moveDie d) 0)) (firstFail [(!legal, stConflict, 0)])))
    plainNow := fun d _ => same (legId (legOfD d))
    apply := fun d m =>
      match moveIdx d m with
      | none => (m, okReply 0)
      | some i =>
        let v : Move := { old := legOfD d, new := mkKey (moveDie d) i }
        (legMove v m, .done { status := stOK, detail := legOid v.new, plain := some (legId v.old, legId v.new),
                              before := legState d m, after := legState d m }) }

def execLegMove (d : Desc) (s : State) : Host.Outcome State Fault Refusal := lift (hostRow legMoveSpec d) s

end Sys2Proof.Machine
end

