-- ==== Sys2Proof/Machine/Fold.lean ====
section
/-!
DEFINITION. Fold links: their paths (R17, R18), links that go DOWN and come back (R21), and the loss of a media die (R23).
-/
namespace Sys2Proof.Machine

/-- Unit code of the Fold switch and link monitors (Table 05-5). -/
def foldUnit : Nat := 6

/-- A link that is present; its states are 1 TRAINING, 2 UP, 3 DOWN. -/
def getLink (m : M) (l : Nat) : Option FoldLink := tget? m.fold l
def updLink (l : Nat) (f : FoldLink → FoldLink) (m : M) : M := { m with fold := tupd m.fold l f }

def linkReset : FoldLink :=
  { state := 2, rerouted := false, retrainSpent := false, load := 0, downAt := 0, trainAt := 0, retry := [] }

/-- Links of a part with so many media dies, with their ends (Table 01-3). -/
def linkEnds (media l : Nat) : Option (Nat × Nat) :=
  if l < media then some (0, l + 1)
  else if 7 ≤ l && decide (l < 7 + media) && decide (1 < media) then some (l - 6, (l - 6) % media + 1)
  else none

def linksOf (media : Nat) : List Nat := (List.range 14).filter fun l => (linkEnds media l).isSome

/-! ## Paths (R18) -/

/-- A die that is lost or held. -/
def dieOut (m : M) (d : Nat) : Bool := d != 0 && (dieState m d == 3 || dieState m d == 4)

/-- A link carries traffic: UP, with no lost or held die at an end. -/
def linkCarries (m : M) (l : Nat) : Bool :=
  match getLink m l, linkEnds m.part.media l with
  | some x, some e => x.state == 2 && !dieOut m e.1 && !dieOut m e.2
  | _, _ => false

/-- The ring link between two neighbours. -/
def ringLink (m : M) (a b : Nat) : Option Nat := (linksOf m.part.media).find? fun l =>
  decide (7 ≤ l) && (linkEnds m.part.media l == some (a, b) || linkEnds m.part.media l == some (b, a))

/-- Neighbours of a die on the ring, ascending or descending. -/
def ringNext (n x : Nat) (up : Bool) : Nat := if up then x % n + 1 else (x + n - 2) % n + 1

/-- Links around the ring in one direction, when all carry traffic. -/
def ringWalk (m : M) (b : Nat) (up : Bool) : Nat → Nat → Option (List Nat)
  | 0, x => if x = b then some [] else none
  | n + 1, x =>
    if x = b then some []
    else
      let y := ringNext m.part.media x up
      match ringLink m x y with
      | some l => if linkCarries m l then (ringWalk m b up n y).map (l :: ·) else none
      | none => none

/-- Around the ring the shorter way, at equal lengths in ascending die order. Between neighbours, whose own link is DOWN, one
way is left (DEDUCED, log 112). -/
def ringPath (m : M) (a b : Nat) : Option (List Nat) :=
  let n := m.part.media
  if n < 2 then none
  else
    let f := (b + n - a) % n
    ringWalk m b (decide (f ≤ n - f) != (ringLink m a b).isSome) n a

/-- From a media die to the hub: its own link, or through a ring neighbour, the lower number first. -/
def hubPath (m : M) (d : Nat) : Option (List Nat) :=
  if linkCarries m (d - 1) then some [d - 1]
  else if m.part.media < 2 then none
  else
    let a := ringNext m.part.media d true
    let b := ringNext m.part.media d false
    let through (x : Nat) : Option (List Nat) := match ringLink m d x with
      | some l => if linkCarries m l && linkCarries m (x - 1) then some [l, x - 1] else none
      | none => none
    match through (if a < b then a else b) with
    | some p => some p
    | none => through (if a < b then b else a)

/-- A path under search: the dies passed and the links, newest first. -/
abbrev Walk := List Nat × List Nat

/-- Walks longer by one link to a die not yet passed. -/
def walkMore (m : M) (w : Walk) : List Walk :=
  let x := w.1.headD 0
  (linksOf m.part.media).filterMap fun l => match linkEnds m.part.media l with
    | some e =>
      let y := if e.1 = x then e.2 else e.1
      if (e.1 = x || e.2 = x) && linkCarries m l && !w.1.contains y then some (y :: w.1, l :: w.2) else none
    | none => none

/-- The first list is lower at the first place where they differ. -/
def lowerList : List Nat → List Nat → Bool
  | a :: as, b :: bs => if a = b then lowerList as bs else decide (a < b)
  | _, _ => false

/-- Any path of links that carry traffic: the fewest links, then the lower list of dies. -/
def searchPath (m : M) (b : Nat) : Nat → List Walk → Option (List Nat)
  | 0, _ => none
  | n + 1, ws =>
    match (ws.filter fun w => w.1.head? == some b).foldl (fun a w =>
      match a with
      | none => some w
      | some v => if lowerList w.1.reverse v.1.reverse then some w else some v) (none : Option Walk) with
    | some w => some w.2.reverse
    | none => searchPath m b n (ws.flatMap (walkMore m))

/-- The path of a transfer: its links in order. -/
def foldPath (m : M) (a b : Nat) : Option (List Nat) :=
  let any := searchPath m b 8 [([a], [])]
  if a = b then some []
  else if a = 0 || b = 0 then
    match hubPath m (a + b) with
    | some p => some (if a = 0 then p.reverse else p)
    | none => any
  else
    match ringLink m a b with
    | some l =>
      if linkCarries m l then some [l] else match ringPath m a b with
        | some p => some p
        | none => any
    | none =>
      if linkCarries m (a - 1) && linkCarries m (b - 1) then some [a - 1, b - 1]
      else match ringPath m a b with
        | some p => some p
        | none => any

def reachable (m : M) (d : Nat) : Bool := (foldPath m 0 d).isSome

/-- Links that carry what went over a link. -/
def replacement (m : M) (l : Nat) : List Nat :=
  match linkEnds m.part.media l with
  | some e => (foldPath m e.1 e.2).getD []
  | none => []

/-- The rerouted flags follow every change of a link or a die. -/
def foldFlags (m : M) : M :=
  { m with fold := tmap m.fold fun l x =>
      { x with rerouted := (x.state == 1 || x.state == 3) && !(replacement m l).isEmpty } }

/-! ## The loss of a die (R23) -/

/-- A re-structure of the die ends with the loss: TIMEOUT, with the failing step (R77). -/
def restLost (d : Nat) (m : M) : M :=
  match m.syn.rest with
  | some r =>
    if r.die = d then
      finish r.d false (reply stTimeout ((if r.rollback then r.failStep else r.step) * 2 ^ 40) 0xFF)
        { m with syn.rest := none }
    else m
  | none => m

/-- The last link to go DOWN; where no link did, the value is free (R24). -/
def lossLink (link : Option Nat) (m : M) : Nat := link.getD (Config.freeNat m.drawn % 256)

/-- The die is held in reset and its lanes are idle; its objects are gone. -/
def dieLost (d : Nat) (link : Option Nat) (m : M) : M :=
  let m1 := announce foldUnit 0x0D02 0 (infraOid d) [.u 1 d, .u 1 (lossLink link m)] 0 (setDieState d 3 (draw m))
  foldFlags (restLost d (dieGone d false m1))

/-- Every media die that no path reaches any longer is lost, one after another. -/
def lossCheck (link : Nat) : Nat → M → M
  | 0, m => m
  | n + 1, m =>
    match (mediaDies m).find? fun d => (dieState m d == 1 || dieState m d == 2) && !reachable m d with
    | some d => lossCheck link n (dieLost d (some link) m)
    | none => m

/-! ## Links -/

/-- Bit mask of links. -/
def linkMask (ls : List Nat) : Nat := (ls.eraseDups.map fun l => 2 ^ l).sum

/-- A link is declared DOWN (cause 0 no acknowledge, 1 integrity). -/
def linkGone (l cause : Nat) (m : M) : M :=
  match getLink m l with
  | none => m
  | some x =>
    if x.state ≠ 2 then m
    else
      let m1 := foldFlags (count .foldDown 0 l 0
        (updLink l (fun y => { y with state := 3, downAt := m.vault.mono }) m))
      lossCheck l 7 (announce foldUnit 0x0D03 1 (infraOid 0) [.u 1 l, .u 1 cause, .u 2 (linkMask (replacement m1 l))] 0 m1)

/-- FOLD_RETRAIN_START: the one attempt of a link, 100 ms after it went DOWN. -/
def retrainStart (l : Nat) (m : M) : M :=
  match getLink m l with
  | none => m
  | some x =>
    if x.state ≠ 3 || x.retrainSpent || decide (m.vault.mono < x.downAt + 100000000) then m
    else foldFlags (updLink l (fun y => { y with state := 1, retrainSpent := true, trainAt := m.vault.mono }) m)

def execFoldRetrainStart (link : Nat) (s : State) : Host.Outcome State Fault Refusal := lift (retrainStart link) s

/-- FOLD_RETRAIN_END: the attempt ends, after 20 ms at most; with a die at an end lost or held it fails. -/
def retrainEnd (l : Nat) (ok : Bool) (m : M) : M :=
  match getLink m l, linkEnds m.part.media l with
  | some x, some e =>
    if x.state ≠ 1 then m
    else
      let late := decide (x.trainAt + 20000000 < m.vault.mono)
      if ok && !late && !dieOut m e.1 && !dieOut m e.2 then
        announce foldUnit 0x0D04 3 (infraOid 0) [.u 1 l] 0 (foldFlags (updLink l (fun y => { y with state := 2 }) m))
      else foldFlags (count .foldDown 0 l 0 (updLink l (fun y => { y with state := 3 }) m))
  | _, _ => m

def execFoldRetrainEnd (link : Nat) (ok : Bool) (s : State) : Host.Outcome State Fault Refusal := lift (retrainEnd link ok) s

end Sys2Proof.Machine
end

