-- ==== Sys2Proof/Machine/Mem.lean ====
section
/-!
DEFINITION. The GDDR6 controllers (chapter 16): training, refresh and temperature, activation tracking and throttles,
uncorrectable reads, and the memory commands.
-/
namespace Sys2Proof.Machine

/-! ## Channels (R368 to R373) -/

def memKey (die ch : Nat) : Nat := die * 8 + ch
def getChan (m : M) (k : Nat) : Option MemChan := tget? m.mem.chans k
def updChan (k : Nat) (f : MemChan → MemChan) (m : M) : M := { m with mem.chans := tupd m.mem.chans k f }

/-- Unit of a die's controller (Table 05-5). -/
def memUnit (die : Nat) : Nat := unitPath die (if die = 0 then 0xC else 0x43)

/-- MEM_CH_CNT: 0 edc_retry, 1 edc_fail, 2 ecc_corrected, 3 ecc_uncorrected, 4 neighbour refreshes, 5 throttles. -/
def countMem (die ch k n : Nat) (m : M) : M := cntAdd { reg := .memCh, i := die, j := ch, k := k } n m

/-- A channel as its training leaves it (R371, R372): a cause of Table 16-7, and a pin of its numbering. -/
def chanOf (target now : Nat) (r : ChanResult) : MemChan :=
  { state := if !r.present then 0 else if r.cause ≠ 0 then 3 else 2,
    rate := if r.present && r.cause = 0 then (if r.bestRate < target then r.bestRate else target) else 0,
    density16 := r.density16, mirrored := r.mirrored, byteSwap := r.byteSwap, cause := hold 4 r.cause,
    pin := if r.cause = 0 then 0 else hold 29 r.pin,
    temp := 0, swizzle := r.swizzle, rotor := 0, lastRefresh := now, hot := false }

/-- EV_MEM_CHANNEL of a channel that is disabled or below its target. -/
def chanEvent (die target : Nat) (k : Nat) (c : MemChan) (m : M) : M :=
  if c.state = 3 || (c.state = 2 && c.rate < target) then
    raise 0x1603 1 (infraOid die) [.u 1 (k % 8), .u 1 c.state, .u 1 c.rate, .u 1 c.cause, .u 1 c.pin] m
  else m

/-- Channels of a die, two to a device: three devices on a media die, one on the hub (R1). -/
def chanMax (die : Nat) : Nat := if die = 0 then 2 else 6

/-- A device's two channels share its density and mirroring; the hub's device is of 16 Gbit (R368). -/
def deviceOf (die : Nat) (l : List ChanResult) : List ChanResult := match l with
  | a :: b :: r =>
    let d := a.density16 || die == 0
    { a with density16 := d } :: { b with density16 := d, mirrored := a.mirrored } :: deviceOf die r
  | [a] => [{ a with density16 := a.density16 || die == 0 }]
  | [] => []

/-- Full training of every channel of a die; each channel's trackers begin. -/
def memTrain (die : Nat) (all : List ChanResult) (m : M) : M :=
  let t := m.mem.rateTarget
  let rs := deviceOf die (all.take (chanMax die))
  let cs := rs.zipIdx.map fun r => (memKey die r.2, chanOf t m.vault.mono r.1)
  let m1 := { m with
    mem.chans := cs.foldl (fun a c => tset a c.1 c.2) (m.mem.chans.filter fun c => c.1 / 8 != die),
    mem.trackers := m.mem.trackers.filter fun x => x.1 / 128 != die,
    mem.throttles := m.mem.throttles.filter fun x => x.1 / 8 != die }
  cs.foldl (fun x c => chanEvent die t c.1 c.2 x) m1


/-- A channel disabled, or usable below the target: the start is degraded (R372). -/
def memDegraded (m : M) (die : Nat) : Bool := m.mem.chans.any fun c =>
  c.1 / 8 == die && (c.2.state == 3 || (c.2.state == 2 && decide (c.2.rate < m.mem.rateTarget)))

/-- Usable memory in MiB (R369). -/
def usableMib (m : M) (die : Nat) : Nat := ((usableChans m die).map fun c => if c.2.density16 then 1024 else 512).sum

def poolEccOn (m : M) (die : Nat) : Bool := tget m.mem.poolEcc die false

/-- Pool memory in KiB (R204, R369). -/
def poolKib (m : M) (die : Nat) : Nat :=
  let n := (usableMib m die - 1536) * 1024
  if poolEccOn m die then n * 15 / 16 else n

def poolSize (die : Nat) (m : M) : M := setPool die { getPool m die with totalKib := poolKib m die } m

/-! ## Refresh and temperature (R377) -/

/-- MEM_REFRESH: the next bank in rotation. -/
def memRefresh (die ch : Nat) (m : M) : M :=
  updChan (memKey die ch) (fun c =>
    if c.state = 2 then { c with rotor := (c.rotor + 1) % 16, lastRefresh := m.vault.mono } else c) m

def execMemRefresh (die ch : Nat) (s : State) : Host.Outcome State Fault Refusal := lift (memRefresh die ch) s

def tkTemp (die device : Nat) : Nat := 0x200 + die * 4 + device

/-- MEM_TEMP_READ: a device's temperature, every 10 ms; above 95 °C its refresh period is 16 ms. -/
def memTemp (die device : Nat) (celsius : Int) (m : M) : M :=
  if !tickOpen m (tkTemp die device) 10000000 then m
  else
    let f (c : MemChan) : MemChan :=
      if c.state = 2 then { c with temp := hold 255 celsius.toNat, hot := decide (95 < celsius) } else c
    updChan (memKey die (2 * device + 1)) f (updChan (memKey die (2 * device)) f (tickMark (tkTemp die device) 10000000 m))

def execMemTempRead (die device : Nat) (celsius : Int) (s : State) : Host.Outcome State Fault Refusal :=
  lift (memTemp die device celsius) s

/-- Refresh period of a channel in ns. -/
def refreshPeriod (c : MemChan) : Nat := if c.hot then 16000000 else 32000000

/-! ## Activation tracking (R378, R379) -/

def trackKey (die ch bank : Nat) : Nat := memKey die ch * 16 + bank
def dieThreshold (m : M) (die : Nat) : Nat := tget m.mem.threshold die 8000
def getTracker (m : M) (k : Nat) : Tracker :=
  tget m.mem.trackers k { rows := [], since := 0, threshold := dieThreshold m (k / 128) }

/-- Tracking windows last 32 ms. -/
def trackNs : Nat := 32000000

/-- Entries of a tracker. -/
def trackMax : Nat := 32

/-- A run of samples of one row (R378): it adds to the row's entry, or takes a free one, or that of the lowest count, of
several the oldest (DESIGN CHOICE, assumption 135), at that count plus its own. -/
def trackRun (t : List (Nat × Nat)) (r : Nat × Nat) : List (Nat × Nat) :=
  if r.2 = 0 then t
  else if t.any fun e => e.1 == r.1 then t.map fun e => if e.1 = r.1 then (e.1, e.2 + r.2) else e
  else if t.length < trackMax then t ++ [r]
  else
    let low := t.foldl (fun a e => if e.2 < a.2 then e else a) (t.headD (0, 0))
    t.erase low ++ [(r.1, low.2 + r.2)]

/-- A row's estimate: four activations for a sample. -/
def rowEstimate (t : List (Nat × Nat)) (row : Nat) : Nat := match t.find? fun e => e.1 == row with
  | some e => 4 * e.2
  | none => 0

/-- ACT_WINDOW_END: the bank's entries clear, a new threshold applies, throttles that have run out end. -/
def actWindow (die ch bank : Nat) (m : M) : M :=
  let k := trackKey die ch bank
  let now := m.vault.mono
  if now < (getTracker m k).since + trackNs || (getChan m (memKey die ch)).isNone then m
  else
    { m with
      mem.trackers := tset m.mem.trackers k { rows := [], since := now, threshold := dieThreshold m die },
      mem.throttles := m.mem.throttles.filter fun t => t.1 != memKey die ch || decide (now < t.2.2.2) }

def execActWindowEnd (die ch bank : Nat) (s : State) : Host.Outcome State Fault Refusal := lift (actWindow die ch bank) s

/-- Data of EV_MEM_THROTTLE. -/
def throttleData (ch bank row reqDie reqUnit : Nat) : List Item := [.u 1 ch, .u 1 bank, .u 4 row, .u 1 reqDie, .u 2 reqUnit]

/-- ROW_ACTIVATION_THRESHOLD: the samples are counted, and where the row's estimate has reached the threshold, the neighbours
at distances 1 and 2 are refreshed, the entry clears, and the requester is throttled until the end of the next tracking
window. -/
def rowThreshold (die ch bank : Nat) (act : RowAct) (reqDie reqUnit : Nat) (m : M) : M :=
  match getChan m (memKey die ch) with
  | none => m
  | some c =>
    if c.state ≠ 2 then m
    else
      let k := trackKey die ch bank
      let row := act.row
      let t0 := getTracker m k
      let t := { t0 with rows := act.sampled.foldl trackRun t0.rows }
      if rowEstimate t.rows row < t.threshold then { m with mem.trackers := tset m.mem.trackers k t } else
      let until_ := t.since + 2 * trackNs
      let others := m.mem.throttles.filter fun x => !(x.1 == memKey die ch && x.2.1 == reqDie && x.2.2.1 == reqUnit)
      let m1 := { m with
        mem.trackers := tset m.mem.trackers k { t with rows := t.rows.filter fun r => r.1 != row },
        mem.throttles := others ++ [(memKey die ch, reqDie, reqUnit, until_)] }
      let m2 := countMem die ch 5 1 (countMem die ch 4 ((if row < 2 then row else 2) + 2) m1)
      let data := throttleData ch bank row reqDie reqUnit
      limited { ev := 0x1601, i := reqDie, j := reqUnit } nsPerS (raise 0x1601 3 (infraOid die) data)
        (action (memUnit die) 0x1681 (infraOid die) 0 (leNat ((evData data).take 8)) m2)

def execRowActivationThreshold (die ch bank : Nat) (row : RowAct) (reqDie reqUnit : Nat) (s : State) : Host.Outcome State Fault Refusal :=
  lift (rowThreshold die ch bank row reqDie reqUnit) s

/-- A requester is throttled on a channel: one row per bank in each interval of the window over the threshold. -/
def throttled (m : M) (die ch reqDie reqUnit : Nat) : Bool := m.mem.throttles.any fun t =>
  t.1 == memKey die ch && t.2.1 == reqDie && t.2.2.1 == reqUnit && decide (m.vault.mono < t.2.2.2)

/-! ## Uncorrectable reads (R374 to R376) -/

/-- Region code of EV_MEM_ECC. -/
def memRegion (w : MemData) : Nat :=
  match w with
  | .rxPacket _ _ => 0
  | .txPacket _ _ _ => 0
  | .decodeCtx _ => 1
  | .encodeCtx _ => 1
  | .dieArea => 1
  | .pool _ _ _ _ => 2
  | .ring => 3
  | .staging => 3
  | .blob => 3

/-- The region carries ECC (Table 16-2). -/
def memProtected (m : M) (die : Nat) (w : MemData) : Bool :=
  match memRegion w with
  | 2 => poolEccOn m die
  | 3 => false
  | _ => true

/-- A packet of the send side: no byte reaches a wire, its token is voided. -/
def txLost (die queue send seq : Nat) (m : M) : M :=
  let own (p : EPkt) : Bool := p.seq == seq && p.send == mkKey die (4096 + send)
  let hit (i : FItem) : Bool := match i.body with
    | .pkt e => own e
    | _ => false
  let m1 := updQueue (queueKey die queue) (fun q => { q with pkts := q.pkts.filter fun p => !own p }) m
  egressSettle die queue (setFlow die queue (flowMark hit 2 (getFlow m1 die queue)) m1)

/-- A saved encode context: key frame next, rate control from QPinit with no debt. -/
def encLost (k : Nat) (m : M) : M :=
  let clear (x : EncLayer) : EncLayer := { x with debt := 0, n := 0, mem := [] }
  updEnc k (fun e => { e with layers := e.layers.map clear }) (encRequest k 0 0 true m)

/-- The outcome of an uncorrectable read (Table 16-3). -/
def memOutcome (die : Nat) (w : MemData) (m : M) : M :=
  match w with
  | .pool n chroma tx ty => modBuf die n (fun b => { b with concealed := true, tainted := true, pix := .tile b.pix chroma tx ty }) m
  | .rxPacket idx seq => updStream (mkKey die idx) (fun s => unmark seq (dropHeld seq s)) m
  | .txPacket q send seq => txLost die q send seq m
  | .decodeCtx idx => clearRefs (mkKey die idx) (updCtx (mkKey die idx) (fun c => { c with waitingRap := true }) m)
  | .encodeCtx idx => encLost (mkKey die idx) m
  | .dieArea => if die = 0 then m else dieLost die none m
  | .ring => m
  | .staging => { m with syn.ramDamaged := m.syn.ram.isSome }
  | .blob => m

/-- Usable channels of a die by number, in order. -/
def usableIdx (m : M) (die : Nat) : List Nat := (usableChans m die).map fun c => c.1 % 8

/-- The hub's areas lie as R369 says: the journal ring in its first usable channel, staging and blob copies in the other. -/
def hubHolds (m : M) (ch : Nat) (w : MemData) : Bool := match w with
  | .ring => (usableIdx m 0).head? == some ch
  | .staging | .blob => (usableIdx m 0).getLast? == some ch && (usableIdx m 0).head? != some ch
  | _ => true

/-- MEM_ECC_UNCORRECTABLE: a burst that fails after three retries (`link`), or a sector with two wrong bits where the
region carries ECC. -/
def eccUncorrectable (die ch : Nat) (link : Bool) (w : MemData) (m : M) : M :=
  let k := memKey die ch
  match getChan m k with
  | none => m
  | some c =>
    if c.state ≠ 2 || (die != 0 && !dieRun m die) || !(link || memProtected m die w) || (die == 0) != (memRegion w == 3) || !hubHolds m ch w then m
    else
      let m1 := if link then countMem die ch 1 1 (countMem die ch 0 3 m) else countMem die ch 3 1 m
      let now := m.vault.mono
      let log := now :: (tget m.mem.eccSince k []).filter fun t => decide (now < t + nsPerS)
      let m2 := { m1 with mem.eccSince := tset m1.mem.eccSince k log }
      let m3 := limited { ev := 0x1602, i := die, j := ch } nsPerS
        (raise 0x1602 2 (infraOid die) [.u 1 ch, .u 1 (memRegion w), .u 4 log.length]) m2
      memOutcome die w m3

def execMemEccUncorrectable (die ch : Nat) (link : Bool) (what : MemData) (s : State) : Host.Outcome State Fault Refusal :=
  lift (eccUncorrectable die ch link what) s

/-! ## Commands (R382) -/

/-- A plain-form reply with the old and new value of a field. -/
def plainDone (old new : Nat) : Applied :=
  .done { status := stOK, detail := 0, plain := some (old, new), before := 0xFF, after := 0xFF }

def memRateSetSpec : CmdSpec :=
  { baseSpec 0x1601 permService with
    mask := mb 0 1
    obj := partObj
    fields := fun d _ => firstBad [(decide (5 < pay d 0 1), off 0)]
    plainNow := fun _ m => same m.mem.rateTarget
    apply := fun d m => ({ m with mem.rateTarget := pay d 0 1 }, plainDone m.mem.rateTarget (pay d 0 1)) }

def execMemRateSet (d : Desc) (s : State) : Host.Outcome State Fault Refusal := lift (hostRow memRateSetSpec d) s

def memEccSetSpec : CmdSpec :=
  { baseSpec 0x1602 permService with
    mask := mbits 0 1
    obj := dieObj
    late := fun d m => orFail (dieLate m false (oid d)) (firstFail
      [(let p := getPool m (oidDie (oid d))
        p.resDesc != 0 || p.resKib != 0, stConflict, (getPool m (oidDie (oid d))).resDesc % 65536)])
    plainNow := fun d m => same (b2n (poolEccOn m (oidDie (oid d))))
    apply := fun d m =>
      let die := oidDie (oid d)
      (poolSize die { m with mem.poolEcc := tset m.mem.poolEcc die (payBit d 0 0) },
       plainDone (b2n (poolEccOn m die)) (pay d 0 1)) }

def execMemEccSet (d : Desc) (s : State) : Host.Outcome State Fault Refusal := lift (hostRow memEccSetSpec d) s

def memActSetSpec : CmdSpec :=
  { baseSpec 0x1603 permService with
    mask := mb 0 2
    obj := fun d m => oidOk m 3 false (oid d)
    fields := fun d _ => firstBad [(!(decide (1000 ≤ pay d 0 2) && decide (pay d 0 2 ≤ 32000)), off 0)]
    late := fun d m => dieLate m false (oid d)
    plainNow := fun d m => same (dieThreshold m (oidDie (oid d)))
    apply := fun d m =>
      let die := oidDie (oid d)
      ({ m with mem.threshold := tset m.mem.threshold die (pay d 0 2) }, plainDone (dieThreshold m die) (pay d 0 2)) }

def execMemActSet (d : Desc) (s : State) : Host.Outcome State Fault Refusal := lift (hostRow memActSetSpec d) s

end Sys2Proof.Machine
end

