-- ==== Sys2Proof/Machine/Compound.lean ====
section
/-!
DEFINITION. Unit pairs and lane tests (chapter 17): how the image forms pairs and places programs, and COD_PAIR, CMP_PAIR,
DSP_PAIR and PIN_LOOPBACK_SET.
-/
namespace Sys2Proof.Machine

/-! ## Units of a die as the image gives them (R385, R337) -/

/-- One engine as the image places it: its blob, the odd engine of a wide pair, or nothing. -/
def unitLoad (die n : Nat) (m : M) : M :=
  let odd := n % 2 = 1 && m.join.dsp.contains (die * 16 + n / 2)
  let c3 := (imgUnits (img m) die).2.2.2.2.1.getD n 0 == 1
  if odd then setDsp die n dspPaired m
  else match placedBlob (img m) die n with
    | some b => setDsp die n (dspLoad b c3 (m.join.dsp.contains (die * 16 + n / 2))) m
    | none => { m with dsp.engines := tdel m.dsp.engines (dspKey die n) }

/-- The image's pairs of a die, and its engines loaded: at a start, and at step 3 of a re-structure. -/
def unitsForm (die : Nat) (m : M) : M :=
  let u := imgUnits (img m) die
  let off (l : List Nat) : List Nat := l.filter fun p => p / 16 != die
  let m1 := { m with
    join.cod := off m.join.cod ++ (u.2.1.map fun p => die * 16 + p.1 / 2),
    join.cmp := (m.join.cmp.filter (· != die)) ++ (if u.2.2.1.isEmpty then [] else [die]),
    join.dsp := off m.join.dsp ++ (u.2.2.2.1.map fun p => die * 16 + p.1 / 2),
    join.byCmd := m.join.byCmd.filter (· != die) }
  (List.range 32).foldl (fun x n => unitLoad die n x) m1

/-! ## Shared by the pair commands -/

def byCommand (die : Nat) (m : M) : M :=
  if m.join.byCmd.contains die then m else { m with join.byCmd := m.join.byCmd ++ [die] }

def joined (p : Nat) (join : Bool) (l : List Nat) : List Nat :=
  if join then (if l.contains p then l else l ++ [p]) else l.filter (· != p)

def pairKey (d : Desc) (first : Nat) : Nat := oidDie (oid d) * 16 + (oidIdx (oid d) - first) / 2

def wantJoin (d : Desc) : Bool := pay d 0 1 == 1

/-- A pair command: byte 0 is 0 or 1, and it takes no commit time. -/
def pairSpec (opcode : Nat) : CmdSpec :=
  { baseSpec opcode permMedia with
    mask := mbits 0 1
    fields := fun d _ => commitBad d }

/-! ## COD_PAIR (R387) -/

/-- State of Table 17-2. -/
def codUnitCode (m : M) (die e : Nat) : Nat :=
  if engineRole m die e = 0 then 0 else if codPaired m die e then (if e % 2 = 1 then 3 else 2) else 1

def codEngineObj (d : Desc) (m : M) : Bool := oidOk m 0xE false (oid d) && decide (oidIdx (oid d) < 12)

/-- Contexts on an engine or its neighbour. -/
def pairContexts (m : M) (die e : Nat) : Nat :=
  let on (k : Nat) : Bool := keyDie k == die && ctxEngine (keyIdx k) / 2 == e / 2
  (m.cod.ctxs.filter fun c => on c.1).length + (m.enc.encs.filter fun c => on c.1).length

def codUnitState (d : Desc) (m : M) : Nat := codUnitCode m (oidDie (oid d)) (oidIdx (oid d))

def codPairSpec : CmdSpec :=
  { pairSpec 0x1008 with
    obj := codEngineObj
    fields := fun d m =>
      let die := oidDie (oid d)
      let e := oidIdx (oid d)
      orBad (commitBad d) (firstBad
        [(e % 2 == 1, 0x04),
         (wantJoin d && (engineRole m die e == 0 || engineRole m die e != engineRole m die (e + 1)), 0x04)])
    late := fun d m =>
      let die := oidDie (oid d)
      let held := pairContexts m die (oidIdx (oid d))
      orFail (dieLate m false (oid d)) (firstFail
        [(wantJoin d && codUnitState d m == 2, stConflict, 0), (!wantJoin d && codUnitState d m != 2, stConflict, 0),
         (held != 0, stConflict, held % 65536)])
    ostate := codUnitState
    plainNow := fun d m => same (codUnitState d m)
    apply := fun d m =>
      let m1 := byCommand (oidDie (oid d)) { m with join.cod := joined (pairKey d 0) (wantJoin d) m.join.cod }
      (m1, plainDone (codUnitState d m) (codUnitState d m1)) }

def execCodPair (d : Desc) (s : State) : Host.Outcome State Fault Refusal := lift (hostRow codPairSpec d) s

/-! ## CMP_PAIR (R388) -/

def cmpPairObj (d : Desc) (m : M) : Bool := oidOk m 0xD false (oid d) && oidIdx (oid d) == 0

/-- The checks of CMP_DEFINE and of the line buffer on the settings in force, at the limits of one compositor. -/
def splitFail (m : M) (k : Nat) : Option (Nat × Nat) := match getComp m k with
  | none => none
  | some c => orFail (firstFail [(decide (4096 < (formatSize c.format).1), stInvalid, 0)])
      (orFail (firstFail [(loadBad (cmpLoad c.format 4096 600000000 c.force) c.overPace, stResource, 0x06)])
        ((lineShort 4096 c.force).map fun i => (stLineBuf, i)))

/-- Load and strips follow the limits that now hold. -/
def cmpRelimit (k : Nat) (m : M) : M :=
  let buf := cmpWidth m k
  updComp k (fun c => { c with
    load := cmpLoad c.format buf (cmpPace m k) c.force,
    runs := tmap c.runs fun i r => { r with split := match tget? c.force.layers i with
      | some l => layerWide buf l
      | none => r.split } }) m

def cmpPairSpec : CmdSpec :=
  { pairSpec 0x1311 with
    obj := cmpPairObj
    late := fun d m =>
      let k := cmpKey d
      let pair := cmpPaired m k
      orFail (dieLate m false (oid d)) (
        if wantJoin d then firstFail
          [(pair, stConflict, 0), (cmpCode m (mkKey (oidDie (oid d)) 1) != 0, stConflict, 0), (cmpCode m k == 2, stConflict, 0)]
        else if !pair || cmpCode m k = 2 then some (stConflict, 0)
        else splitFail m k)
    ostate := cmpState
    plainNow := fun d m => same (cmpState d m)
    apply := fun d m =>
      let m1 := cmpRelimit (cmpKey d) (byCommand (oidDie (oid d))
        { m with join.cmp := joined (oidDie (oid d)) (wantJoin d) m.join.cmp })
      (m1, plainDone (cmpState d m) (cmpState d m1)) }

def execCmpPair (d : Desc) (s : State) : Host.Outcome State Fault Refusal := lift (hostRow cmpPairSpec d) s

/-! ## DSP_PAIR (R389) -/

def dspPaired? (m : M) (die n : Nat) : Bool := m.join.dsp.contains (die * 16 + n / 2)

/-- ACTIVE ports of an engine, and with them its instances. -/
def portsHeld (m : M) (die n : Nat) : Nat := match getDsp m die n with
  | some e => e.ports.length
  | none => 0

def engineHeld (m : M) (die n : Nat) : Nat := (engineInsts m die n).length + portsHeld m die n

def dspIdle (m : M) (die n : Nat) : Bool := match getDsp m die n with
  | some e => e.state == 2
  | none => true

def wideBlob (m : M) (die id : Nat) : Option Blob := (imgBlobs (img m) die).find? fun b => b.id == id && b.wide

def c3Of (m : M) (die n : Nat) : Nat := (imgUnits (img m) die).2.2.2.2.1.getD n 0

/-- Join: the even engine loads the wide blob, the odd one reads PAIRED. -/
def dspJoin (die n : Nat) (b : Blob) (m : M) : M :=
  let was (k : Nat) : Nat := match getDsp m die k with
    | some e => e.state
    | none => 0
  let m1 := byCommand die { m with join.dsp := joined (die * 16 + n / 2) true m.join.dsp }
  let m2 := setDsp die (n + 1) dspPaired (setDsp die n (dspLoad b (c3Of m die n == 1) true) m1)
  dspState die (n + 1) (was (n + 1)) 3 0 (dspState die n (was n) 1 0 m2)

/-- Split: each engine loads its placed blob, or becomes ABSENT. -/
def dspSplit (die n : Nat) (m : M) : M :=
  let m1 := byCommand die { m with join.dsp := joined (die * 16 + n / 2) false m.join.dsp }
  let now (x : M) (k : Nat) : Nat := match getDsp x die k with
    | some e => e.state
    | none => 0
  let m2 := unitLoad die (n + 1) (unitLoad die n m1)
  let m3 := if now m2 n = 2 then m2 else dspState die n 2 (now m2 n) 0 m2
  dspState die (n + 1) 3 (now m3 (n + 1)) 0 m3

def dspPairSpec : CmdSpec :=
  { pairSpec 0x1506 with
    mask := mbits 0 1 ||| mb 2 2
    obj := dspObj
    fields := fun d m =>
      let die := oidDie (oid d)
      let n := dspNo d
      orBad (commitBad d) (firstBad
        [(n % 2 == 1, 0x04),
         (wantJoin d && c3Of m die n != c3Of m die (n + 1), 0x04),
         (if wantJoin d then (wideBlob m die (pay d 2 2)).isNone else pay d 2 2 != 0, off 2)])
    late := fun d m =>
      let die := oidDie (oid d)
      let n := dspNo d
      let held := engineHeld m die n + engineHeld m die (n + 1)
      orFail (dieLate m false (oid d)) (
        if wantJoin d then firstFail
          [(dspPaired? m die n || !dspIdle m die n || !dspIdle m die (n + 1) || held != 0, stConflict, held % 65536)]
        else firstFail
          [(!dspPaired? m die n || dspCode d m != 2 || portsHeld m die n != 0, stConflict, 0)])
    ostate := dspCode
    plainNow := fun d m => same (dspCode d m)
    apply := fun d m =>
      let die := oidDie (oid d)
      let n := dspNo d
      let m1 := if wantJoin d then
          (match wideBlob m die (pay d 2 2) with
           | some b => dspJoin die n b m
           | none => m)
        else dspSplit die n m
      if engineBegun m1 die n && engineBegun m1 die (n + 1) then (m1, plainDone (dspCode d m) (dspCode d m1))
      else ({ m1 with join.waits := m1.join.waits ++ [(d, dspCode d m)] }, .later) }

def execDspPair (d : Desc) (s : State) : Host.Outcome State Fault Refusal := lift (hostRow dspPairSpec d) s

/-! ## PIN_LOOPBACK_SET (R392) -/

def loopKey (d : Desc) : Nat := oidDie (oid d) * 8 + pay d 0 1

def loopLanes (d : Desc) : Nat := if oidDie (oid d) = 0 then 4 else 8

def loopPort (d : Desc) : Nat := oidDie (oid d) * 16 + pay d 0 1

def pinLoopbackSetSpec : CmdSpec :=
  { baseSpec 0x1701 permService with
    mask := mb 0 2
    obj := fun d m => oidOk m 3 false (oid d)
    fields := fun d m => firstBad
      [(decide (loopLanes d ≤ pay d 0 1) || lanePers (img m) (oidDie (oid d)) (pay d 0 1) == 0, off 0),
       (decide (3 < pay d 1 1), off 1)]
    late := fun d m => orFail (dieLate m true (oid d)) (firstFail
      [(lanePers (img m) (oidDie (oid d)) (pay d 0 1) == 6 && !(m.pair.role == 0 || m.pair.role == 1), stConflict, 0)])
    plainNow := fun d m => same (laneMode m (loopPort d))
    apply := fun d m =>
      let old := laneMode m (loopPort d)
      let loops := if pay d 1 1 = 0 then tdel m.join.loops (loopKey d) else tset m.join.loops (loopKey d) (pay d 1 1, false)
      ({ m with join.loops := loops }, plainDone old (pay d 1 1)) }

def execPinLoopbackSet (d : Desc) (s : State) : Host.Outcome State Fault Refusal := lift (hostRow pinLoopbackSetSpec d) s

end Sys2Proof.Machine
end

