-- ==== Sys2Proof/Machine/Pins.lean ====
section
/-!
DEFINITION. Pin monitors (chapter 21): lanes, GPIO, low-speed outputs and the I3C bus.
-/
namespace Sys2Proof.Machine

/-! ## Faults and what they raise (R451, R461) -/

/-- The pin monitor of a die. -/
def pinUnit (die : Nat) : Nat := unitPath die (if die = 0 then 0xB else 0x46)

/-- EV_PIN_FAULT: at most once per pin per second. Interfaces: 0 transmitter, 1 GPIO, 2 low-speed output, 3 I3C. -/
def pinFault (die iface pin cause : Nat) (m : M) : M :=
  limited { ev := 0x1701, i := die * 4 + iface, j := pin } nsPerS
    (raise 0x1701 1 (infraOid die) [.u 1 iface, .u 1 pin, .u 1 cause]) m

def pinClear (die iface pin cause : Nat) (m : M) : M :=
  raise 0x1702 3 (infraOid die) [.u 1 iface, .u 1 pin, .u 1 cause] m

/-- Action 0x1781: a driver is disabled. -/
def driverOff (die iface pin cause : Nat) (m : M) : M :=
  action (pinUnit die) 0x1781 (infraOid die) (iface * 256 + pin) cause m

/-- The monitors work while the part runs, and those of a die while it does. -/
def pinsOn (m : M) (die : Nat) : Bool :=
  m.start.phase == .ready && decide (m.pwr.state < 3) && (die == 0 || dieRun m die)

/-! ## SerDes lanes (R452, R453) -/

def lanePinReset : LanePin := { tx := 0, rxInverted := false, los := true, order := 0xE4 }

def lanePin (m : M) (die lane : Nat) : LanePin := tget m.pin.lanes (die * 8 + lane) lanePinReset

def setLanePin (die lane : Nat) (l : LanePin) (m : M) : M := { m with pin.lanes := tset m.pin.lanes (die * 8 + lane) l }

def laneThere (m : M) (die lane : Nat) : Bool :=
  decide (lane < (if die = 0 then 4 else 8)) && decide (die ≤ m.part.media) && lanePers (img m) die lane != 0

/-- The lanes of the group that a lane of an ETH100 port belongs to, else the lane alone. -/
def laneGroup (m : M) (die lane : Nat) : List Nat :=
  if lanePers (img m) die lane = 3 then (List.range 4).map fun i => lane / 4 * 4 + i else [lane]

/-- A lane of the group is open or disabled: it takes an ETH100 port down. -/
def groupDown (m : M) (die lane : Nat) : Bool :=
  lanePers (img m) die lane == 3 && (laneGroup m die lane).any fun x => (lanePin m die x).tx != 0

/-- The four physical lanes in some order. -/
def orderOk (o : Nat) : Bool := (List.range 4).all fun p => (List.range 4).any fun j => bits o (2 * j) 2 == p

/-- ETH_BLOCK_LOCK_CHANGE: an Ethernet or CONJ lane gains block lock with the sense found, or loses lock or signal. For an
ETH100 group the row names its lowest lane, with the lane order found. -/
def blockLock (die lane : Nat) (lock signal inverted : Bool) (order : Nat) (m : M) : M :=
  let p := lanePers (img m) die lane
  if !pinsOn m die || !laneThere m die lane || !(p == 1 || p == 2 || p == 3 || p == 6) || (p == 3 && lane % 4 != 0) ||
      (lock && !signal) || !orderOk order then m
  else
    let l := lanePin m die lane
    let l1 : LanePin :=
      { l with los := !signal, rxInverted := if lock then inverted else l.rxInverted,
               order := if lock && p == 3 then order else l.order }
    let m1 := setLanePin die lane l1 m
    let port := die * 16 + lane
    if !ethPort m port then m1
    else
      let m2 := setPort port { getPort m1 port with linkUp := lock && !groupDown m1 die lane } m1
      if lock then portServe port m2 else m2

def execEthBlockLockChange (die lane : Nat) (lock signal inverted : Bool) (order : Nat) (s : State) :
    Host.Outcome State Fault Refusal := lift (blockLock die lane lock signal inverted order) s

/-- The port of a lane whose transmitter is open or disabled. -/
def laneLost (die lane : Nat) (m : M) : M :=
  if groupDown m die lane then
    let port := die * 16 + lane / 4 * 4
    setPort port { getPort m port with linkUp := false } m
  else m

/-- A lane without a link: where the receiver detect runs. -/
def laneIdle (m : M) (die lane : Nat) : Bool :=
  let port := die * 16 + (laneGroup m die lane).headD lane
  !(getPort m port).linkUp || (lanePin m die lane).tx != 0

/-- TX_RECEIVER_DETECT: a load is found on both legs of the transmitter, or is not. -/
def receiverDetect (die lane : Nat) (load : Bool) (m : M) : M :=
  if !pinsOn m die || !laneThere m die lane || !laneIdle m die lane then m
  else
    let l := lanePin m die lane
    if !load && l.tx == 0 then
      laneLost die lane (pinFault die 0 lane 1 (count .pinTxFaults die lane 0 (setLanePin die lane { l with tx := 1 } m)))
    else if load && l.tx == 1 then pinClear die 0 lane 1 (setLanePin die lane { l with tx := 0 } m)
    else m

def execTxReceiverDetect (die lane : Nat) (load : Bool) (s : State) : Host.Outcome State Fault Refusal :=
  lift (receiverDetect die lane load) s

/-- TX_SHORT_DETECT: the monitors of a transmitter find a short (2 to ground, 3 to supply, 4 between P and N), and the
driver is disabled; or, with cause 0, they find that the short of a disabled driver has gone, which leaves it disabled. -/
def shortDetect (die lane cause : Nat) (m : M) : M :=
  if !pinsOn m die || !laneThere m die lane then m
  else
    let l := lanePin m die lane
    if 2 ≤ cause && cause ≤ 4 then
      if 2 ≤ l.tx && l.tx ≤ 4 then m
      else
        let m1 := count .pinTxFaults die lane 0 (setLanePin die lane { l with tx := cause } m)
        laneLost die lane (pinFault die 0 lane cause (if l.tx = 5 then m1 else driverOff die 0 lane cause m1))
    else if cause = 0 && 2 ≤ l.tx && l.tx ≤ 4 then pinClear die 0 lane l.tx (setLanePin die lane { l with tx := 5 } m)
    else m

def execTxShortDetect (die lane cause : Nat) (s : State) : Host.Outcome State Fault Refusal :=
  lift (shortDetect die lane cause) s

/-! ## GPIO (R455, R456) -/

def gpioReset : GpioPin :=
  { output := false, driven := false, read := false, fault := 0, openTest := false, mismatchRun := 0, openRun := 0, settleUntil := 0 }

def gpioPin (m : M) (p : Nat) : GpioPin := tget m.pin.gpio p gpioReset

def setGpio (p : Nat) (g : GpioPin) (m : M) : M := { m with pin.gpio := tset m.pin.gpio p g }

/-- The pin is driven: an output that is not disabled, on a part that drives its exclusive outputs (R401). -/
def gpioDrives (m : M) (p : Nat) : Bool := (gpioPin m p).output && (gpioPin m p).fault != 5 && m.pair.excl

/-- What the pin shows the board: its level, or high impedance. -/
def gpioOut (p : Nat) (m : M) : M :=
  if gpioDrives m p then emit (.pin 1 p (gpioPin m p).driven) m else emit (.pin 2 p false) m

/-! ## REF_OUT and LTC_OUT (R483) -/

/-- Both outputs are driven: the part holds the claim, or is not paired (R401). -/
def refDriving (m : M) : Bool := m.pair.excl

/-- A disabled output drives its inactive level: the inverse of the pulse level for REF_OUT, low for LTC_OUT. -/
def refIdle (m : M) : M :=
  if !refDriving m then m
  else
    let m1 := if bit m.refout.enable 0 then m else emit (.pin 5 0 m.refout.polarity) m
    if bit m.refout.enable 1 then m1 else emit (.pin 6 0 false) m1

/-- Both outputs as the claim leaves them: driven, or in high impedance. -/
def refClaim (m : M) : M := if refDriving m then refIdle m else emit (.pin 7 0 false) m

/-- The configuration byte of PIN_GPIO_SET. -/
def gpioByte (g : GpioPin) : Nat := b2n g.output + 2 * b2n g.driven + 4 * b2n g.openTest

/-- GPIO_READBACK_SAMPLE: the level at a pin. On an output it is compared with the driven level; a disabled output is not
driven, and the sample tells whether its fault is still there; on an input it is the level read. -/
def gpioSample (p : Nat) (level : Bool) (m : M) : M :=
  if !pinsOn m 0 || 32 ≤ p then m
  else
    let g := gpioPin m p
    if !g.output then setGpio p { g with read := level } m
    else if !m.pair.excl || decide (m.vault.mono < g.settleUntil) then m
    else if level == g.driven then
      let m1 := setGpio p { g with read := level, mismatchRun := 0, fault := if g.fault = 6 then 0 else g.fault } m
      if g.fault = 6 then pinClear 0 1 p 6 m1 else m1
    else
      let run := if g.mismatchRun < 3 then g.mismatchRun + 1 else 3
      let m1 := setGpio p { g with read := level, mismatchRun := run } m
      if run < 3 || g.fault ≠ 0 then m1
      else
        let cause := if m.pair.role = 0 then 5 else 6
        let m2 := pinFault 0 1 p cause (count .pinGpioFaults 0 p 0 (setGpio p { gpioPin m1 p with fault := cause } m1))
        if cause = 5 then gpioOut p (driverOff 0 1 p 5 m2) else m2

def execGpioReadbackSample (pin : Nat) (level : Bool) (s : State) : Host.Outcome State Fault Refusal :=
  lift (gpioSample pin level) s

/-- GPIO_OPEN_TEST: the levels sampled under the pull-up and under the pull-down. -/
def gpioOpen (p : Nat) (up down : Bool) (m : M) : M :=
  let g := gpioPin m p
  if !pinsOn m 0 || 32 ≤ p || g.output || !g.openTest then m
  else if up && !down then
    let run := if g.openRun < 3 then g.openRun + 1 else 3
    let m1 := setGpio p { g with openRun := run } m
    if run < 3 || g.fault = 7 then m1
    else pinFault 0 1 p 7 (count .pinGpioFaults 0 p 0 (setGpio p { g with openRun := run, fault := 7 } m))
  else
    let m1 := setGpio p { g with openRun := 0, fault := if g.fault = 7 then 0 else g.fault } m
    if g.fault = 7 then pinClear 0 1 p 7 m1 else m1

def execGpioOpenTest (pin : Nat) (up down : Bool) (s : State) : Host.Outcome State Fault Refusal :=
  lift (gpioOpen pin up down) s

/-! ## Low-speed outputs (R457) and the I3C bus (R458) -/

def lsBits (die : Nat) : Nat := if die = 0 then 7 else 4

/-- LOW_SPEED_READBACK_SAMPLE: whether the sample of an output differs from what it drives. -/
def lsSample (die b : Nat) (differs : Bool) (m : M) : M :=
  if !pinsOn m die || lsBits die ≤ b || m.part.media < die then m
  else
    let key := die * 16 + b
    let now := tget m.pin.ls die 0
    let run := if differs then (if tget m.pin.lsRun key 0 < 3 then tget m.pin.lsRun key 0 + 1 else 3) else 0
    let m1 := { m with pin.lsRun := if run = 0 then tdel m.pin.lsRun key else tset m.pin.lsRun key run }
    if differs then
      if run < 3 || bit now b then m1
      else pinFault die 2 b 5 (count .pinLsFaults die b 0 { m1 with pin.ls := tset m1.pin.ls die (now + 2 ^ b) })
    else if bit now b then
      let left := now - 2 ^ b
      pinClear die 2 b 5 { m1 with pin.ls := if left = 0 then tdel m1.pin.ls die else tset m1.pin.ls die left }
    else m1

def execLowSpeedReadbackSample (die bit : Nat) (differs : Bool) (s : State) : Host.Outcome State Fault Refusal :=
  lift (lsSample die bit differs) s

/-- The port resets to idle: a transfer in progress is discarded with it. -/
def i3cIdle (stuck : Nat) (m : M) : M :=
  pinFault 0 3 0 (7 + stuck) (count .i3cRecoveries 0 0 0 { m with i3c.pendingRead := false, pin.i3cStuck := stuck })

def sdaStuck (m : M) : M := if pinsOn m 0 then i3cIdle 1 m else m

def execI3cSdaStuck (s : State) : Host.Outcome State Fault Refusal := lift sdaStuck s

/-- I3C_SCL_HELD: SCL has been held low by another device for a time. -/
def sclHeld (ns : Nat) (m : M) : M := if pinsOn m 0 && decide (1000000 < ns) then i3cIdle 2 m else m

def execI3cSclHeld (ns : Nat) (s : State) : Host.Outcome State Fault Refusal := lift (sclHeld ns) s

/-- I3C_TARGET_RESET: the target reset pattern resets the port, the HDR exit pattern ends a mode that it never enters. -/
def targetReset (exit : Bool) (m : M) : M :=
  if !pinsOn m 0 || exit then m else { m with i3c.pendingRead := false }

def execI3cTargetReset (exit : Bool) (s : State) : Host.Outcome State Fault Refusal := lift (targetReset exit) s

/-! ## Commands (R460) -/

def gpioNo (d : Desc) : Nat := pay d 0 1

def applyGpioSet (d : Desc) (m : M) : M × Applied :=
  let p := gpioNo d
  let g := gpioPin m p
  let out := payBit d 1 0
  let lvl := payBit d 1 1
  let same := g.output == out && g.driven == lvl
  let g1 : GpioPin :=
    { g with output := out, driven := lvl, openTest := payBit d 1 2, fault := if g.output == out && (g.fault != 7 || payBit d 1 2) then g.fault else 0,
             mismatchRun := if same then g.mismatchRun else 0, openRun := if g.openTest && payBit d 1 2 then g.openRun else 0,
             settleUntil := if same then g.settleUntil else m.vault.mono + 4000 }
  let m1 := if g.fault ≠ 0 && g1.fault = 0 then pinClear 0 1 p g.fault m else m
  (gpioOut p (setGpio p g1 m1), plainDone (gpioByte g) (gpioByte g1))

def pinGpioSetSpec : CmdSpec :=
  { baseSpec 0x1702 permService with
    mask := mb 0 1 ||| mbits 1 7
    obj := fun d m => oidOk m 3 false (oid d) && oidDie (oid d) == 0
    fields := fun d _ => firstBad [(decide (31 < gpioNo d), off 0), (payBit d 1 0 && payBit d 1 2, off 1)]
    late := fun d m => firstFail [((gpioPin m (gpioNo d)).fault == 5, stConflict, 0)]
    plainNow := fun d m => same (gpioByte (gpioPin m (gpioNo d)))
    apply := applyGpioSet }

def execPinGpioSet (d : Desc) (s : State) : Host.Outcome State Fault Refusal := lift (hostRow pinGpioSetSpec d) s

/-- A driver that PIN_RESTORE names, and whether its fault is still there: 0 not disabled, 1 disabled and clear, else the
cause. -/
def restoreCode (d : Desc) (m : M) : Nat :=
  if pay d 0 1 = 0 then
    let t := (lanePin m (oidDie (oid d)) (pay d 1 1)).tx
    if t < 2 then 0 else if t = 5 then 1 else t
  else
    let g := gpioPin m (pay d 1 1)
    if g.fault ≠ 5 then 0 else if g.mismatchRun = 0 then 1 else 5

def applyRestore (d : Desc) (m : M) : M × Applied :=
  let die := oidDie (oid d)
  let n := pay d 1 1
  if pay d 0 1 = 0 then
    (setLanePin die n { lanePin m die n with tx := 0 } m, plainDone 5 0)
  else
    let g := gpioPin m n
    (gpioOut n (pinClear 0 1 n 5 (setGpio n { g with fault := 0, mismatchRun := 0, settleUntil := m.vault.mono + 4000 } m)),
     plainDone (gpioByte g) (gpioByte g))

def pinRestoreSpec : CmdSpec :=
  { baseSpec 0x1703 permService with
    mask := mb 0 2
    obj := fun d m => oidOk m 3 false (oid d)
    fields := fun d _ => firstBad
      [(decide (1 < pay d 0 1) || (pay d 0 1 == 1 && oidDie (oid d) != 0), off 0),
       (decide ((if pay d 0 1 = 1 then 32 else loopLanes d) ≤ pay d 1 1), off 1)]
    late := fun d m => orFail (dieLate m false (oid d)) (firstFail
      [(restoreCode d m == 0, stConflict, 0), (decide (1 < restoreCode d m), stConflict, restoreCode d m)])
    plainNow := fun d m => same
      (if pay d 0 1 = 0 then (lanePin m (oidDie (oid d)) (pay d 1 1)).tx else gpioByte (gpioPin m (pay d 1 1)))
    apply := applyRestore }

def execPinRestore (d : Desc) (s : State) : Host.Outcome State Fault Refusal := lift (hostRow pinRestoreSpec d) s

end Sys2Proof.Machine
end

