-- ==== Sys2Proof/Machine/Pairing.lean ====
section
/-!
DEFINITION. Pairing two parts (chapter 18): paths, claims and roles, exclusive outputs, decision replay and the agreement
check.
-/
namespace Sys2Proof.Machine

def pairUnit : Nat := 9
def pairOid : Nat := mkOid 8 0 0

def countPair (k n : Nat) (m : M) : M := cntAdd { reg := .pairCnt, i := 0, j := 0, k := k } n m

/-- First 8 bytes of a structure hash. -/
def hash64 (h : Digest) : Nat := h.toNat / 2 ^ 320

def runHash (m : M) : Nat := match img m with
  | some i => hash64 i.hash
  | none => 0

/-- Part number 802, 804 or 808. -/
def partNo (m : M) : Nat := 801 + m.part.media

/-- A leg is ARMED or LIVE. -/
def carrying (m : M) : Bool := m.net.legs.any fun l => l.2.state == 2 || l.2.state == 3

/-- Hub lanes 0 and 1 are CONJ (R396). -/
def conjLanes (m : M) : Bool := lanePers (img m) 0 0 == 6 && lanePers (img m) 0 1 == 6

def pairActive (m : M) : Bool := m.pair.role != 0 && m.start.phase == .ready && decide (m.pwr.state < 3)

/-- State of a path (Table 18-6): 0 OFF, 1 DOWN, 2 UP. -/
def pathState (m : M) (path : Nat) : Nat :=
  if m.pair.role = 0 then 0
  else if (if path = 0 then m.pair.lane0.up || m.pair.lane1.up else m.pair.wire.up) then 2 else 1

def anyPathUp (m : M) : Bool := pathState m 0 == 2 || pathState m 1 == 2

/-- Plain form of the pairing commands: E and role. -/
def pairPlain (m : M) : Nat := m.pair.e + m.pair.role * 65536

/-! ## Exclusive outputs (R401, R402) -/

/-- The start of the first replay window after now. -/
def nextReplay (m : M) : Nat := (m.dev / replayNs m + 1) * replayNs m

/-- The setting of the exclusive outputs changes at the next replay-window boundary. -/
def exclAt (on : Bool) (m : M) : M :=
  if m.pair.excl = on then { m with pair.exclNext := none } else { m with pair.exclNext := some (on, nextReplay m) }

/-- It takes effect: GPIO, timecode and reference outputs follow, and a part that takes the claim sends the kept gain words (R181). -/
def exclTake (m : M) : M :=
  match m.pair.exclNext with
  | none => m
  | some (on, t) =>
    if m.dev < t then m
    else
      let m1 := { m with pair.excl := on, pair.exclNext := none }
      let m2 := refClaim ((m1.pin.gpio.filter fun g => g.2.output).foldl (fun x g => gpioOut g.1 x) m1)
      if on then sendKept m2 else m2

/-! ## Peer-hold marks (R407) -/

/-- Pictures that the decisions of the window may still name are held. -/
def peerMark (m : M) : M :=
  { m with cod.pools := tmap m.cod.pools fun _ (p : Pool) =>
      { p with bufs := tmap p.bufs fun _ (b : Buf) => { b with peer := b.peer || b.out } } }

def peerClear (m : M) : M :=
  m.cod.pools.foldl (fun x p => (p.2.bufs.filter fun b => b.2.peer).foldl
    (fun y b => modBuf p.1 b.1 (fun c => { c with peer := false }) y) x) m

/-! ## Roles (R397, R400) -/

/-- A change of role: EV_PAIR_ROLE and action 0x0981, the exclusive outputs, and what ends with the role left. -/
def setRole (role cause : Nat) (m : M) : M :=
  if m.pair.role = role then m
  else
    let old := m.pair.role
    let m1 := { m with
      pair.role := role, pair.outcomes := [], pair.unacked := [], pair.holdings := none, pair.applied := none,
      pair.mutes := if role = 3 then m.pair.mutes else [] }
    let m2 := announceVal pairUnit 0x0901 0 pairOid
      [.u 1 old, .u 1 role, .u 1 cause, .u 2 m.pair.e, .u 2 (match m.pair.peer with | some p => p.claim | none => 0)] old role m1
    exclAt (role != 3) (if role < 2 then peerClear m2 else m2)

/-- A part whose effective claim is greater than the peer's holds the claim; equal claims go by serial. -/
def holdsOver (m : M) (p : Peer) : Bool :=
  decide (p.claim < m.pair.e) || (p.claim == m.pair.e && p.claim != 0 && decide (m.part.serial < p.serial))

/-- Equal claims raise EV_PAIR_TIE, once until they differ. -/
def tieCheck (p : Peer) (m : M) : M :=
  if p.claim = m.pair.e && p.claim ≠ 0 then
    (if m.pair.tied then m
     else raise 0x0905 1 pairOid [.u 2 m.pair.e, .u 4 (p.serial % 2 ^ 32)] (countPair 7 1 { m with pair.tied := true }))
  else { m with pair.tied := false }

/-- What differs between the parts: 2 the part number, 1 the structure hash. -/
def pairDiffers (p : Peer) (m : M) : Nat := if p.part ≠ partNo m then 2 else if p.hash ≠ runHash m then 1 else 0

/-- A heartbeat decides the roles. At a meeting, where one of the parts was SOLE, a part that alone carries leads. -/
def decideRole (hb : Heartbeat) (p : Peer) (m : M) : M :=
  let meeting := m.pair.role == 1 || hb.role == 1
  let mine := carrying m
  let differs := pairDiffers p m
  let byCarry := meeting && mine != hb.carrying
  let m1 := if byCarry then (if mine then m else { m with pair.e := 0 }) else tieCheck p m
  let lead := if byCarry then mine else holdsOver m1 p
  let sticky := m.pair.mismatch = 2 || (meeting && differs == 2 && !lead)
  let mm := if sticky then 2 else if !lead && differs == 1 then 1 else 0
  let cause := if m.pair.release.isSome then 2 else if !lead && mm != 0 && meeting then 3 else 0
  setRole (if lead then 2 else 3) cause { m1 with pair.mismatch := mm }

/-! ## Heartbeats (R398, R399) -/

def crc16Bit (c : Nat) (b : Bool) : Nat :=
  let c1 := c * 2 % 65536
  if bit c 15 != b then c1 ^^^ 0x1021 else c1

/-- CRC-16 with polynomial 0x1021 and initial value 0xFFFF over the low bits of a number, most significant first. -/
def crc16 (len v : Nat) : Nat := (List.range len).foldl (fun c i => crc16Bit c (bit v (len - 1 - i))) 0xFFFF

/-- The 168 bits of a heartbeat. -/
def beatBits (m : M) : Nat :=
  (((m.pair.e * 2 ^ 8 + m.pair.role) * 2 ^ 16 + partNo m) * 2 ^ 64 + runHash m) * 2 ^ 64 + m.part.serial

/-- HEARTBEAT_SEND: one on each lane with its identity, and the CLAIM frame of sync, bits and CRC. -/
def heartbeatSend (m : M) : M :=
  if !pairActive m || !tickOpen m 2 1000000 then m
  else
    let b := beatBits m
    let m1 := tickMark 2 1000000 m
    let m2 := if conjLanes m then emit (.peer 0 [1, b]) (emit (.peer 0 [0, b]) m1) else m1
    emit (.peer 1 [(0xA5 * 2 ^ 168 + b) * 2 ^ 16 + crc16 168 b]) m2

def execHeartbeatSend (s : State) : Host.Outcome State Fault Refusal := lift heartbeatSend s

def downNs : Nat := 3000000

/-- A valid heartbeat on a lane or wire. -/
def beatTake (now : Nat) (l : HbLane) : HbLane :=
  let near := match l.last with
    | some t => decide (now < t + downNs)
    | none => false
  let run := if near then l.run + 1 else 1
  { last := some now, run := run, up := l.up || decide (3 ≤ run) }

def beatBad (l : HbLane) : HbLane := { l with run := 0 }

def beatLane (m : M) (path lane : Nat) : HbLane := if path = 1 then m.pair.wire else if lane = 0 then m.pair.lane0 else m.pair.lane1

def setBeat (path lane : Nat) (l : HbLane) (m : M) : M :=
  if path = 1 then { m with pair.wire := l } else if lane = 0 then { m with pair.lane0 := l } else { m with pair.lane1 := l }

/-- EV_PAIR_PATH of a path whose state has changed. -/
def pathChange (path before : Nat) (m : M) : M :=
  if pathState m path = before then m
  else raise 0x0902 1 pairOid
    [.u 1 path, .u 1 (pathState m path), .u 1 (b2n (path == 0 && m.pair.crossed)),
     .u 1 (b2n (path == 0 && (m.pair.loop0 || m.pair.loop1)))] m

/-- A lane hears the part itself. -/
def selfLoop (path lane : Nat) (m : M) : M :=
  if path = 1 then m
  else
    let before := pathState m 0
    let m1 := setBeat 0 lane hbReset (if lane = 0 then { m with pair.loop0 := true } else { m with pair.loop1 := true })
    pathChange 0 before m1

/-- What the peer's heartbeat ends: a release of this part, once the peer leads (R413); one for an entry into Comma goes on. -/
def releaseDone (role : Nat) (m : M) : M :=
  match m.pair.release with
  | some (d, _) =>
    if role = 2 && d.opcode = 0x0302 then { m with pair.release := none, pwr.entryStep := 3 }
    else if role = 2 then
      finish d false { reply stOK 0 0xFF with plain := some (m.pair.c + 2 * 65536, pairPlain m) } { m with pair.release := none }
    else m
  | none => m

/-- A heartbeat arrives: its path, and once the path is UP, what it says of the peer. -/
def heartbeat (path : Nat) (hb : Heartbeat) (m : M) : M :=
  if !pairActive m || !conjLanes m || 1 < path || 1 < hb.lane then m
  else if !hb.crcOk then setBeat path hb.lane (beatBad (beatLane m path hb.lane)) (count .pairCrc 0 path 0 m)
  else if hb.serial = m.part.serial then selfLoop path hb.lane m
  else
    let before := pathState m path
    let m1 := setBeat path hb.lane (beatTake m.vault.mono (beatLane m path hb.lane)) m
    let m2 := if path = 1 then m1
      else if hb.lane = 0 then { m1 with pair.loop0 := false, pair.crossed := hb.laneId != 0 }
      else { m1 with pair.loop1 := false, pair.crossed := hb.laneId != 1 }
    let m3 := pathChange path before { m2 with pair.heard := some m.vault.mono }
    if !(beatLane m3 path hb.lane).up then m3
    else
      let p : Peer := { restr := hb.restr, claim := hb.claim, role := hb.role, part := hb.part, hash := hb.hash, serial := hb.serial }
      releaseDone hb.role (decideRole hb p { m3 with pair.peer := some p })

/-- PAIR_PATH_TIMEOUT: lanes of a path without a valid heartbeat for 3 ms are DOWN. -/
def pairPathTimeout (path : Nat) (m : M) : M :=
  if m.pair.role = 0 || 1 < path then m
  else
    let before := pathState m path
    let late (l : HbLane) : HbLane := match l.last with
      | some t => if t + downNs ≤ m.vault.mono then { l with run := 0, up := false } else l
      | none => l
    let m1 := if path = 1 then { m with pair.wire := late m.pair.wire }
      else { m with pair.lane0 := late m.pair.lane0, pair.lane1 := late m.pair.lane1 }
    pathChange path before m1

def execPairPathTimeout (path : Nat) (s : State) : Host.Outcome State Fault Refusal := lift (pairPathTimeout path) s

/-- PAIR_TAKEOVER (R402): 20 ms without a valid heartbeat on either path. -/
def takeover (m : M) : M :=
  if m.pair.role < 2 || (match m.pair.heard with | some t => decide (m.vault.mono < t + 20000000) | none => false) then m
  else
    let mm := if m.pair.mismatch = 2 then 2 else 0
    let m1 := { m with pair.mismatch := mm }
    if m.pair.role = 3 then setRole 1 1 (countPair 6 1 { m1 with pair.e := m.pair.c }) else setRole 1 0 m1

def execPairTakeover (s : State) : Host.Outcome State Fault Refusal := lift takeover s

/-! ## Commands (R412, R413) -/

def pairObj (d : Desc) (m : M) : Bool := oidOk m 8 false (oid d)

def pairReply (m m1 : M) : M × Applied := (m1, plainDone (pairPlain m) (pairPlain m1))

/-- Pairing begins or ends: the paths, the peer and the mismatch are forgotten, and the commit delay follows (R403). -/
def pairEnable (on : Bool) (m : M) : M :=
  let m1 := { m with
    pair.lane0 := hbReset, pair.lane1 := hbReset, pair.wire := hbReset, pair.crossed := false, pair.loop0 := false, pair.loop1 := false,
    pair.peer := none, pair.heard := none, pair.mismatch := 0, pair.tied := false, pair.delayNext := some on }
  setRole (b2n on) 2 m1

def applyPairConfig (d : Desc) (m : M) : M × Applied :=
  let on := payBit d 0 0
  let e := if m.pair.role = 0 || !on || m.pair.e != 0 then pay d 2 2 else 0
  let m1 := { m with pair.c := pay d 2 2, pair.e := e }
  pairReply m (if on == (m.pair.role != 0) then m1 else pairEnable on m1)

def pairConfigSpec : CmdSpec :=
  { baseSpec 0x0901 permService with
    force := true
    mask := mbits 0 1 ||| mb 2 2
    obj := pairObj
    fields := fun d _ => firstBad [(pay d 2 2 == 0, off 2)]
    late := fun d m => firstFail [(!payBit d 0 0 && decide (2 ≤ m.pair.role) && !isForce d, stConflict, 0)]
    plainNow := fun _ m => same (pairPlain m)
    apply := applyPairConfig }

def execPairConfig (d : Desc) (s : State) : Host.Outcome State Fault Refusal := lift (hostRow pairConfigSpec d) s

def claimRelease (d : Desc) : Bool := pay d 0 1 == 0

/-- A release that has something to release: the part holds the claim. -/
def mayRelease (m : M) : Bool := m.pair.role == 1 || m.pair.role == 2

def peerClaim (m : M) : Nat := match m.pair.peer with
  | some p => p.claim
  | none => 0

def peerPart (m : M) : Nat := match m.pair.peer with
  | some p => p.part
  | none => partNo m

def pairClaimSpec : CmdSpec :=
  { baseSpec 0x0902 { permPf0 with se := true } with
    mask := mb 0 1
    obj := pairObj
    fields := fun d _ => firstBad [(decide (1 < pay d 0 1), off 0)]
    late := fun d m =>
      if claimRelease d then
        (if !mayRelease m then none
         else firstFail [(!anyPathUp m || peerClaim m == 0, stPeerRefused, 0), (peerPart m != partNo m, stMismatch, 0)])
      else if m.pair.e = m.pair.c then none
      else firstFail [(m.pair.mismatch != 0, stMismatch, 0)]
    plainNow := fun _ m => same (pairPlain m)
    apply := fun d m =>
      if claimRelease d then
        (if mayRelease m then ({ m with pair.e := 0, pair.release := some (d, m.vault.mono) }, .later) else pairReply m m)
      else pairReply m { m with pair.e := m.pair.c } }

def execPairClaim (d : Desc) (s : State) : Host.Outcome State Fault Refusal := lift (hostRow pairClaimSpec d) s

/-- PAIR_CLAIM_RELEASE_TIMEOUT: 10 ms without a peer that leads; an entry into Comma ends with that status (R441). -/
def releaseTimeout (m : M) : M :=
  match m.pair.release with
  | some (d, t) =>
    if t + 10000000 ≤ m.vault.mono then
      let m1 := { m with pair.e := m.pair.c, pair.release := none }
      if d.opcode = 0x0302 then finish d false (reply stTimeout 0 0xFF) { m1 with pwr.state := 0, pwr.entry := none }
      else finish d false { reply stTimeout 0 0xFF with plain := some (m.pair.c + 2 * 65536, pairPlain m1) } m1
    else m
  | none => m

def execPairClaimReleaseTimeout (s : State) : Host.Outcome State Fault Refusal := lift releaseTimeout s

/-- A peer of which no path is UP is in Comma or gone; which of the two the spec gives the part no means to tell. -/
def peerAsleep (m : M) : Bool := Config.freeNat m.drawn % 2 == 1

/-- PAIR_WAKE: over the Conjunction link, or as the pattern on CLAIM_OUT; from the peer it changes nothing here. -/
def pairWakeSpec : CmdSpec :=
  { baseSpec 0x0903 { permService with pe := true } with
    obj := pairObj
    late := fun d m => if d.path = .peer then none else firstFail [(!anyPathUp m && !peerAsleep m, stPeerRefused, 0)]
    plainNow := fun _ m => same (pairPlain m)
    apply := fun d m =>
      if d.path = .peer then pairReply m m
      else pairReply m (draw (if anyPathUp m then emit (.peer 5 []) m else emit (.pin 3 0 true) m)) }

def execPairWake (d : Desc) (s : State) : Host.Outcome State Fault Refusal := lift (hostRow pairWakeSpec d) s

/-! ## Replayed decisions (R404) -/

/-- A codec instance starts afresh: the tasks that wait on it go. -/
def instRestart (k : Nat) (m : M) : M :=
  { m with tsk.ready := tmap m.tsk.ready fun _ l => l.filter fun t => t.stream != k }

/-- An ordered release, or a loss, that the leader reached: lower numbers are settled by their own outcomes. -/
def replayRelease (k seq : Nat) (lost : Bool) (m : M) : M :=
  match getStrm m k with
  | none => m
  | some s =>
    if (match s.done with | some n => decide (seq ≤ n) | none => false) then m
    else match s.held.find? fun p => p.seq == seq && p.auth == 1 && !lost with
      | some p => releaseOne k p m
      | none => handLoss k seq (declareLost k seq (updStream k (fun x => { x with held := x.held.filter fun p => p.seq != seq }) m))

def replayPresented (k n : Nat) (m : M) : M :=
  match getCtx m k, getBuf m (keyDie k) n with
  | some c, some b =>
    if (match c.shown with | some s => s.desc == n | none => false) then m
    else
      let s := match (c.outNow.toList ++ c.outLate.toList).find? fun s => s.desc == n with
        | some s => s
        | none => { desc := n, tainted := b.tainted, s := b.s, t := b.t }
      let drop (x : Option Shown) : Option Shown := x.bind fun y => if y.desc = n then none else some y
      presentPicture k (boundaryNo (ctxWindow c) m.dev) s
        (updCtx k (fun x => { x with outNow := drop x.outNow, outLate := drop x.outLate }) m)
  | _, _ => m

def replaySuperseded (k n : Nat) (m : M) : M :=
  match getCtx m k with
  | none => m
  | some c =>
    let is (x : Option Shown) : Bool := match x with | some s => s.desc == n | none => false
    if is c.outNow then supersede k c.outNow (updCtx k (fun x => { x with outNow := none }) m)
    else if is c.outLate then supersede k c.outLate (updCtx k (fun x => { x with outLate := none }) m)
    else m

/-- The source of the frame in progress is the leader's. -/
def replaySource (k : Nat) (p : Nat × Nat) (m : M) : M :=
  match getEnc m k with
  | none => m
  | some e => match e.job with
    | none => m
    | some j =>
      if j.src = some p || (getBuf m p.1 p.2).isNone then m
      else
        let m1 := match j.src with
          | some q => encDrop q m
          | none => m
        updEnc k (fun x => { x with job := some { j with src := some p }, lastSrc := some p }) (encHold p m1)

def replayKey (k scope s : Nat) (m : M) : M :=
  updEnc k (fun e =>
    { e with req := none, job := e.job.map fun j =>
        if scope = 0 then { j with key := true, switch := some 0, skip := false, t := 0 }
        else { j with switch := lowestOpt j.switch (some s), skip := false } }) m

/-- The inclusion mask of a window: before the addition, it says which partial sums have arrived; after it, the total is added
again over the dies the leader included. -/
def replayMask (b w mask : Nat) (m : M) : M :=
  let mine (p : Partial) : Bool := p.bus == b && p.window == w
  let ins := m.mix.partials.filter fun p => mine p && bit mask (p.die - 1)
  let n := match getBus m b with | some x => busN x | none => 0
  let m1 := { m with
    mix.partials := m.mix.partials.map fun (p : Partial) => if mine p then { p with arrived := bit mask (p.die - 1) } else p,
    mix.totals := m.mix.totals.map fun (t : Total) =>
      if t.bus = b && t.window = w && t.mask != mask then { totalOf b w n ins t.at_ with mask := mask } else t }
  if m.mix.totals.any fun t => t.bus == b && t.window == w then updBus b (fun x => { x with lastMask := mask }) m1 else m1

/-- A total that the leader lacked at a die counts as late here too, for the exchange window that runs. -/
def replayTotal (b die w : Nat) (m : M) : M :=
  let mx := getMixer m die
  match getBus m b, mx.window with
  | some x, some k =>
    let t := k * mx.len
    if mx.lack.contains b || t / busE x ≠ w + 2 then m
    else totalMissed b die w (legsOnBuses die t m) (setMixer die { mx with lack := mx.lack ++ [b] } m)
  | _, _ => m

def replayVoid (die f token : Nat) (m : M) : M :=
  if (getFlow m die f).items.any fun i => i.token == token && i.st == 0 then
    flowSettle die f (count .tskCnt die 0 0 (setFlow die f (flowMark (fun i => i.token == token) 2 (getFlow m die f)) m))
  else m

def replayRefresh (src scope s : Nat) (m : M) : M := match originEnc m src with
  | some (ek, _) => encRequest ek scope s false m
  | none => match fwdOfSource m src with
    | e :: _ => pliEntry e.1 m
    | [] => m

def replayResent (k seq : Nat) (m : M) : M := match getSend m k with
  | some s => if s.rtx.any fun r => r.pkt.seq % 65536 == seq && !r.resent then nackOne k seq m else m
  | none => m

/-- One outcome of a decision record, applied as if the part had reached it itself (Table 18-2). An outcome it has already
reached changes nothing. -/
def replayOne (m : M) : Outcome → M
  | .anchor k v => updStream k (fun x => { x with anchor := some v, anchorMin := none, anchorAt := m.dev }) m
  | .released k q => replayRelease k q false m
  | .lost k q => replayRelease k q true m
  | .lateDrop k q => updStream k (fun x => { x with held := x.held.filter fun p => p.seq != q }) m
  | .decodeLate k => updCtx k (fun c => { c with lateBy := match c.queue.getLast? with | some q => some q.2.1 | none => c.lateBy }) m
  | .presented k n => replayPresented k n m
  | .superseded k n => replaySuperseded k n m
  | .compAborted k => cmpAbort k m
  | .encSource k die n => replaySource k (die, n) m
  | .encLate k => match getEnc m k with
    | some e => if e.job.isSome then encFinish k (freeRows e m) { m with drawn := m.drawn + 4096 } else m
    | none => m
  | .encKey k scope s => replayKey k scope s m
  | .encFreeze k layer row => updEnc k (fun e => { e with freezeAt := e.freezeAt ++ [(layer, row)] }) m
  | .busMask b w mask => replayMask b w mask m
  | .totalLate b die w => replayTotal b die w m
  | .block e p w ready =>
    if ready then m
    else updDspAt (oidDie e) (oidIdx e - 12) p w m
  | .void die f token => replayVoid die f token m
  | .notMade die => count .tskCnt die 0 1 m
  | .estimate leg v => setTLeg leg { getTLeg m leg with auto := v } m
  | .point k s t => setPoint k (s, t) m
  | .refresh src scope s => replayRefresh src scope s m
  | .queueDrop die q cause l => queueServe (queueKey die q) (replayDrops (queueKey die q) cause l m)
  | .resent k q => replayResent k q m
  | .learned leg a p => learnDest leg a p m
  | .throttleLate .. => m
  | .streamReset k => instRestart k m
  | .resync k => refreshReq k 0 m
where
  /-- A block that was not ready: the port is late in that window. -/
  updDspAt (die n p w : Nat) (m : M) : M := match getDsp m die n with
    | some e => match tget? e.ports p with
      | some x => if x.lateAt = some w then m
        else portLate die n p w (setDsp die n { e with ports := tset e.ports p { x with lateAt := some w } } m)
      | none => m
    | none => m

/-! ## The agreement check (R410, R411) -/

/-- The kind of a muted output: its send stream's kind, 9 for an SDI output. -/
def outKind (m : M) (out : Nat) : Nat := if 2 ^ 28 ≤ out then 9 else match getSend m out with
  | some s => s.kind
  | none => 9

def outOid (out : Nat) : Nat := if 2 ^ 28 ≤ out then infraOid ((out - 2 ^ 28) / 16) else sendOid out
def outIndex (out : Nat) : Nat := if 2 ^ 28 ≤ out then out - 2 ^ 28 else sendIndex out

/-- A digest that differs: the output is muted, or stays so; a muted video output asks for a key frame. -/
def muteOut (out w : Nat) (m : M) : M :=
  if m.pair.mutes.any fun u => u.out == out then
    { m with pair.mutes := m.pair.mutes.map fun (u : Mute) => if u.out = out then { u with agree := 0 } else u }
  else
    let k := outKind m out
    let u : Mute := { out := out, window := w, agree := 0, met := !(k == 0 || k == 1 || k == 6), at_ := m.vault.mono }
    let m1 := raise 0x0903 2 (outOid out) [.u 2 (outIndex out), .u 4 (w % 2 ^ 32)]
      (countPair 2 1 { m with pair.mutes := m.pair.mutes ++ [u] })
    if k = 1 || k = 6 then emit (.peer 4 [out]) m1 else m1

/-- A digest that agrees: a muted output whose condition is met is heard again. -/
def agreeOut (out w : Nat) (m : M) : M :=
  match m.pair.mutes.find? fun u => u.out == out with
  | none => m
  | some u =>
    let n := u.agree + 1
    if u.met || (outKind m out == 0 && decide (8 ≤ n)) then
      raise 0x0904 4 (outOid out) [.u 2 (outIndex out), .u 4 (w - u.window)]
        (countPair 3 1 { m with pair.mutes := m.pair.mutes.filter fun x => x.out != out })
    else { m with pair.mutes := m.pair.mutes.map fun (x : Mute) => if x.out = out then { x with agree := n } else x }

/-- DECISION_RECORD_RECEIVED: before the commit point at the end of the window after its own, it is applied; mended packets
pass ingress from stage 7; digests are compared. -/
def recordReceived (r : DecRecord) (m : M) : M :=
  if !pairActive m || m.pair.role ≠ 3 then m
  else if (r.window + 2) * replayNs m ≤ m.dev then peerClear (countPair 1 1 m)
  else
    let m1 := r.mended.foldl (fun x f => match getLeg x (strmLeg f.1) with
      | some l => dupStage f.1 false l f.2 x
      | none => x) m
    let m2 := r.outcomes.foldl replayOne m1
    let m3 := r.agree.foldl (fun x a => if a.2 then agreeOut a.1 r.window x else muteOut a.1 r.window x) m2
    peerClear { m3 with pair.applied := some r.window }

def execDecisionRecordReceived (rec : DecRecord) (s : State) : Host.Outcome State Fault Refusal := lift (recordReceived rec) s

/-- HOLDINGS_RECEIVED: what the follower lacks, and which records it has. -/
def holdingsReceived (h : Holdings) (m : M) : M :=
  if !pairActive m || m.pair.role ≠ 2 then m
  else
    let left := m.pair.unacked.filter fun w => decide (h.window < w)
    let m1 := { m with pair.holdings := some h, pair.unacked := left }
    if left.isEmpty then peerClear m1 else m1

def execHoldingsReceived (h : Holdings) (s : State) : Host.Outcome State Fault Refusal := lift (holdingsReceived h) s

/-- RESYNC_REQUEST_RECEIVED: replayed as a refresh request; for an audio send stream, as a stream reset. -/
def resyncReceived (send : Nat) (m : M) : M :=
  if !pairActive m || m.pair.role ≠ 2 then m
  else if outKind m send = 0 then noteOut (.streamReset send) (instRestart send m)
  else refreshReq send 0 m

def execResyncRequestReceived (send : Nat) (s : State) : Host.Outcome State Fault Refusal := lift (resyncReceived send) s

/-! ## The end of a replay window (R403 to R407) -/

/-- Packets released in the window that the follower's last holdings lack, with their lengths. -/
def mendList (m : M) : List (Nat × Nat) := match m.pair.holdings with
  | none => []
  | some h => m.pair.outcomes.filterMap fun o => match o with
    | .released k q => if h.streams.any fun s => s.1 == k && s.2.2.contains q then some (k, q) else none
    | _ => none

/-- The leader's record leaves. Mended packets that would make it too long are left out; how much room the outcomes leave
is free. -/
def recordSend (w : Nat) (m : M) : M :=
  let list := mendList m
  let room := Config.freeNat m.drawn % (list.length + 1)
  let kept := list.take room
  let m1 := emit (.decision { window := w, outcomes := m.pair.outcomes, mended := [], agree := [] }) (draw m)
  let m2 := kept.foldl (fun x k => emit (.peer 3 [w, k.1, k.2]) x) m1
  peerMark (countPair 5 (list.length - kept.length) (countPair 4 kept.length
    { m2 with pair.outcomes := [], pair.unacked := m.pair.unacked ++ [w] }))

/-- What a receive stream holds: highest number accepted, and those of its duplicate window that it lacks. -/
def strmHoldings (s : Nat × Strm) : Option (Nat × Nat × List Nat) := s.2.top.map fun t =>
  (s.1, t, (List.range 1024).filterMap fun i => if i ≤ t && !s.2.marks.testBit i then some (t - i) else none)

/-- The follower's holdings leave; the window before is committed with its record or alone. Audio outputs muted for 1 s ask
for a stream reset. -/
def followCommit (w : Nat) (m : M) : M :=
  let m1 := emit (.holdings { window := (m.pair.applied).getD 0, streams := m.net.streams.filterMap strmHoldings }) m
  let m2 := if 1 ≤ w && (match m.pair.applied with | some a => decide (a < w - 1) | none => true) then countPair 0 1 m1 else m1
  let due (u : Mute) : Bool := outKind m u.out == 0 && decide (u.at_ + nsPerS ≤ m.vault.mono)
  let m3 := (m2.pair.mutes.filter due).foldl (fun x u => emit (.peer 4 [u.out]) x) m2
  peerMark { m3 with pair.mutes := m3.pair.mutes.map fun (u : Mute) => if due u then { u with at_ := m.vault.mono } else u }

/-- REPLAY_WINDOW_END: at each boundary of the replay window. -/
def replayEnd (m : M) : M :=
  let now := m.dev / replayNs m
  if m.pair.window = some now || now = 0 then m
  else
    let m1 := { m with pair.window := some now }
    let m2 := if m.pair.role = 2 then recordSend (now - 1) m1 else if m.pair.role = 3 then followCommit (now - 1) m1 else m1
    let m3 := match m2.pair.delayNext with
      | some on => { m2 with pair.delay := on, pair.delayNext := none }
      | none => m2
    exclTake m3

def execReplayWindowEnd (s : State) : Host.Outcome State Fault Refusal := lift replayEnd s

end Sys2Proof.Machine
end

