-- ==== Sys2Proof/Machine/Syn.lean ====
section
/-!
DEFINITION. The syntax image (chapter 03): the boot record, SYN_STAGE, SYN_ACTIVATE, SYN_BOOT_SET, the live re-structure of a
media die; and the Fold faults that may fail one of its steps (R21, R22).
-/
namespace Sys2Proof.Machine

/-- First 8 bytes of a digest, byte 0 in the low byte. -/
def first8 (h : Digest) : Nat := ((List.range 8).map fun i => h.toNat / 2 ^ (376 - 8 * i) % 256 * 256 ^ i).sum

/-! ## The boot record (R69) -/

/-- Bytes 0 to 63 of a copy. -/
def copyBytes (c : BootCopy) : List Byte :=
  leBytes 4 c.magic ++ leBytes 4 c.sequence ++ leBytes 1 c.preferred ++ leBytes 1 c.limit ++ leBytes 1 c.attemptMirror ++
  leBytes 1 c.rsv1 ++ leBytes 2 c.watchdogMs ++ leBytes 2 c.rsv2 ++ beBytes 24 c.hashA.toNat ++ beBytes 24 c.hashB.toNat

/-- A copy with the CRC-32 of its bytes. -/
def sealCopy (c : BootCopy) : BootCopy := { c with crc32 := crc32 (copyBytes c) }

def copyValid (c : BootCopy) : Bool :=
  c.magic == magicBrec && c.crc32 == crc32 (copyBytes c) && decide (c.preferred ≤ 1) && decide (1 ≤ c.limit) && decide (c.limit ≤ 7) &&
  decide (1000 ≤ c.watchdogMs) && decide (c.watchdogMs ≤ 30000)

def validCopy (c : Option BootCopy) : Option BootCopy := c.bind fun x => if copyValid x then some x else none

/-- The copy in force with its place: the higher sequence number, copy 0 at equal ones. -/
def bootInForce (s : SynSt) : Option (Nat × BootCopy) :=
  match validCopy s.boot0, validCopy s.boot1 with
  | some a, some b => if a.sequence < b.sequence then some (1, b) else some (0, a)
  | some a, none => some (0, a)
  | none, some b => some (1, b)
  | none, none => none

def slotImage (s : SynSt) (slot : Nat) : Option Image := if slot = 0 then s.slotA else if slot = 1 then s.slotB else s.ram

/-- First 24 bytes of a structure hash. -/
def slotHash (h : Digest) : BitVec 192 := BitVec.ofNat 192 (h.toNat / 2 ^ 192)

def copyHash (c : BootCopy) (slot : Nat) : BitVec 192 := if slot = 0 then c.hashA else c.hashB

def withHash (slot : Nat) (h : BitVec 192) (c : BootCopy) : BootCopy :=
  if slot = 0 then { c with hashA := h } else { c with hashB := h }

/-- The first rule of groups 0x01 and 0x02 that a slot or the staged copy (2) breaks; what is no image has no magic, and a
staged copy damaged in hub memory fails rule 0x0108 (Table 16-3). -/
def slotViol (m : M) (slot : Nat) : Option Viol := match slotImage m.syn slot with
  | some i => if slot = 2 && m.syn.ramDamaged then some (headViol 0x108) else rulesAll m.part m.vault.ownerKey none i
  | none => some (headViol 0x101)

/-- The slot hash that verifying a slot finds: zero on a failure. -/
def foundHash (m : M) (slot : Nat) : BitVec 192 := match slotImage m.syn slot, slotViol m slot with
  | some i, none => slotHash i.hash
  | _, _ => 0

/-- A copy to start from where none is in force (R69). DESIGN CHOICE (log 109): its attempt_mirror, which R69 does not give, is
the present attempt counter. -/
def bootDefault (m : M) : BootCopy :=
  { magic := magicBrec, sequence := 0, preferred := 0, limit := 3, attemptMirror := m.start.counter, rsv1 := 0,
    watchdogMs := 8000, rsv2 := 0, hashA := foundHash m 0, hashB := foundHash m 1, crc32 := 0 }

def bootNow (m : M) : BootCopy := match bootInForce m.syn with
  | some c => c.2
  | none => bootDefault m

/-- A new copy over the one not in force; with none in force, copy 0. -/
def bootPut (f : BootCopy → BootCopy) (m : M) : M :=
  let c := bootNow m
  let n := sealCopy { f c with sequence := (c.sequence + 1) % 2 ^ 32 }
  match bootInForce m.syn with
  | some (0, _) => { m with syn.boot1 := some n }
  | _ => { m with syn.boot0 := some n }

/-- A slot invalid under R419: its hash in the record in force is all zero. -/
def slotInvalid (m : M) (slot : Nat) : Bool := match bootInForce m.syn with
  | some c => copyHash c.2 slot == 0
  | none => false

/-- Whether a write of the record that may fail succeeds: free. -/
def bootWriteOk (m : M) : Bool := Config.freeNat m.drawn % 2 == 0

/-- Whether the flash read of a source slot succeeds (0x0F02): free. -/
def flashReadOk (m : M) : Bool := Config.freeNat m.drawn % 2 == 0

def setSlot? (slot : Nat) (i : Option Image) (m : M) : M :=
  if slot = 0 then { m with syn.slotA := i } else if slot = 1 then { m with syn.slotB := i } else { m with syn.ram := i }

/-- SYN_SLOT_STATUS: 1 valid, 2 invalid with the rule. -/
def slotStatus (slot : Nat) (v : Option Viol) (m : M) : M :=
  let x : Nat × Nat := match v with
    | none => (1, 0)
    | some w => (2, w.rule)
  if slot = 0 then { m with syn.slotStA := x } else if slot = 1 then { m with syn.slotStB := x } else m

/-- A rule failure that a command finds (0 stage, 1 activate). -/
def ruleFail (cmd : Nat) (v : Viol) (m : M) : M :=
  raise 0x0203 2 synOid [.u 2 v.rule, .u 2 v.sec, .u 1 v.die, .u 1 cmd] { m with syn.lastRule := v.rule }

/-! ## SYN_STAGE (R73) -/

def synObj (d : Desc) (m : M) : Bool := oidOk m 2 false (oid d)

def stageTarget (d : Desc) : Nat := bufByte d 0
def verifyOnly (d : Desc) : Bool := bufByte d 1 % 2 == 1

/-- The first rule of the whole set that a staged image breaks. -/
def stageViol (d : Desc) (m : M) : Option Viol := match d.image with
  | some i => rulesAll m.part m.vault.ownerKey (some (bufN d 4 4)) i
  | none => some (headViol 0x101)

/-- EV_SYN_STAGED. -/
def stagedEvent (target : Nat) (i : Image) (m : M) : M := raise 0x0204 3 synOid [.u 1 target, .u 8 (first8 i.hash)] m

/-- The rules are applied; then a slot is made invalid and the write begins, or the RAM area takes the image. -/
def applyStage (d : Desc) (m : M) : M × Applied :=
  match stageViol d m, d.image with
  | some v, _ => (ruleFail 0 v m, .done (reply stInvalid (violDetail v) 0xFF))
  | none, none => (m, okReply 0xFF)
  | none, some i =>
    let t := stageTarget d
    if verifyOnly d then (m, okReply 0xFF)
    else if t = 2 then (stagedEvent 2 i { m with syn.ram := some i, syn.ramDamaged := false }, okReply 0xFF)
    else
      let m1 := setSlot? t none (bootPut (withHash t 0) m)
      ({ m1 with
          syn.staging := some { d := d, target := t, image := i },
          syn.slotStA := if t = 0 then (0, 0) else m1.syn.slotStA,
          syn.slotStB := if t = 1 then (0, 0) else m1.syn.slotStB }, .later)

def stageRsv (d : Desc) : Option Nat :=
  if ptrLen d < 16 then none else bufReserved d [0xFF, 1, 0, 0, 0xFF, 0xFF, 0xFF, 0xFF, 0, 0, 0, 0, 0, 0, 0, 0]

def synStageSpec : CmdSpec :=
  { baseSpec 0x0201 permService with
    ptr := true
    bufRsv := fun d _ => stageRsv d
    obj := synObj
    fields := fun d _ => firstBad
      [(decide (ptrLen d < 16), 0x20), (decide (2 < stageTarget d), inBuf 0), (bufN d 4 4 != ptrLen d - 16, inBuf 4)]
    late := fun d m => firstFail
      [(stageTarget d == 2 && decide ((usableChans m 0).length ≤ 1), stResource, 0),
       (m.syn.staging.isSome, stBusy, 0), (stageTarget d == m.syn.startedSlot, stConflict, 0)]
    apply := applyStage }

def execSynStage (d : Desc) (s : State) : Host.Outcome State Fault Refusal := lift (hostRow synStageSpec d) s

/-- SYN_STAGE_WRITE_DONE: erase, program and read-back of the slot have ended, and it is verified again, under the owner key
as it now stands. -/
def stageDone (ok : Bool) (m : M) : M :=
  match m.syn.staging with
  | none => m
  | some g =>
    let m1 := { m with syn.staging := none }
    if ok then
      let m2 := setSlot? g.target (some g.image) m1
      match stageViol g.d m with
      | some v => finish g.d true (reply stInvalid (violDetail v) 0xFF) (slotStatus g.target (some v) (ruleFail 0 v m2))
      | none =>
        finish g.d true (reply stOK 0 0xFF) (stagedEvent g.target g.image
          (slotStatus g.target none (bootPut (withHash g.target (slotHash g.image.hash)) m2)))
    else
      let v := headViol 0xF01
      finish g.d true (reply stTimeout (violDetail v) 0xFF) (slotStatus g.target (some v) (ruleFail 0 v m1))

def execSynStageWriteDone (ok : Bool) (s : State) : Host.Outcome State Fault Refusal := lift (stageDone ok) s

/-! ## SYN_BOOT_SET (R423) -/

def bootPlain (c : BootCopy) : Nat := c.limit + c.watchdogMs * 65536

def applyBootSet (d : Desc) (m : M) : M × Applied :=
  let old := bootPlain (bootNow m)
  if bootWriteOk m then
    let m1 := bootPut (fun c => { c with limit := pay d 0 1, watchdogMs := pay d 2 2 }) (draw m)
    (m1, plainDone old (bootPlain (bootNow m1)))
  else (draw m, .done { reply stTimeout 0 0xFF with plain := some (old, old) })

def synBootSetSpec : CmdSpec :=
  { baseSpec 0x0203 permService with
    mask := mb 0 1 ||| mb 2 2
    obj := synObj
    plainNow := fun _ m => same (bootPlain (bootNow m))
    fields := fun d _ => firstBad
      [(decide (pay d 0 1 < 1) || decide (7 < pay d 0 1), off 0), (decide (pay d 2 2 < 1000) || decide (30000 < pay d 2 2), off 2)]
    late := fun _ m => firstFail [(m.syn.staging.isSome, stBusy, 0)]
    apply := applyBootSet }

def execSynBootSet (d : Desc) (s : State) : Host.Outcome State Fault Refusal := lift (hostRow synBootSetSpec d) s

/-! ## KEY_OWNER_ENROL (R67) -/

/-- The running image's owner fields, when their signature verifies under the key they carry. -/
def runOwner (m : M) : Option Digest :=
  (img m).bind fun i => if ownerVerifies i then some (keyDigest i.sign.ownerKey) else none

def keyOwnerEnrolSpec : CmdSpec :=
  { baseSpec 0x0701 permCompliance with
    obj := synObj
    fields := fun _ m => firstBad [((runOwner m).isNone, violDetail (headViol 0x10A))]
    late := fun _ m => firstFail [(m.vault.ownerKey.isSome, stConflict, 0)]
    apply := fun _ m => match runOwner m with
      | some k => (raise 0x0202 1 synOid [.u 8 (first8 k)] { m with vault.ownerKey := some k }, okReply 0xFF)
      | none => (m, okReply 0xFF) }

def execKeyOwnerEnrol (d : Desc) (s : State) : Host.Outcome State Fault Refusal :=
  liftOp 0x0701 (hostRow keyOwnerEnrolSpec d) s

/-! ## SYN_ACTIVATE, part scope (R74) -/

def actDie (d : Desc) : Nat := pay d 1 1
def actSource (d : Desc) : Nat := pay d 2 1

/-- What the loader finds of a source: whether the flash read of a slot succeeds (DEDUCED, log 110: what is not read is not
judged by the other rules), the rules of groups 0x01 and 0x02, and for a slot its hash in the record in force. -/
def sourceViol (m : M) (src : Nat) : Option Viol :=
  if src ≤ 1 && !flashReadOk m then some (headViol 0xF02)
  else match slotViol m src with
  | some v => some v
  | none => match bootInForce m.syn, slotImage m.syn src with
    | some c, some i => if src ≤ 1 && slotHash i.hash != copyHash c.2 src then some (headViol 0x108) else none
    | _, _ => none

def refuseRule (v : Viol) (m : M) : M × Applied := (ruleFail 1 v m, .done (reply stInvalid (violDetail v) 0xFF))

def activatePart (d : Desc) (m0 : M) : M × Applied :=
  let src := actSource d
  let v := sourceViol m0 src
  let m := draw (slotStatus src v m0)
  match v with
  | some v => refuseRule v m
  | none =>
    let go (x : M) : M × Applied :=
      (if payBit d 3 1 then { x with syn.restartAt := some (x.vault.mono + 10000000) } else x, okReply 0xFF)
    if !payBit d 3 0 then go m
    else if bootWriteOk m then go (bootPut (fun c => { c with preferred := src }) (draw m))
    else (draw m, .done (reply stTimeout 0 0xFF))

/-! ## SYN_ACTIVATE, die scope (R75, R394) -/

/-- Legs of a die that are ARMED, LIVE or DRAINING. -/
def heldLegs (m : M) (die : Nat) : Nat := (m.net.legs.filter fun l => keyDie l.1 == die && decide (2 ≤ l.2.state)).length

/-- The source's structure hash is the peer's running hash. -/
def peerHas (m : M) (src : Nat) : Bool := match m.pair.peer, slotImage m.syn src with
  | some p, some i => p.part == partNo m && p.hash == hash64 i.hash
  | _, _ => false

/-- A peer that carries the die's legs (R394): for a following part always, for a leading one when its follower is not muted
for mismatch, or already runs the source's structure. -/
def peerCarries (m : M) (src : Nat) : Bool :=
  m.pair.role == 3 || (m.pair.role == 2 && ((match m.pair.peer with
    | some p => pairDiffers p m == 0
    | none => false) || peerHas m src))

def peerRestructures (m : M) : Bool := match m.pair.peer with
  | some p => p.restr
  | none => false

/-- The lowest guard in force for audio windows of each size. -/
def audioGuards (m : M) : List Nat := [guardOf m 0, guardOf m 1]

def actLate (d : Desc) (m : M) : Option (Nat × Nat) :=
  let src := actSource d
  let missing := if src = 2 then m.syn.ram.isNone else slotInvalid m src
  if pay d 0 1 = 0 then firstFail [(m.syn.rest.isSome, stBusy, 0), (missing, stConflict, 0)]
  else
    let n := heldLegs m (actDie d)
    firstFail
      [(m.syn.rest.isSome, stBusy, 0), (missing, stConflict, 0),
       (n != 0 && !peerCarries m src, stConflict, n * 2 ^ 32),
       (peerCarries m src && peerRestructures m, stPeerRefused, 0)]

/-- EV_SYN_RESTRUCTURE and action 0x0281; the offline time in ms is 4 bytes (Table 04-8a). -/
def restPhase (die phase ms : Nat) (m : M) : M := announce 2 0x0201 1 synOid [.u 1 die, .u 1 phase, .u 4 ms] 0 m

/-- Step 1 begins. -/
def restStart (d : Desc) (i prev : Image) (m : M) : M :=
  let src := actSource d
  restPhase (actDie d) 0 0 { m with
    syn.rest := some { d := d, die := actDie d, step := 1, t0 := m.vault.mono, t2 := m.vault.mono,
                       quiesceAt := firstAfter hubWindow m.dev, image := i, prev := prev,
                       fromSlot := if src ≤ 1 then some src else none, prefer := payBit d 3 0 && decide (src ≤ 1),
                       rollback := false, failStep := 0 } }

/-- The rules on the source, for a die. -/
def dieViol (m : M) (d : Desc) : Option Viol := match sourceViol m (actSource d) with
  | some v => some v
  | none => match img m, slotImage m.syn (actSource d) with
    | some r, some i => rulesDie r i (actDie d) (audioGuards m)
    | _, _ => none

def activateDie (d : Desc) (m0 : M) : M × Applied :=
  let m := draw (slotStatus (actSource d) (sourceViol m0 (actSource d)) m0)
  match dieViol m0 d, img m, slotImage m.syn (actSource d) with
  | some v, _, _ => refuseRule v m
  | none, some r, some i =>
    if m.pair.role = 2 && peerCarries m (actSource d) then
      ({ m with pair.e := 0, pair.waits := m.pair.waits ++ [d] }, .later)
    else (restStart d i r m, .later)
  | _, _, _ => (m, .done (reply stConflict 0 0xFF))

def synActivateSpec : CmdSpec :=
  { baseSpec 0x0202 permService with
    mask := mb 0 3 ||| mbits 3 3
    obj := synObj
    fields := fun d m => firstBad
      [(decide (1 < pay d 0 1), off 0),
       (pay d 0 1 == 1 && (actDie d == 0 || decide (m.part.media < actDie d)), off 1),
       (decide (2 < actSource d) || (pay d 0 1 == 0 && actSource d == 2), off 2)]
    late := actLate
    apply := fun d m => if pay d 0 1 = 0 then activatePart d m else activateDie d m }

def execSynActivate (d : Desc) (s : State) : Host.Outcome State Fault Refusal := lift (hostRow synActivateSpec d) s

/-- The peer leads: the re-structures that waited for it begin, when their source still passes (R394). -/
def restWaits (m : M) : M :=
  let mine := m.pair.waits.filter fun d => d.opcode == 0x0202
  mine.foldl (fun y d =>
    let x := draw y
    match dieViol y d, img x, slotImage x.syn (actSource d) with
    | none, some r, some i => if x.syn.rest.isSome then finish d false (reply stBusy 0 0xFF) x else restStart d i r x
    | some v, _, _ => finish d false (reply stInvalid (violDetail v) 0xFF) (ruleFail 1 v x)
    | _, _, _ => finish d false (reply stConflict 0 0xFF) x) { m with pair.waits := m.pair.waits.filter fun d => d.opcode != 0x0202 }

/-! ## The steps of a re-structure (R76 to R78) -/

/-- A media die holds fewer channels, or less memory, than it must (R373). -/
def memShort (m : M) (die : Nat) : Bool :=
  let n := (usableChans m die).length
  decide (n < (imgFloors (img m)).2.1.getD (die - 1) 0) || n == 0 || decide (usableMib m die < 2048)

/-- Usable lanes: a personality, and what the bring-up finds of each. -/
def lanesUsable (m : M) (die : Nat) (ok : List Bool) : Nat :=
  ((List.range 8).filter fun l => lanePers (img m) die l != 0 && ok.getD l false).length

def lanesShort (m : M) (die : Nat) (ok : List Bool) : Bool :=
  decide (lanesUsable m die ok < (imgFloors (img m)).2.2.1.getD (die - 1) 0)

/-- Enabled modem channels of a die, as a start leaves them. -/
def modemsForm (die : Nat) (m : M) : M :=
  (List.range 2).foldl (fun x c =>
    if modemEnabled (img x) die c then { x with cod.modems := tset x.cod.modems (modKey die c) modemReset } else x) m

/-- The links of a die are trained; one with a die at its other end lost or held stays as it is. -/
def linksTrain (die : Nat) (m : M) : M :=
  foldFlags ((linksOf m.part.media).foldl (fun x l =>
    match linkEnds x.part.media l, getLink x l with
    | some e, some k =>
      let other := if e.1 = die then e.2 else e.1
      if (e.1 = die || e.2 = die) && k.state != 2 && !dieOut x other then
        announce foldUnit 0x0D04 3 (infraOid 0) [.u 1 l] 0 (updLink l (fun y => { y with state := 2 }) x)
      else x
    | _, _ => x) m)

/-- Every object of the die goes, and it is offline. -/
def restQuiesce (r : Restructure) (m : M) : M :=
  dieGone r.die true (setDieState r.die 2
    { m with syn.rest := some { r with step := 2, t2 := m.vault.mono } })

/-- A die runs sections that the started slot does not hold, or that came from RAM (Table 03-10, R76). -/
def runDiffers (m : M) : Bool := !m.syn.ramDies.isEmpty || (match m.syn.run, slotImage m.syn m.syn.startedSlot with
  | some a, some b => a.sections.any fun s => match imgFind b s.typ s.die with
    | some t => t.data != s.data || t.body != s.body
    | none => true
  | _, _ => true)

/-- Dies that run sections staged to RAM, once a re-structure of one has ended. -/
def ramDiesAfter (r : Restructure) (m : M) : List Nat :=
  if r.rollback then m.syn.ramDies
  else (if r.fromSlot.isNone then [r.die] else []) ++ m.syn.ramDies.filter (· != r.die)

/-- Step 7, or the end of a rollback: the die is in Run. -/
def restDone (r : Restructure) (m : M) : M :=
  let ms := (m.vault.mono - r.t2) / 1000000
  let m1 := modemsForm r.die { m with
    syn.dies := tset m.syn.dies r.die (1, hold 0xFFFF ms), syn.rest := none, syn.ramDies := ramDiesAfter r m }
  let m2 := { m1 with syn.differs := runDiffers m1 }
  let m3 := restPhase r.die (if r.rollback then 2 else 1) ms m2
  if r.rollback then finish r.d false (reply stTimeout (r.failStep * 2 ^ 40) 0xFF) m3
  else match r.prefer, r.fromSlot with
    | true, some s =>
      if bootWriteOk m3 then finish r.d false (reply stOK 0 0xFF) (bootPut (fun c => { c with preferred := s }) (draw m3))
      else finish r.d false (reply stOK 1 0xFF) (draw m3)
    | _, _ => finish r.d false (reply stOK 0 0xFF) m3

/-- A step fails: the previous sections come back from step 3 on; in a rollback, the die is lost. -/
def restFail (m : M) : M :=
  match m.syn.rest with
  | none => m
  | some r =>
    if r.rollback then dieLost r.die none m
    else
      let m1 := if r.step = 1 then restQuiesce r m else m
      { m1 with
        syn.run := some r.prev,
        syn.rest := some { r with step := 3, t0 := m.vault.mono, t2 := if r.step = 1 then m.vault.mono else r.t2,
                                  rollback := true, failStep := r.step } }

/-- Step 2 is due: at the next 1 ms audio window start, at most t0 + 1 ms (Table 03-9). -/
def quiesceDue (r : Restructure) (m : M) : Bool :=
  decide (r.quiesceAt ≤ m.dev) || decide (r.t0 + 1000000 ≤ m.vault.mono)

/-- RESTRUCTURE_STEP_DONE: the step in progress ends, well or not, with what its training and bring-up found. Step 1 does not
end before step 2 is due. -/
def restStep (ok : Bool) (res : DieResult) (m : M) : M :=
  match m.syn.rest with
  | none => m
  | some r =>
    let next (x : M) : M := { x with syn.rest := some { r with step := r.step + 1 } }
    if !ok then restFail m
    else if r.step = 1 then (if quiesceDue r m then restQuiesce r m else m)
    else if r.step = 2 then next m
    else if r.step = 3 then
      let run := if r.rollback then r.prev else restructured r.prev r.image r.die
      next (unitsForm r.die { m with syn.run := some run })
    else if r.step = 4 then
      let m1 := poolSize r.die (memTrain r.die res.chans m)
      if memShort m1 r.die then restFail m1 else next m1
    else if r.step = 5 then (if res.hubLinkOk then next (linksTrain r.die m) else restFail m)
    else if lanesShort m r.die res.lanesOk then restFail m
    else restDone r m

def execRestructureStepDone (ok : Bool) (res : DieResult) (s : State) : Host.Outcome State Fault Refusal := lift (restStep ok res) s

/-- RESTRUCTURE_TIMEOUT: 300 ms from step 2, or from the start of the rollback. -/
def restTimeout (m : M) : M :=
  match m.syn.rest with
  | none => m
  | some r =>
    if r.step ≥ 2 && decide ((if r.rollback then r.t0 else r.t2) + 300000000 ≤ m.vault.mono) then restFail m else m

def execRestructureTimeout (s : State) : Host.Outcome State Fault Refusal := lift restTimeout s

/-! ## Fold faults (R21, R22) -/

/-- FOLD_ACK_TIMEOUT: a request unacknowledged for 4 µs. -/
def execFoldAckTimeout (link : Nat) (s : State) : Host.Outcome State Fault Refusal := lift (linkGone link 0) s

/-- A link of the die under re-structure. -/
def restLink (m : M) (l : Nat) : Bool := match m.syn.rest, linkEnds m.part.media l with
  | some r, some e => e.1 == r.die || e.2 == r.die
  | _, _ => false

/-- EV_FOLD_INTEGRITY, once the outcome of the retry is known (0 the retry passed, 1 it failed). -/
def integrityEvent (l dir outcome : Nat) (m : M) : M := raise 0x0D01 0 (infraOid 0) [.u 1 l, .u 1 dir, .u 1 outcome] m

/-- Direction of a transfer of a link whose retry is under way. -/
def retryOf (x : FoldLink) (t : Nat) : Option Nat := (x.retry.find? fun p => p.1 == t).map Prod.snd

/-- The retry of a transfer is over. -/
def retryEnds (l t : Nat) (m : M) : M := updLink l (fun y => { y with retry := y.retry.filter fun p => p.1 != t }) m

/-- FOLD_INTEGRITY_FAIL: a failing check is one detection of the alarm. It is the first of its transfer, which is retried, or
the retry's own, which makes the link DOWN; the retry may run over another path, its link being DOWN meanwhile. -/
def integrityFail (l dir t : Nat) (m : M) : M :=
  match getLink m l with
  | none => m
  | some x =>
    if x.state ≠ 2 && (retryOf x t).isNone then m
    else
      let m1 := alarmOnset 5 (count .foldIntegrity 0 l 0 m)
      let m2 := match retryOf x t with
        | none => updLink l (fun y => { y with retry := y.retry ++ [(t, dir)] }) m1
        | some d0 => linkGone l 1 (integrityEvent l d0 1 (retryEnds l t m1))
      if restLink m l then restFail m2 else m2

def execFoldIntegrityFail (link : Nat) (check : FoldCheck) (s : State) : Host.Outcome State Fault Refusal :=
  lift (integrityFail link check.dir check.transfer) s

/-- FOLD_RETRY_DONE: the retry of a transfer ends. -/
def retryDone (l t : Nat) (ok : Bool) (m : M) : M :=
  match getLink m l with
  | none => m
  | some x => match retryOf x t with
    | none => m
    | some d0 => if ok then integrityEvent l d0 0 (retryEnds l t m) else integrityFail l d0 t m

def execFoldRetryDone (retry : FoldRetry) (ok : Bool) (s : State) : Host.Outcome State Fault Refusal :=
  lift (retryDone retry.link retry.transfer ok) s

end Sys2Proof.Machine
end

