-- ==== Sys2Proof/Machine/Windows.lean ====
section
/-!
DEFINITION. Windows and deadlines as the time base gives them (R46, R47), guards (R46, R71), pace and slack (R51 to R53), the
voltage loop (R54 to R56), and the reference outputs (R483).
-/
namespace Sys2Proof.Machine

/-! ## Output guards (R46) -/

/-- Rates of the objects of a kind that exist, as numerator and denominator. -/
def kindRates (m : M) (kind : Nat) : List (Nat × Nat) :=
  if kind = 2 then m.cod.ctxs.map fun c => (c.2.num, c.2.den)
  else if kind = 3 then m.cmp.comps.map fun c => formatRate c.2.format
  else m.enc.encs.map fun e => (e.2.num, e.2.den)

/-- A guard above half the shortest window among the objects of its kind, or, with none, above 500,000,000 ns. -/
def overHalf (m : M) (kind ns : Nat) : Bool :=
  let rs := kindRates m kind
  if rs.isEmpty then decide (500000000 < ns) else rs.any fun r => decide (r.2 * nsPerS < 2 * ns * r.1)

/-- The range of Table 02-3. -/
def guardRangeBad (m : M) (kind ns : Nat) : Bool :=
  if kind = 0 then decide (ns < 20000) || decide (500000 < ns)
  else if kind = 1 then decide (ns < 5000) || decide (125000 < ns)
  else overHalf m kind ns || (kind == 4 && decide (ns < 500000))

/-- Above the lowest guard ceiling among the mixers with the window of an audio kind (R71). -/
def overCeiling (m : M) (kind ns : Nat) : Bool :=
  decide (kind ≤ 1) && (mediaDies m).any fun d =>
    (dieState m d == 1 || dieState m d == 2) && dieWindow (img m) d == (if kind = 0 then 1000000 else 250000) && decide (guardCeiling (img m) d < ns)

def timGuardSetSpec : CmdSpec :=
  { baseSpec 0x0103 permPf0 with
    mask := mb 0 1 ||| mb 4 4
    obj := timObj
    fields := fun d m => firstBad
      [(decide (4 < pay d 0 1), off 0), (guardRangeBad m (pay d 0 1) (pay d 4 4), off 4)]
    late := fun d m => firstFail [(overCeiling m (pay d 0 1) (pay d 4 4), stConflict, 0)]
    apply := fun d m => ({ m with tim.guards := listSet m.tim.guards (pay d 0 1) (pay d 4 4) }, okReply 0xFF) }

def execTimGuardSet (d : Desc) (s : State) : Host.Outcome State Fault Refusal := lift (hostRow timGuardSetSpec d) s

/-! ## The voltage loop (R54 to R56) -/

def avsUnit : Nat := 4

/-- The last transaction is taken as acknowledged: 1 ms has passed and no AVS_ACK_TIMEOUT came of it (DEDUCED, log 117). -/
def avsAcked (m : M) : Bool := match m.avs.sentAt with
  | some t => decide (t + 1000000 < m.vault.mono)
  | none => true

/-- A request goes to the regulator when it differs from the one in force; it is journalled. A loop that stopped makes none
(R56). -/
def avsRequest (mv : Nat) (m : M) : M :=
  if mv = m.avs.requestMv || m.avs.fault then m
  else
    action avsUnit 0x03C0 (infraOid 0) m.avs.requestMv mv
      (emit (.avs mv) { m with avs.requestMv := mv, avs.sentAt := some m.vault.mono,
                               avs.acksMissed := if avsAcked m then 0 else m.avs.acksMissed })

/-- A wanted request clipped to the range and the cap, and the two flags of the last request. -/
def avsWant (mv : Nat) (m : M) : M :=
  let cap := if m.avs.capMv < 850 then m.avs.capMv else 850
  avsRequest (if mv < 700 then 700 else if cap < mv then cap else mv)
    { m with avs.atCap := decide (cap < mv), avs.atFloor := decide (mv < 700) }

/-- The least slack ratio as PWR_AVS_STATUS shows it. -/
def ratioShown : Option Int → Nat
  | some r => hold 0x3E8 r.toNat
  | none => 0x3E8

/-- A rise: clipped at the cap with the ratio still below the target it raises EV_AVS_CAP. -/
def avsRise (by_ : Nat) (r : Option Int) (m : M) : M :=
  let m1 := avsWant (m.avs.requestMv + by_) { m with avs.aboveNs := 0 }
  match r with
  | some x =>
    if m1.avs.atCap && decide (x < m.avs.target) then
      limited { ev := 0x0302, i := 0, j := 0 } nsPerS
        (raise 0x0302 2 (infraOid 0) [.u 2 m.avs.capMv, .s 2 x]) m1
    else m1
  | none => m1

/-- One run of the loop on an interval's least ratio (`none`: no job completed, R434). -/
def avsDecide (late : Bool) (r : Option Int) (m : M) : M :=
  let above := match r with
    | some x => decide ((m.avs.target + m.avs.hyst : Nat) < x)
    | none => true
  let low := match r with
    | some x => decide (x < m.avs.target)
    | none => false
  if late then avsRise 20 r m
  else if low then avsRise 5 r m
  else if above then
    let ns := hold 100000000 (m.avs.aboveNs + 10000000)
    let m1 := { m with avs.aboveNs := ns }
    if ns = 100000000 then avsWant (m.avs.requestMv - 5) m1 else m1
  else { m with avs.aboveNs := 0 }

/-- The loop runs: from Ready, enabled, not stopped, out of Comma state. -/
def avsRuns (m : M) : Bool :=
  m.avs.enabled && !m.avs.fault && m.start.phase == .ready && decide (m.pwr.state < 3)

def tkPace : Nat := 5
def tkSlack : Nat := 3
def tkAvs : Nat := 4

/-- AVS_LOOP_TICK, every 10 ms of device time. -/
def avsTick (m : M) : M :=
  if !tickOpen m tkAvs 10000000 then m
  else
    let r := m.pace.avsRatio
    let late := m.pace.anyLate
    let m1 := tickMark tkAvs 10000000 { m with pace.avsRatio := none, pace.anyLate := false, avs.ratioMin := ratioShown r }
    if avsRuns m then avsDecide late r m1 else m1

def execAvsLoopTick (s : State) : Host.Outcome State Fault Refusal := lift avsTick s

/-- AVS_ACK_TIMEOUT: a transaction unacknowledged for 1 ms is sent again; the third in a row stops the loop. -/
def avsAckTimeout (m : M) : M :=
  match m.avs.sentAt with
  | none => m
  | some t =>
    if m.vault.mono < t + 1000000 then m
    else if m.avs.acksMissed < 2 then
      emit (.avs m.avs.requestMv) { m with avs.acksMissed := m.avs.acksMissed + 1, avs.sentAt := some m.vault.mono }
    else
      announce avsUnit 0x0301 0 (infraOid 0) [.u 2 m.avs.requestMv] 0
        { m with avs.fault := true, avs.acksMissed := 0, avs.sentAt := none }

def execAvsAckTimeout (s : State) : Host.Outcome State Fault Refusal := lift avsAckTimeout s

/-- Effect of PWR_AVS_SET: the present request is clipped to the new cap, unless the loop stays stopped by a fault. -/
def applyAvsSet (d : Desc) (m : M) : M :=
  let en := payBit d 6 0
  let fault := m.avs.fault && !en
  let m1 := { m with
    avs.target := pay d 0 2, avs.capMv := pay d 2 2, avs.hyst := pay d 4 2, avs.enabled := en, avs.fault := fault,
    avs.acksMissed := if m.avs.fault && en then 0 else m.avs.acksMissed }
  if !fault && decide (pay d 2 2 < m.avs.requestMv) then avsWant m.avs.requestMv m1 else m1

def pwrAvsSetSpec : CmdSpec :=
  { baseSpec 0x0301 permService with
    mask := mb 0 6 ||| mbits 6 1
    obj := timObj
    fields := fun d _ => firstBad
      [(decide (pay d 0 2 < 50) || decide (500 < pay d 0 2), off 0),
       (decide (pay d 2 2 < 700) || decide (850 < pay d 2 2) || pay d 2 2 % 5 != 0, off 2),
       (decide (pay d 4 2 < 10) || decide (200 < pay d 4 2), off 4)]
    apply := fun d m => (applyAvsSet d m, okReply 0xFF) }

def execPwrAvsSet (d : Desc) (s : State) : Host.Outcome State Fault Refusal := lift (hostRow pwrAvsSetSpec d) s

/-! ## Pace and slack (R51 to R53) -/

/-- Unit class of a unit index (Table 02-6). -/
def unitClass (u : Nat) : Nat := if u < 12 then 0 else if u < 44 then 1 else if u < 47 then 2 else if u = 47 then 3 else 4

/-- Pace and busy share of a unit over 1 ms, from the work units it completed and its busy time in ns (Table 02-11). -/
def paceShown (u work busyNs : Nat) : Nat × Nat :=
  if busyNs = 0 then (0, 0)
  else (hold 0xFFFF (work * (if unitClass u = 0 || unitClass u = 2 then 1000 else 100) / busyNs), hold 1000 (busyNs / 1000))

/-- Load of a link over 1 ms (LINK_STATUS.load); a link that is not UP carries nothing. -/
def linkLoad (loads : List (Nat × Nat)) (l : Nat) (x : FoldLink) : FoldLink :=
  { x with load := if x.state = 2 then (match loads.find? fun p => p.1 == l with | some p => hold 1000 p.2 | none => 0) else 0 }

/-- PACE_METER_INTERVAL: the meters of the millisecond that ended, of the units and of the Fold links. -/
def paceInterval (pm : PaceMeters) (m : M) : M :=
  if !tickOpen m tkPace 1000000 || decide (3 ≤ m.pwr.state) then m
  else
    let t := pm.units.foldl (fun t x =>
      if decide (x.1 ≤ m.part.media) && decide (1 ≤ x.1) && decide (x.2.1 < 49) then
        tset t (paceKey x.1 x.2.1) (paceShown x.2.1 x.2.2.1 x.2.2.2)
      else t) []
    tickMark tkPace 1000000 { m with pace.pace := t, fold := tmap m.fold (linkLoad pm.loads) }

def execPaceMeterInterval (meters : PaceMeters) (s : State) : Host.Outcome State Fault Refusal :=
  lift (paceInterval meters) s

/-- A unit whose least ratio is below the armed threshold of its class and die. -/
def slackLow (k : Nat) (r : Int) (m : M) : M :=
  match tget? m.pace.alarms (k / 64 * 8 + unitClass (k % 64)) with
  | some (true, t) =>
    if r < t then
      limited { ev := 0x0106, i := k, j := 0 } 100000000 (raise 0x0106 3 (infraOid (k / 64)) [.u 1 (k % 64), .s 2 r]) m
    else m
  | _ => m

/-- SLACK_INTERVAL, every 10 ms of device time. -/
def slackInterval (m : M) : M :=
  if !tickOpen m tkSlack 10000000 || decide (3 ≤ m.pwr.state) then m
  else
    let m1 := tickMark tkSlack 10000000
      { m with pace.slackMin := m.pace.accSlack, pace.accSlack := [], pace.accRatio := [] }
    m.pace.accRatio.foldl (fun x p => slackLow p.1 p.2 x) m1

def execSlackInterval (s : State) : Host.Outcome State Fault Refusal := lift slackInterval s

/-! ## Reference outputs (R483) -/

/-- The boundary of a rate code, 0 for 1 Hz. -/
def refGrid (code : Nat) : Boundary := if code = 0 then .video 1 1 else .video (rateOf code).1 (rateOf code).2

/-- The rate whose window start applies a setting: that of REF_OUT, or of LTC_OUT when only it is enabled. -/
def refoutRate (d : Desc) : Nat := if payBit d 0 0 || !payBit d 0 1 then pay d 1 1 else pay d 4 1

def refoutSetSpec : CmdSpec :=
  { baseSpec 0x1704 permService with
    mask := mbits 0 3 ||| mb 1 2 ||| mbits 3 1 ||| mb 4 1 ||| mb 8 4
    obj := partObj
    fields := fun d _ => firstBad
      [(decide (11 < pay d 1 1), off 1), (payBit d 0 0 && pay d 2 1 == 0, off 2),
       (!([2, 3, 4, 5].contains (pay d 4 1) || (pay d 4 1 == 0 && !payBit d 0 1)), off 4)]
    when := fun d _ => some (refGrid (refoutRate d))
    notBefore := fun _ m => firstAfter (.grid nsPerS) m.dev
    apply := fun d m =>
      let r : RefoutSt :=
        { enable := pay d 0 1, refRate := pay d 1 1, width := pay d 2 1, polarity := payBit d 3 0, ltcRate := pay d 4 1,
          offset := payS d 8 4, bytes := pay d 0 8 }
      (refIdle { m with refout := r },
       plainDone m.refout.bytes (pay d 0 8))
    plainNow := fun _ m => same m.refout.bytes }

def execPinRefoutSet (d : Desc) (s : State) : Host.Outcome State Fault Refusal := lift (hostRow refoutSetSpec d) s

/-- Seconds of the day at a device time, with the offset of LTC_OUT. -/
def ltcSeconds (m : M) (t : Nat) : Int := ((t / nsPerS : Nat) + m.refout.offset) % 86400

/-- Frames that drop-frame counting has labelled before the frame `n` of a day, beside `n`. -/
def dropLabel (n : Nat) : Nat :=
  let d := n / 17982
  let r := n % 17982
  n + 18 * d + (if r < 1800 then 0 else 2 * ((r - 1800) / 1798 + 1))

/-- Number of the window in its day: windows since the first one of the day. -/
def dayFrame (m : M) (b : Boundary) (k : Nat) : Nat :=
  let t := boundaryAt b k
  let day := t / nsPerS - (ltcSeconds m t).toNat
  k - boundaryNo b (firstAt b (day * nsPerS))

/-- A frame of linear timecode: hours, minutes, seconds, frames, drop-frame flag. -/
def ltcFrame (m : M) (k : Nat) : List Int :=
  let code := m.refout.ltcRate
  let fps : Nat := if code = 2 then 24 else if code = 3 then 25 else 30
  let n := dayFrame m (refGrid code) k
  let l := (if code = 4 then dropLabel n else n) % (86400 * fps)
  let s := l / fps
  [(s / 3600 : Nat), (s / 60 % 60 : Nat), (s % 60 : Nat), (l % fps : Nat), (b2n (code == 4) : Nat)]

/-- A window of REF_OUT (0) or LTC_OUT (1) starts: a pulse of the set width, or a frame. -/
def refoutWindow (n : Nat) (m : M) : M :=
  let b := refGrid (if n = 0 then m.refout.refRate else m.refout.ltcRate)
  if !bit m.refout.enable n || !refDriving m then m
  else match winOpen b (tget? m.ticks (6 + n)) m with
  | none => m
  | some k =>
    let m1 := { m with ticks := tset m.ticks (6 + n) k }
    winMark b k (if n = 0 then emit (.net 13 0 m.refout.width [(b2n (!m.refout.polarity) : Nat)]) m1
      else emit (.net 14 0 0 (ltcFrame m k)) m1)

/-! ## Window starts and deadline strobes (R46, R47) -/

/-- WINDOW_START: 0 the audio window of a die, 1 a decode context, 2 a compositor, 3 an encode context, 4 a stream with frame
synchronisation, 5 REF_OUT (index 0) and LTC_OUT (index 1). -/
def windowStart (kind die idx : Nat) (m : M) : M :=
  match kind with
  | 0 => mixWindow die m
  | 1 => codWindow (mkKey die idx) m
  | 2 => cmpWindow (mkKey die idx) m
  | 3 => encWindow (mkKey die idx) m
  | 4 => syncStart (mkKey die idx) m
  | 5 => if idx ≤ 1 then refoutWindow idx m else m
  | _ => m

def execWindowStart (kind die idx : Nat) (s : State) : Host.Outcome State Fault Refusal := lift (windowStart kind die idx) s

/-- DEADLINE_STROBE: 0 the mixer of a die, 1 a decode context, 2 a compositor, 3 an encode context. -/
def deadlineStrobe (kind die idx : Nat) (m : M) : M :=
  match kind with
  | 0 => mixOverrun die m
  | 1 => decodeStrobe (mkKey die idx) m
  | 2 => cmpStrobe (mkKey die idx) m
  | 3 => encStrobe (mkKey die idx) m
  | _ => m

def execDeadlineStrobe (kind die idx : Nat) (s : State) : Host.Outcome State Fault Refusal := lift (deadlineStrobe kind die idx) s

end Sys2Proof.Machine
end

