-- ==== Sys2Proof/Machine/Start.lean ====
section
/-!
DEFINITION. Reset, the start sequence, attempts and Stem mode (chapter 19).
-/
namespace Sys2Proof.Machine

def startUnit : Nat := 1

/-! ## Reset (R415, R469) -/

/-- Everything but the always-on domain takes its reset values: what stays is MONO and the owner key, the flash, the attempt
counter and history, MEM_RATE_SET, the levels of the reset inputs and supplies, and the alarm unit (R161). -/
def wipe (m : M) : M :=
  { mReset with
    part := m.part, vault := m.vault, sent := m.sent, drawn := m.drawn,
    syn := { synReset with slotA := m.syn.slotA, slotB := m.syn.slotB, boot0 := m.syn.boot0, boot1 := m.syn.boot1 },
    jrn := { jrnReset with mirror := m.jrn.mirror, programmed := m.jrn.programmed },
    key := { keyReset with alarmLow := m.key.alarmLow, latched := m.key.latched, present := m.key.present,
                           enabled := m.key.enabled, hotDies := m.key.hotDies, count := m.key.count },
    mem := { memReset with rateTarget := m.mem.rateTarget },
    start := { startReset with
      porstLow := m.start.porstLow, perstLow := m.start.perstLow, supplyLow := m.start.supplyLow,
      counter := m.start.counter, history := m.start.history, standbyGone := m.start.standbyGone,
      failed := m.start.failed, owed := m.start.owed } }

/-- PORST_N, PERST# and the supply monitor let the part run. -/
def released (m : M) : Bool := !m.start.porstLow && !m.start.perstLow && m.start.supplyLow == 0

/-- Every start releases ALARM_N and enables every alarm source (R160, R161). -/
def alarmRelease (m : M) : M :=
  let m1 := { m with key.latched := 0, key.count := 0, key.alarmLow := false, key.enabled := 0x7F }
  if m.key.alarmLow then emit (.pin 0x100 0 true) m1 else m1

/-- A start begins at step 1, when the resets let it (R416). -/
def beginStart (m : M) : M :=
  let m1 := alarmRelease (wipe m)
  if !released m then m1
  else
    emit (.avs 800) { m1 with
      avs.sentAt := some m.vault.mono,
      start.begun := true, start.t0 := m.vault.mono, start.step := 1, pwr.monoRestarted := m.start.standbyGone }

/-! ## Journal of a start (R116 to R119, R431) -/

/-- Sequence number of a start record (R119). -/
def startSeq (j : JrnSt) : Nat := (mirrorSeq j).getD 0 / 2 ^ 20 * 2 ^ 20 + 2 ^ 21

/-- Chain of the newest record of the mirror that is no mirror gap. -/
def mirrorChain (j : JrnSt) : BitVec 128 := ((mirrorNewest j).map JRec.chain).getD 0

def jrnStart (m : M) : M :=
  { m with jrn.head := startSeq m.jrn, jrn.lastChain := mirrorChain m.jrn, jrn.lostChain := mirrorChain m.jrn }

/-- The action that tells of a failed attempt: attempt, slot, step, reason. -/
def failedOld (h : Hist) : Nat := h.attempt + h.slot * 2 ^ 8 + h.step * 2 ^ 16 + h.result * 2 ^ 24

/-- Start record, made by the start sequencer (R493), anchor, and the failed previous attempt. -/
def startRecords (m0 : M) : M :=
  let m := jrnStart m0
  let old := (mirrorSeq m.jrn).getD (2 ^ 64 - 1)
  let m1 := jrnAnchor (action startUnit 0x04C0 jrnOid old (m.start.slot + m.start.attempt * 256) m)
  match m.start.owed with
  | some (h, t) => action startUnit 0x0286 synOid (failedOld h) t { m1 with start.owed := none }
  | none => m1

/-! ## History (Table 19-6) -/

def histWord (h : Hist) : Nat :=
  h.result * 2 ^ 56 + h.step * 2 ^ 52 + h.attempt * 2 ^ 49 + h.slot * 2 ^ 48 + b2n h.degraded * 2 ^ 47 + h.durationMs

def histEntry (result : Nat) (m : M) : Hist :=
  { result := result, step := m.start.step, attempt := m.start.attempt, slot := m.start.slot,
    degraded := result == 0 && m.start.degraded, durationMs := hold 0xFFFFFFFF ((m.vault.mono - m.start.t0) / 1000000) }

def histPut (h : Hist) (m : M) : M := { m with start.history := (h :: m.start.history).take 8 }

/-! ## Stem mode (R425, R431) -/

/-- A record that Stem mode writes into the mirror directly: function 2, ring 0x3FF, Service domain. -/
def stemRecord (code old new result : Nat) (m : M) : M :=
  let j := m.jrn
  let r0 : JRec :=
    { seq := j.head, sec := m.dev / nsPerS, ns := m.dev % nsPerS, monoLo := m.vault.mono % 2 ^ 32, path := 2 * 1024 + 0x3FF,
      origin := 3 * 32 + m.tim.quality * 2, result := result, obj := synOid, opcode := code, old := old, new := new, chain := 0 }
  let r := { r0 with chain := chainOf j.lastChain r0 }
  { m with jrn := mirrorProgram r { j with head := j.head + 1, lastChain := r.chain } }

/-- Stem mode is entered with the reason of the attempt that failed. -/
def enterStem (reason : Nat) (m : M) : M :=
  let w := jrnStart (wipe m)
  let m1 := { w with
    start.phase := .stem, start.reason := reason, start.attempt := m.start.attempt, start.limit := m.start.limit,
    start.slot := m.start.slot, start.watchdogMs := m.start.watchdogMs, start.recordDefault := m.start.recordDefault,
    start.standbyLost := m.start.standbyLost, key.armed := true,
    host.linkSpeed := m.host.linkSpeed, host.linkWidth := m.host.linkWidth, host.flit := m.host.flit,
    syn.dies := (mediaDies m).map fun d => (d, (4, 0)) }
  stemRecord 0x02C1 reason ((m.start.history.head?.map histWord).getD 0) 0 m1

/-! ## The end of an attempt (R418, R420, R421) -/

/-- An attempt that fails before step 2 is counted at its failure; its entry reads step 1 and slot 0. -/
def countEarly (m : M) : M :=
  if m.start.attempt ≠ 0 then m
  else
    let n := hold 7 (m.start.counter + 1)
    { m with
      start.counter := n, start.attempt := n, start.step := 1, start.slot := 0, start.standbyGone := false,
      start.limit := (bootNow m).limit }

/-- The failed attempt enters the history and is owed its action and its event. -/
def noteFailed (reason : Nat) (m : M) : M :=
  let h := histEntry reason m
  histPut h { m with start.failed := (h, m.vault.mono) :: m.start.failed, start.owed := some (h, m.vault.mono) }

/-- A fatal check fails, or the watchdog expires: Stem mode from attempt N on, and where both slots are invalid at step 2
(R419); else a restart within 1 ms. -/
def failStart (reason : Nat) (m0 : M) : M :=
  let m := noteFailed reason (countEarly m0)
  if m.start.limit ≤ m.start.attempt || (reason = 2 && m.start.step = 2) then enterStem reason m
  else
    let w := wipe m
    { w with start.restartBy := some (m.vault.mono + 1000000) }

/-- A reset ends what runs: an attempt before step 13 fails with HOST_ABORT, and a start out of Stem mode begins with the
counter at 0. -/
def resetHold (m : M) : M :=
  let m1 := if m.start.phase = .stem then { m with start.counter := 0 }
    else if m.start.phase = .starting && m.start.begun then noteFailed 8 (countEarly m)
    else m
  wipe m1

/-! ## The steps of Table 19-1 -/

/-- Tj outside the grade, in 0.1 °C (R5). -/
def tempOut (m : M) (t : Int) : Bool := decide (1050 < t) || decide (t < (if m.part.gradeX then -200 else 0))

def dieRes (r : StartResult) (d : Nat) : DieResult :=
  r.dies.getD (d - 1) { selfTestOk := false, hubLinkOk := false, chans := [], lanesOk := [], temp := 0 }

def thermalBad (r : StartResult) (m : M) : Bool :=
  tempOut m r.hubTemp || (mediaDies m).any fun d => tempOut m (dieRes r d).temp

/-- The slot of an attempt (R419): the preferred one below N, else the other; an invalid one gives way to the other. -/
def slotChoice (m : M) (attempt : Nat) : Nat :=
  let b := bootNow m
  let s := if attempt < b.limit || b.limit = 1 then b.preferred else 1 - b.preferred
  if slotInvalid m s then 1 - s else s

/-- Step 2: the counter, the slot, attempt_mirror, and the first records of the start. -/
def step2 (r : StartResult) (m0 : M) : M × Option Nat :=
  let rec_ := bootInForce m0.syn
  let m1 := if m0.start.standbyGone then
      { m0 with start.counter := (match rec_ with
                  | some c => if r.flash2Ok then c.2.attemptMirror else 0
                  | none => 0),
                start.standbyLost := true, start.standbyGone := false }
    else m0
  let n := hold 7 (m1.start.counter + 1)
  let m := { m1 with start.counter := n, start.attempt := n }
  if !r.flash2Ok then (m, some 9)
  else
    let b := bootNow m
    let m2 := { m with
      start.limit := b.limit, start.watchdogMs := b.watchdogMs, start.recordDefault := rec_.isNone,
      start.slot := slotChoice m n, syn.startedSlot := slotChoice m n }
    if slotInvalid m 0 && slotInvalid m 1 then (m2, some 2)
    else
      let m3 := if rec_.isSome && r.bootWriteOk then bootPut (fun c => { c with attemptMirror := n }) m2 else m2
      (startRecords m3, none)

/-- Step 4: the key store's self-check; the alarm sources are armed, and a condition already present is detected (R160). -/
def step4 (r : StartResult) (m : M) : M × Option Nat :=
  if !r.keyStoreOk then (m, some 0xB)
  else
    let here := (m.key.present ||| r.alarms) % 128 &&& 0x5F
    let m1 := draw { m with key.armed := true, key.present := here, key.wrapDraw := m.drawn }
    (([0, 1, 2, 3, 4, 6].filter (bit here)).foldl (fun x b => alarmFire b x) m1, none)

/-- The image of the slot started from. -/
def startImage (m : M) : Option Image := slotImage m.syn m.start.slot

/-- Step 5: the rules of group 0x01 (R70). -/
def step5 (r : StartResult) (m : M) : M × Option Nat :=
  if !r.flash5Ok then (m, some 9)
  else match startImage m with
    | none => (m, some 2)
    | some i => match rulesFormat m.part m.vault.ownerKey none i with
      | some v => (m, some (if v.rule = 0x109 || v.rule = 0x10A then 1 else 2))
      | none => (m, none)

/-- Step 6: hub memory, and the journal ring with what was buffered (R118, R373, R15). -/
def step6 (r : StartResult) (m : M) : M × Option Nat :=
  let m1 := memTrain 0 r.hubChans m
  let usable := (usableChans m1 0).length
  let small := r.hubChans.any fun c => c.present && !c.density16
  if small || usable = 0 || decide (usable < (imgFloors (startImage m)).2.2.2) then (m1, some 4)
  else ({ m1 with jrn.ringUp := true, jrn.ring := m1.jrn.buffer, jrn.buffer := [] }, none)

/-- Step 7: the rules of group 0x02; the image runs. -/
def step7 (m : M) : M × Option Nat :=
  match startImage m with
  | none => (m, some 2)
  | some i => match rulesStructure m.part i with
    | some _ => (m, some 3)
    | none => ({ m with syn.run := some i, tsk.dieEqual := imgFoldArb (some i) == 1 }, none)

/-- A media die is held (R424). -/
def holdDie (reason d : Nat) (m : M) : M := setDieState d 4 { m with start.lastHeld := reason }

def runningDies (m : M) : List Nat := (mediaDies m).filter (dieRun m)

/-- Media dies in Run below the floor: the reason of the die held last. -/
def floorFail (m : M) : M × Option Nat :=
  if (runningDies m).length < (imgFloors (img m)).1 then (m, some (if m.start.lastHeld = 0 then 5 else m.start.lastHeld))
  else (m, none)

/-- A link as its first training leaves it. -/
def linkStart (now : Nat) (ok : Bool) : FoldLink := if ok then linkReset else { linkReset with state := 3, downAt := now }

/-- Step 8: self-test of the media dies, hub links, then ring links. -/
def step8 (r : StartResult) (m : M) : M × Option Nat :=
  let m1 := (mediaDies m).foldl (fun x d => if (dieRes r d).selfTestOk then setDieState d 1 x else holdDie 5 d x) m
  let m2 := (mediaDies m).foldl (fun x d =>
    let ok := (dieRes r d).hubLinkOk
    let y := { x with fold := tset x.fold (d - 1) (linkStart x.vault.mono ok) }
    if dieRun x d && !ok then holdDie 6 d y else y) m1
  let m3 := (linksOf m.part.media).foldl (fun x l =>
    if 7 ≤ l then { x with fold := tset x.fold l (linkStart x.vault.mono (r.ringOk.contains l)) } else x) m2
  floorFail (foldFlags m3)

/-- Step 9: memory of every media die. -/
def step9 (r : StartResult) (m : M) : M × Option Nat :=
  ((runningDies m).foldl (fun x d => poolSize d (memTrain d (dieRes r d).chans x)) m, none)

/-- Step 10: memory floors and the media-die floor. -/
def step10 (m : M) : M × Option Nat :=
  floorFail ((runningDies m).foldl (fun x d => if memShort x d then holdDie 4 d x else x) m)

/-- Step 11: the structure of every media die. -/
def step11 (m : M) : M × Option Nat := ((runningDies m).foldl (fun x d => modemsForm d (unitsForm d x)) m, none)

/-- A lane with a personality that its bring-up finds unusable. -/
def laneBad (m : M) (d : Nat) (ok : List Bool) : Bool :=
  (List.range (if d = 0 then 4 else 8)).any fun l => lanePers (img m) d l != 0 && !ok.getD l false

/-- Step 12: lanes in their personalities, and the lane floors. -/
def step12 (r : StartResult) (m : M) : M × Option Nat :=
  let m0 := { m with start.lanesBad := laneBad m 0 r.hubLanesOk }
  floorFail ((runningDies m).foldl (fun x d =>
    let ok := (dieRes r d).lanesOk
    let y := { x with start.lanesBad := x.start.lanesBad || laneBad x d ok }
    if lanesShort y d ok then holdDie 5 d y else y) m0)

def heldMask (m : M) : Nat := ((mediaDies m).map fun d => if dieState m d = 4 then 2 ^ (d - 1) else 0).sum

/-- A start that reaches Ready with any die held, channel disabled or lowered, ring link DOWN or lane unusable. -/
def startDegraded (m : M) : Bool :=
  heldMask m != 0 || m.start.lanesBad || (List.range (m.part.media + 1)).any (memDegraded m) ||
  m.fold.any fun l => decide (7 ≤ l.1) && l.2.state == 3

/-- The boot record at Ready: the counter's mirror cleared, the started slot preferred (R422); with no record in force, a first
copy with the running structure's hash, the other slot still to be verified (R69). DESIGN CHOICE (log 111): the other slot's
slot_hash reads zero until then. -/
def readyBoot (slot : Nat) (m : M) : M :=
  let hash := ((img m).map fun i => slotHash i.hash).getD 0
  if (bootInForce m.syn).isSome then bootPut (fun c => { c with attemptMirror := 0, preferred := slot }) m
  else
    { bootPut (fun c => { withHash slot hash (withHash (1 - slot) 0 c) with attemptMirror := 0, preferred := slot }) m with
      start.otherVerify := some (1 - slot) }

/-- EV_START_FAILED of a failed attempt. -/
def failedEvent (h : Hist) (m : M) : M :=
  raise 0x0206 1 synOid [.u 1 h.attempt, .u 1 h.slot, .u 1 h.result, .u 1 h.step] m

/-- Step 13: Ready (R418, R422, R431, R432). -/
def step13 (r : StartResult) (m0 : M) : M :=
  let slot := m0.start.slot
  let pref := (bootNow m0).preferred
  let alt := slot != pref && r.bootWriteOk
  let m1 := { m0 with start.degraded := startDegraded m0, start.altUsed := alt, start.counter := 0, start.phase := .ready, start.begun := false }
  let m2 := histPut (histEntry 0 m1) (if r.bootWriteOk then readyBoot slot m1 else m1)
  let m3 := actionRes startUnit 0x0285 synOid (m2.start.attempt + slot * 256) (heldMask m2 + b2n alt * 256)
    (if m2.start.degraded then stDegraded else stOK) m2
  let m4 := if alt then action startUnit 0x02C4 synOid pref slot m3 else m3
  let m5 := m4.start.failed.reverse.foldl (fun x f => failedEvent f.1 x) m4
  raise 0x0205 1 synOid [.u 1 m5.start.attempt, .u 1 slot, .u 1 (b2n m5.start.degraded), .u 1 (b2n alt), .u 1 (heldMask m5)]
    { m5 with start.failed := [], start.owed := none }

/-- What the training of the host link corrected or left out (R454, PIN_PCIE_STATUS). -/
def pcieTrained (p : PcieTrain) (m : M) : M :=
  { m with pin.pcieInverted := p.inverted % 256, pin.pcieReversed := p.reversed, pin.pcieFailed := p.failed % 256 }

/-- One step of Table 19-1, with the reason when its check fails. -/
def startStep (r : StartResult) (n : Nat) (m : M) : M × Option Nat :=
  match n with
  | 2 => step2 r m
  | 3 => (pcieTrained r.pcie { m with host.linkSpeed := r.linkSpeed, host.linkWidth := r.linkWidth, host.flit := r.flit }, none)
  | 4 => step4 r m
  | 5 => step5 r m
  | 6 => step6 r m
  | 7 => step7 m
  | 8 => step8 r m
  | 9 => step9 r m
  | 10 => step10 m
  | 11 => step11 m
  | 12 => step12 r m
  | 13 => (step13 r m, none)
  | _ => (m, none)

/-- The steps after the one begun last, up to the last that the command runs. -/
def runSteps (r : StartResult) : Nat → M → M
  | 0, m => m
  | k + 1, m =>
    let n := m.start.step + 1
    if m.start.phase ≠ .starting || !m.start.begun || decide (13 < n) || decide (r.upTo < n) then m
    else
      let x := startStep r n { m with start.step := n }
      match x.2 with
      | some reason => failStart reason x.1
      | none => runSteps r k x.1

/-- Temperatures as HIF_TEMP shows them from step 8 on for the media dies. -/
def startTemps (r : StartResult) (m : M) : M :=
  if m.start.phase = .stem || !(m.start.begun || m.start.phase = .ready) then m
  else
    let t0 := tset m.host.temp 0 (m.vault.mono, r.hubTemp)
    { m with host.temp := (mediaDies m).foldl (fun t d =>
        if 8 ≤ m.start.step && dieState m d != 4 then tset t d (m.vault.mono, (dieRes r d).temp) else t) t0 }

/-- START_ATTEMPT. -/
def startAttempt (r : StartResult) (m : M) : M :=
  if m.start.phase ≠ .starting || !m.start.begun || !released m then m
  else if thermalBad r m then failStart 0xA m
  else startTemps r (runSteps r 13 m)

def execStartAttempt (result : StartResult) (s : State) : Host.Outcome State Fault Refusal := lift (startAttempt result) s

/-! ## Reset inputs, watchdog and restarts (R416, R420, R421, R480, R74) -/

def porstRelease (m : M) : M :=
  if !m.start.porstLow then m
  else
    let m1 := { m with start.porstLow := false }
    if released m1 then beginStart m1 else m1

def execPorstNRelease (s : State) : Host.Outcome State Fault Refusal := lift porstRelease s

def perstRelease (m : M) : M :=
  if !m.start.perstLow then m
  else
    let m1 := { m with start.perstLow := false }
    if released m1 then beginStart m1 else m1

def execPerstRelease (s : State) : Host.Outcome State Fault Refusal := lift perstRelease s

/-- RESET_ASSERT: PERST# or PORST_N goes low. -/
def resetAssert (perst : Bool) (m : M) : M :=
  let was := released m
  let m1 := if perst then { m with start.perstLow := true } else { m with start.porstLow := true }
  if was then resetHold m1 else m1

def execResetAssert (perst : Bool) (s : State) : Host.Outcome State Fault Refusal := lift (resetAssert perst) s

/-- SUPPLY_MONITOR_CHANGE: a rail of Table 23-2 (0 to 7 in its order) falls below its operating range or is back in it. -/
def supplyChange (rail : Nat) (ok : Bool) (m : M) : M :=
  if 7 < rail || bit m.start.supplyLow rail == !ok then m
  else
    let was := released m
    let m1 := { m with start.supplyLow := if ok then m.start.supplyLow - 2 ^ rail else m.start.supplyLow + 2 ^ rail }
    if was && !ok then resetHold m1 else if ok && released m1 then beginStart m1 else m1

def execSupplyMonitorChange (rail : Nat) (inRange : Bool) (s : State) : Host.Outcome State Fault Refusal :=
  lift (supplyChange rail inRange) s

/-- START_WATCHDOG_EXPIRY: measured from step 1. -/
def watchdogExpiry (m : M) : M :=
  if m.start.phase = .starting && m.start.begun && decide (m.start.t0 + m.start.watchdogMs * 1000000 ≤ m.vault.mono) then
    failStart 7 m
  else m

def execStartWatchdogExpiry (s : State) : Host.Outcome State Fault Refusal := lift watchdogExpiry s

/-- ATTEMPT_RESTART: within 1 ms of a failed attempt below N. -/
def attemptRestart (m : M) : M := if m.start.restartBy.isSome then beginStart m else m

def execAttemptRestart (s : State) : Host.Outcome State Fault Refusal := lift attemptRestart s

/-- ACTIVATE_RESTART_DUE: 10 ms after the completion of a SYN_ACTIVATE with restart now. -/
def activateRestart (m : M) : M :=
  match m.syn.restartAt with
  | some t => if t ≤ m.vault.mono then beginStart m else m
  | none => m

def execActivateRestartDue (s : State) : Host.Outcome State Fault Refusal := lift activateRestart s

/-- OTHER_SLOT_VERIFY_DONE. -/
def otherVerifyDone (m : M) : M :=
  match m.start.otherVerify with
  | none => m
  | some s =>
    slotStatus s (slotViol m s) (bootPut (withHash s (foundHash m s)) { m with start.otherVerify := none })

def execOtherSlotVerifyDone (s : State) : Host.Outcome State Fault Refusal := lift otherVerifyDone s

/-- ALWAYS_ON_POWER_UP: the always-on domain has lost its supply and has it again (R42, R382, R446). -/
def alwaysOn (m : M) : M :=
  let w := wipe m
  { w with
    vault.mono := 0, key.alarmLow := false, key.latched := 0, key.count := 0, mem.rateTarget := 3,
    start := { startReset with porstLow := m.start.porstLow, perstLow := m.start.perstLow, supplyLow := m.start.supplyLow } }

def execAlwaysOnPowerUp (s : State) : Host.Outcome State Fault Refusal := liftMono alwaysOn s

/-! ## Stem mode's flash operations (R426, R427) -/

/-- Offsets of the registers that Stem mode writes. -/
def stmFlashCmd : Nat := (regAddr 0 "STM_FLASH_CMD" []).getD 0
def stmControl : Nat := (regAddr 0 "STM_CONTROL" []).getD 0

/-- A write to a register of the STM block outside Stem mode is ignored, and in Run counted. -/
def stmWrite (offset : Nat) (f : M → M) (m : M) : M :=
  if m.start.phase = .stem then f m
  else if barOpen m then noteAccess .ignoredWrites 2 0 offset m else m

def execStmFlashErase (s : State) : Host.Outcome State Fault Refusal := lift (stmWrite stmFlashCmd (flashStart 1 0)) s
def execStmFlashProgram (len : Nat) (s : State) : Host.Outcome State Fault Refusal :=
  lift (stmWrite stmFlashCmd (flashStart 2 (len % 2 ^ 24))) s
def execStmFlashRead (len : Nat) (s : State) : Host.Outcome State Fault Refusal :=
  lift (stmWrite stmFlashCmd (flashStart 3 (len % 2 ^ 24))) s
def execStmFlashVerify (s : State) : Host.Outcome State Fault Refusal := lift (stmWrite stmFlashCmd (flashStart 4 0)) s
def execStmBootRecordWrite (s : State) : Host.Outcome State Fault Refusal := lift (stmWrite stmFlashCmd (flashStart 5 0)) s

/-- Region of Table 03-5 that holds all of [addr, addr + len): 0 boot record, 1 slot A, 2 slot B, 3 journal mirror. -/
def flashRegion (a len : Nat) : Option Nat :=
  let e := a + len
  if e ≤ 0x10000 then some 0
  else if 0x10000 ≤ a && decide (e ≤ 0x3C10000) then some 1
  else if 0x3C10000 ≤ a && decide (e ≤ 0x7810000) then some 2
  else if 0x7810000 ≤ a && decide (e ≤ 0x7C10000) then some 3
  else none

/-- The slot that a range lies in. -/
def flashSlot (a len : Nat) : Option Nat := match flashRegion a len with
  | some 1 => some 0
  | some 2 => some 1
  | _ => none

def lenBad (n : Nat) : Bool := n == 0 || decide (65536 < n)

/-- A byte of the flash window. -/
def winByte (m : M) (i : Nat) : Nat := (tget m.start.window i 0#8).toNat

/-- Outcome and rule of an operation whose flash answers, or does not. -/
def flashOutcome (o : StemOp) (ok : Bool) (m : M) : Nat × Nat :=
  let res : Nat × Nat := if ok then (0, 0) else (2, 0)
  if 0x7FFFFFF < o.addr then (3, 0)
  else match o.op with
  | 1 => if o.addr % 65536 ≠ 0 then (3, 0) else if (flashSlot o.addr 65536).isNone then (1, 0) else res
  | 2 => if o.addr % 256 ≠ 0 || lenBad o.len then (3, 0) else if (flashSlot o.addr o.len).isNone then (1, 0) else res
  | 3 => if lenBad o.len then (3, 0) else if (flashRegion o.addr o.len).isNone then (1, 0) else res
  | 4 =>
    if o.addr = 0x10000 || o.addr = 0x3C10000 then
      if !ok then (2, 0)
      else match slotViol m (if o.addr = 0x10000 then 0 else 1) with
        | some v => (4, v.rule)
        | none => (0, 0)
    else if (flashSlot o.addr 1).isNone then (1, 0) else (3, 0)
  | 5 =>
    if flashRegion o.addr 1 ≠ some 0 then (1, 0)
    else if 1 < winByte m 0 || winByte m 1 = 0 || 7 < winByte m 1 ||
        decide (winByte m 2 + winByte m 3 * 256 < 1000) || decide (30000 < winByte m 2 + winByte m 3 * 256) then (3, 0)
    else res
  | _ => (3, 0)

/-- The mirror record in a place of the ring of 65,536. DESIGN CHOICE (log 118): the n-th record ever programmed lies in place
n mod 65,536. -/
def mirrorAt (j : JrnSt) (k : Nat) : Option JRec := j.mirror[(j.programmed + 65535 - k) % 65536]?

/-- A byte of the flash as the part's state gives it: the boot record copies and the mirror's records; of any other byte the
reading says what it is. -/
def flashByte (m : M) (a : Nat) (read : Byte) : Byte :=
  let copy (c : Option BootCopy) (o : Nat) : Byte := match c with
    | some b => (copyBytes b ++ leBytes 4 b.crc32).getD o read
    | none => read
  match flashRegion a 1 with
  | some 0 => if a < 0x8000 then copy m.syn.boot0 a else copy m.syn.boot1 (a - 0x8000)
  | some 3 =>
    let o := a - 0x7810000
    match mirrorAt m.jrn (o / 64) with
    | some r => (recBytes r ++ leBytes 16 r.chain.toNat).getD (o % 64) read
    | none => read
  | _ => read

/-- Effect of an operation that reaches the flash: an erase or a program makes its slot invalid first. -/
def flashEffect (o : StemOp) (ok : Bool) (image : Option Image) (data : List Byte) (m : M) : M :=
  match o.op with
  | 1 => match flashSlot o.addr 65536 with
    | some s => setSlot? s none (bootPut (withHash s 0) m)
    | none => m
  | 2 => match flashSlot o.addr o.len with
    | some s => setSlot? s (if ok then image else none) (bootPut (withHash s 0) m)
    | none => m
  | 3 => if ok then
      { m with start.window := (List.range o.len).foldl (fun w i => cellSet i (flashByte m (o.addr + i) (data.getD i 0#8)) w) m.start.window }
    else m
  | 4 => if ok then
      let s := if o.addr = 0x10000 then 0 else 1
      bootPut (withHash s (foundHash m s)) m
    else m
  | _ => if ok then
      bootPut (fun c => { c with preferred := winByte m 0, limit := winByte m 1,
                                 watchdogMs := winByte m 2 + winByte m 3 * 256 }) m
    else m

/-- STM_FLASH_OP_DONE: the outcome, the vector, and action 0x02C2. -/
def flashDone (ok : Bool) (image : Option Image) (data : List Byte) (m : M) : M :=
  match m.start.flashOp with
  | none => m
  | some o =>
    let r := flashOutcome o ok m
    let m1 := if r.1 = 0 || r.1 = 2 then flashEffect o ok image data m else m
    let m2 := { m1 with start.flashOp := none, start.flashOutcome := r.1, start.flashRule := if r.1 = 4 then r.2 else 0 }
    msixRaise 2 0 (stemRecord 0x02C2 o.addr (o.op * 2 ^ 56 + o.len) (if r.1 = 0 then stOK else stInvalid) m2)

def execStmFlashOpDone (flashOk : Bool) (image : Option Image) (data : List Byte) (s : State) :
    Host.Outcome State Fault Refusal := lift (flashDone flashOk image data) s

/-! ## Debug and restart (R428, R429, R14) -/

/-- No owner key is enrolled, or the preferred slot passes the rules of its format and permits the unlock. -/
def unlockOk (m : M) : Bool :=
  m.vault.ownerKey.isNone || (match slotImage m.syn (bootNow m).preferred with
    | some i => (rulesFormat m.part m.vault.ownerKey none i).isNone && imgStemDebug (some i) == 1
    | none => false)

def debugUnlock (m : M) : M :=
  if unlockOk m then stemRecord 0x02C3 0 1 stOK { m with start.debugUnlocked := true }
  else stemRecord 0x02C3 0 0 stOK { m with start.unlockRefused := hold 31 (m.start.unlockRefused + 1) }

def execStmDebugUnlock (s : State) : Host.Outcome State Fault Refusal := lift (stmWrite stmControl debugUnlock) s

def stemRestart (m : M) : M := beginStart { m with start.counter := 0 }

def execStmRestart (s : State) : Host.Outcome State Fault Refusal := lift (stmWrite stmControl stemRestart) s

/-- JTAG_CORE_ACCESS: an access that would load host code is let through (1) or refused (0). -/
def jtagAccess (m : M) : M := emit (.read [b2n (m.start.phase == .stem && m.start.debugUnlocked)]) m

def execJtagCoreAccess (s : State) : Host.Outcome State Fault Refusal := lift jtagAccess s

end Sys2Proof.Machine
end

