-- ==== Sys2Proof/Machine/Power.lean ====
section
/-!
DEFINITION. Comma state and power (chapter 20), the alarm's rows (R160, R161, R439) and the thermal limits (R486).
-/
namespace Sys2Proof.Machine

def pwrUnit : Nat := 0xA

def pwrObj (d : Desc) (m : M) : Bool := partObj d m

/-! ## Wake sources (R436, R437) -/

def wakeCfg (m : M) (i : Nat) : WakeCfg := tget m.pwr.slots i wakeOff

/-- A continuous kind. -/
def continuous (kind : Nat) : Bool := [2, 7, 8, 9].contains kind

/-- A target or compare value that Table 20-2 permits for the kind. -/
def targetOk (m : M) (kind t : Nat) : Bool :=
  match kind with
  | 1 =>
    let p := lanePers (img m) (t / 16) (t % 16)
    decide (t / 16 ≤ m.part.media) && decide (t % 16 < (if t / 16 = 0 then 4 else 8)) && p != 0 && p != 6
  | 2 => decide (t < 32)
  | 3 => decide (t % 128 < 32)
  | 5 => decide (t ≤ m.part.media)
  | 6 => decide (1 ≤ t / 16) && decide (t / 16 ≤ m.part.media) && decide (t % 16 ≤ 1) && modemEnabled (img m) (t / 16) (t % 16)
  | _ => t == 0

def compareTop (kind : Nat) : Nat := if 1 ≤ kind && decide (kind ≤ 6) then 2 else 0

def wakeFields (d : Desc) (m : M) : Option Nat :=
  let k := pay d 1 1
  let th := payS d 4 2
  firstBad
    [(decide (15 < pay d 0 1), off 0), (decide (9 < k), off 1), (!targetOk m k (pay d 2 1), off 2),
     (decide (compareTop k < pay d 3 1), off 3),
     ((k == 5 && (decide (th < -40) || decide (125 < th))) || (k == 6 && (decide (th < -1000) || decide (0 < th))), off 4),
     (decide (15 < pay d 6 1), off 6), (k == 9 && pay d 8 4 == 0, off 8)]

def wakeCfgOf (d : Desc) : WakeCfg :=
  { kind := pay d 1 1, target := pay d 2 1, compare := pay d 3 1, threshold := payS d 4 2,
    debounce := if pay d 6 1 = 0 then 1 else pay d 6 1, delay := if pay d 1 1 = 9 then pay d 8 4 else 0, bytes := pay d 0 8 }

/-- Payload bytes 0 to 7 that gave a slot its setting; one never set reads off. -/
def wakePlain (m : M) (i : Nat) : Nat := match tget? m.pwr.slots i with
  | some c => c.bytes
  | none => i

def pwrWakeSetSpec : CmdSpec :=
  { baseSpec 0x0303 permService with
    mask := mb 0 7 ||| mb 8 4
    obj := pwrObj
    fields := wakeFields
    late := fun _ m => firstFail [(m.pwr.state != 0, stConflict, 0)]
    plainNow := fun d m => same (wakePlain m (pay d 0 1))
    apply := fun d m =>
      ({ m with pwr.slots := tset m.pwr.slots (pay d 0 1) (wakeCfgOf d) }, plainDone (wakePlain m (pay d 0 1)) (pay d 0 8)) }

def execPwrWakeSet (d : Desc) (s : State) : Host.Outcome State Fault Refusal := lift (hostRow pwrWakeSetSpec d) s

/-- The value of a sampled source as the part holds it now: 1 and 0 for present and absent or active and inactive, °C, 0.1 dBFS. -/
def wakeValue (m : M) (c : WakeCfg) : Int :=
  match c.kind with
  | 1 => (b2n (!(lanePin m (c.target / 16) (c.target % 16)).los) : Nat)
  | 3 => (b2n (gpioActive (gpioNow m) (c.target % 32) (bit c.target 7)) : Nat)
  | 4 => (b2n (match m.tim.refLast with
    | some t => decide (m.vault.mono < t + nsPerS)
    | none => false) : Nat)
  | 5 => (tget m.host.temp c.target (0, 0)).2 / 10
  | 6 => match getMod m (c.target / 16) (c.target % 16) with
    | some x => x.power
    | none => -1000
  | _ => 0

/-- The comparison of a sampled source holds. -/
def wakeHolds (c : WakeCfg) (entry v : Int) : Bool :=
  match c.kind, c.compare with
  | 5, 0 => decide (5 ≤ (v - entry).natAbs)
  | 6, 0 => decide (60 ≤ (v - entry).natAbs)
  | _, 0 => v != entry
  | 5, 1 => decide (c.threshold ≤ v)
  | 6, 1 => decide (c.threshold ≤ v)
  | 5, _ => decide (v < c.threshold)
  | 6, _ => decide (v < c.threshold)
  | 3, 1 => v == 1
  | 3, _ => v == 0
  | _, 1 => v == 1 && entry == 0
  | _, _ => v == 0 && entry == 1

/-- The value that a later sample is compared with: an appearance or a disappearance needs its opposite first. -/
def wakeRef (c : WakeCfg) (entry v : Int) : Int :=
  if (c.kind == 1 || c.kind == 4) && ((c.compare == 1 && v == 0) || (c.compare == 2 && v == 1)) then v else entry

/-! ## Latches (R437, R439, R441, R443) -/

/-- The TCXO enable pin at its active or inactive level, whatever the claim. -/
def tcxoDrive (on : Bool) (m : M) : M := match m.pwr.tcxoPin with
  | some (p, low) => emit (.pin 1 p (on != low)) { m with pwr.tcxoReleased := !on }
  | none => m

/-- A wake: the exit begins; WAKE# goes low unless the wake came from the host. -/
def wakeUp (source : Nat) (m : M) : M :=
  let m1 := tcxoDrive true { m with pwr.state := 4 }
  if source < 16 && (wakeCfg m source).kind = 7 then m1
  else emit (.pin 4 0 false) { m1 with pwr.wakeLow := some m.vault.mono }

/-- A source's latch is set; the lowest source latched is kept with its instant and value. -/
def latchSet (source : Nat) (value : Int) (m : M) : M :=
  if m.pwr.state < 2 || bit m.pwr.latches source then m
  else
    let lower := match m.pwr.first with
      | some (s, _, _) => decide (source < s)
      | none => true
    { m with pwr.latches := m.pwr.latches ||| 2 ^ source,
             pwr.first := if lower then some (source, m.vault.mono, value) else m.pwr.first }

/-- A latch that is set wakes a part in Comma state. -/
def wakeCheck (m : M) : M := match m.pwr.state, m.pwr.first with
  | 3, some (s, _, _) => wakeUp s m
  | _, _ => m

/-- WAKE_DETECT: a continuous source of the mask fires; its value is not stated. A GPIO edge has a sense; the timer fires when
MONO reaches the entry's plus the delay. -/
def wakeDetect (slot : Nat) (rising : Bool) (m : M) : M :=
  let c := wakeCfg m slot
  let sense := c.kind != 2 || c.compare == 0 || rising == (c.compare == 1)
  let due := c.kind != 9 || decide (m.pwr.entryMono + c.delay * 1000000 ≤ m.vault.mono)
  if 16 ≤ slot || m.pwr.state < 2 || !bit m.pwr.mask slot || !continuous c.kind || !sense || !due then m
  else wakeCheck (latchSet slot (Config.freeInt m.drawn) (draw m))

def execWakeDetect (slot : Nat) (rising : Bool) (s : State) : Host.Outcome State Fault Refusal := lift (wakeDetect slot rising) s

/-- The sample period, a whole number of always-on ticks, in ns. -/
def samplePeriod (m : M) : Nat := cdiv (m.pwr.periodMs * 32768) 1000 * nsPerS / 32768

/-- One sampled source is read and compared. -/
def sampleSlot (vals : List (Nat × Int)) (slot : Nat) (m : M) : M :=
  let c := wakeCfg m slot
  if !bit m.pwr.mask slot || c.kind = 0 || continuous c.kind then m
  else
    let v := match vals.find? fun p => p.1 == slot with
      | some p => p.2
      | none => wakeValue m c
    let e := tget m.pwr.entryVals slot 0
    let run := if wakeHolds c e v then tget m.pwr.runs slot 0 + 1 else 0
    let m1 := { m with pwr.runs := tset m.pwr.runs slot run, pwr.entryVals := tset m.pwr.entryVals slot (wakeRef c e v) }
    if c.debounce ≤ run then latchSet slot v m1 else m1

/-- WAKE_SAMPLE: once per sample period, every sampled source of the mask in ascending slot order (R438). -/
def wakeSample (vals : List (Nat × Int)) (m : M) : M :=
  if !(m.pwr.state == 2 || m.pwr.state == 3) || decide (m.vault.mono < m.pwr.lastSample + samplePeriod m) then m
  else wakeCheck ((List.range 16).foldl (fun x i => sampleSlot vals i x) { m with pwr.lastSample := m.vault.mono })

def execWakeSample (vals : List (Nat × Int)) (s : State) : Host.Outcome State Fault Refusal := lift (wakeSample vals) s

/-! ## Entering Comma state (R434, R440, R441) -/

/-- Objects that keep the part from Idle (R434). -/
def busyObjects (m : M) : Nat :=
  (m.net.legs.filter fun l => decide (2 ≤ l.2.state)).length +
  (m.cod.ctxs.filter fun c => decide (2 ≤ c.2.state)).length +
  (m.enc.encs.filter fun e => decide (2 ≤ e.2.state)).length +
  (m.cmp.comps.filter fun c => c.2.state == 2).length +
  (m.cod.modems.filter fun x => decide (2 ≤ x.2.state)).length

/-- Steps 3 and 4: lanes leave test modes; the anchor; the die caches are emptied. -/
def enterQuiet (m : M) : M :=
  let m1 := (List.range (m.part.media + 1)).foldl (fun x d => lanesOff d x) m
  let m2 := jrnAnchor m1
  { m2 with key.cache := [], pwr.entryStep := 5 }

/-- Step 2 on a leading part: the claim is released as PAIR_CLAIM releases it, and its failures end the command. -/
def enterRelease (d : Desc) (m : M) : M × Applied :=
  let stop (st : Nat) : M × Applied := ({ m with pwr.state := 0, pwr.entry := none }, .done (reply st 0 0xFF))
  if !anyPathUp m || peerClaim m == 0 then stop stPeerRefused
  else if peerPart m != partNo m then stop stMismatch
  else ({ m with pair.e := 0, pair.release := some (d, m.vault.mono), pwr.entryStep := 2 }, .later)

/-- An accepted PWR_ENTER: latches armed, entry values taken. -/
def applyEnter (d : Desc) (m : M) : M × Applied :=
  let mask := pay d 0 2
  let m1 := { m with
    pwr.state := 2, pwr.mask := mask, pwr.latches := 0, pwr.first := none, pwr.runs := [], pwr.kept := [],
    pwr.entry := some d, pwr.entryStep := 1,
    pwr.entryVals := ((List.range 16).filter (bit mask)).map fun i => (i, wakeValue m (wakeCfg m i)),
    pwr.periodMs := if pay d 2 2 = 0 then 100 else pay d 2 2, pwr.aonPpm := if pay d 6 1 = 0 then 100 else pay d 6 1,
    pwr.tcxoPin := if payBit d 4 0 then some (pay d 5 1 % 32, payBit d 5 7) else none,
    pwr.entryMono := m.vault.mono, pwr.lastSample := m.vault.mono }
  if m.pair.role = 2 then enterRelease d m1 else (enterQuiet m1, .later)

/-- R440's checks in its order. -/
def enterLate (d : Desc) (m : M) : Option (Nat × Nat) :=
  let mask := pay d 0 2
  let n := busyObjects m
  let exempt := decide (2 ≤ m.pair.role)
  firstListed
    [(decide (2 ≤ m.pair.role) && !isForce d, stPeerRefused, 0),
     (m.syn.rest.isSome || m.syn.staging.isSome || m.pwr.state != 0, stBusy, 0),
     (!exempt && (n != 0 || !m.pend.isEmpty), stConflict, hold 0xFFFF n + hold 0xFFFF m.pend.length * 65536),
     (mask == 0 || (List.range 16).any (fun i => bit mask i && (wakeCfg m i).kind == 0), stInvalid, off 0)]

def pwrEnterSpec : CmdSpec :=
  { baseSpec 0x0302 { permPf0 with se := true } with
    force := true
    mask := mb 0 4 ||| mbits 4 1 ||| mbits 5 0x9F ||| mb 6 1
    obj := pwrObj
    fields := fun d _ => firstBad [(decide (10000 < pay d 2 2), off 2), (decide (250 < pay d 6 1), off 6)]
    late := enterLate
    apply := applyEnter }

def execPwrEnter (d : Desc) (s : State) : Host.Outcome State Fault Refusal := lift (hostRow pwrEnterSpec d) s

/-- The last-wake-source record (R447). -/
def lastWake (abandoned : Bool) (m : M) : M := match m.pwr.first with
  | some (s, t, v) =>
    { m with pwr.lastSource := s, pwr.lastAbandoned := abandoned, pwr.lastLatched := m.pwr.latches % 65536, pwr.lastValue := v,
             pwr.lastMono := t }
  | none => m

/-- A latch abandons the entry. -/
def abandonEntry (d : Desc) (m : M) : M := match m.pwr.first with
  | some (s, _, v) =>
    finish d false (reply stWoke (s + 5 * 2 ^ 8 + tc 32 v * 2 ^ 16) 0xFF)
      { lastWake true m with pwr.state := 0, pwr.entry := none }
  | none => m

/-- COMMA_ENTRY_DONE: the latches are examined; with none set the completion is written and MONO goes to the always-on clock. -/
def entryDone (m : M) : M :=
  match m.pwr.entry with
  | none => m
  | some d =>
    if m.pwr.state ≠ 2 || m.pwr.entryStep ≠ 5 then m
    else if m.pwr.first.isSome then abandonEntry d m
    else
      let m1 := finish d false (reply stOK 0 0xFF) m
      tcxoDrive false { m1 with
        pwr.state := 3, pwr.entry := none, pwr.entryDev := m.dev, pwr.handMono := m.vault.mono, pwr.aonTicks := 0 }

def execCommaEntryDone (s : State) : Host.Outcome State Fault Refusal := lift entryDone s

/-! ## Writes during Comma state (R442) -/

/-- The effect a kept write has once the part runs. -/
def keptWrite (w : Nat × BarWrite) (m : M) : M :=
  match w.2 with
  | .direct d => directWrite w.1 { d with path := .host w.1 0x3FF 0 } m
  | .directPop => directPop w.1 m
  | .doorbell r c ds => doorbell w.1 r c ds m
  | .headDoorbell r c => headDoorbell w.1 r c m
  | .evqPop q => evqPop w.1 q m
  | .evqClear q v => evqClear w.1 q v m
  | .intMask f v => writeIntMask w.1 f v m
  | .msixMask v masked => otherWrite w.1 2 (0x8000 + 16 * v + 12) (b2n masked) m
  | .other b o v => otherWrite w.1 b o v m

/-- COMMA_BAR_WRITE: kept, or dropped and counted; it wakes the part when a host source is in the mask. -/
def commaWrite (fn : Nat) (w : BarWrite) (wellFormed : Bool) (m : M) : M :=
  if m.pwr.state < 3 then m
  else
    let m1 := if wellFormed && decide (m.pwr.kept.length < 64) then { m with pwr.kept := m.pwr.kept ++ [(fn, w)] }
      else count .pwrDropped 0 0 0 m
    match (List.range 16).find? fun i => bit m1.pwr.mask i && (wakeCfg m1 i).kind == 7 with
    | some i => wakeCheck (latchSet i (Config.freeInt m1.drawn) (draw m1))
    | none => m1

def execCommaBarWrite (fn : Nat) (write : BarWrite) (wellFormed : Bool) (s : State) : Host.Outcome State Fault Refusal :=
  lift (commaWrite fn write wellFormed) s

/-! ## Waking (R443 to R445, R447) -/

/-- A hub channel fails the memory exit: the part restarts from ROM, an attempt with reason MEMORY_TRAINING (R381). -/
def wakeRestart (m : M) : M :=
  failStart 4 { m with start.attempt := 0, start.t0 := m.vault.mono, start.phase := .starting }

/-- The uncertainty that the sleep adds (R445). -/
def sleepU (ppm ns : Nat) : Nat := 30518 + cdiv (ppm * ns) 1000000

/-- Step 4: device time resumes, the uncertainty is added, a locked quality becomes holdover; the anchor. -/
def timeResume (m : M) : M :=
  let ns := m.vault.mono - m.pwr.handMono
  let u := sleepU m.pwr.aonPpm ns
  let dev := m.pwr.entryDev + ns
  let m1 := { m with
    dev := dev, pwr.sleepNs := ns, pwr.sleepU := hold 0xFFFFFFFF u,
    tim.errEst := hold 0xFFFFFFFF (m.tim.errEst + u), tim.lockRun := 0, tim.slewLeft := 0,
    pend := m.pend.map (stepPend m.dev dev) }
  jrnAnchor (if m1.tim.quality = 2 then setQuality 1 m1 else m1)

/-- Every signal engine of the dies in Run is loaded again. -/
def enginesReload (m : M) : M :=
  (runningDies m).foldl (fun x d => (List.range 32).foldl (fun y n => dspReload d n y) x) m

/-- The paired part is looked for afresh; one that followed still follows. -/
def pairResume (m : M) : M :=
  if m.pair.role = 0 then m
  else { m with pair.lane0 := hbReset, pair.lane1 := hbReset, pair.wire := hbReset, pair.heard := some m.vault.mono,
                pair.applied := none, pair.holdings := none }

/-- Step 8: Run. Kept writes are applied in order, then the wake is told and recorded. -/
def wakeDone (m : M) : M :=
  let m0 := lastWake false { m with pwr.state := 0, pwr.kept := [], pwr.heldEv := [] }
  let m1 := m.pwr.kept.foldl (fun x w => keptWrite w x) (m.pwr.heldEv.foldl (fun x r => evDeliver r x) m0)
  announceVal pwrUnit 0x0304 1 (infraOid 0)
    [.u 1 m1.pwr.lastSource, .u 2 m1.pwr.lastLatched, .u 4 m1.pwr.sleepU] m1.pwr.lastSource m1.pwr.lastMono m1

/-- COMMA_EXIT: with what the memory exit of the hub and of each media die finds. -/
def commaExit (hubOk : Bool) (diesOk : List Nat) (m : M) : M :=
  if m.pwr.state ≠ 4 then m
  else if !hubOk then wakeRestart m
  else
    let m1 := avsRequest (if m.avs.capMv < 800 then m.avs.capMv else 800) m
    let m2 := (runningDies m1).foldl (fun x d => if diesOk.contains d then x else dieLost d none x) m1
    wakeDone (pairResume (enginesReload (timeResume m2)))

def execCommaExit (hubOk : Bool) (diesOk : List Nat) (s : State) : Host.Outcome State Fault Refusal := lift (commaExit hubOk diesOk) s

/-- WAKE_N_RELEASE: after 1 ms low. -/
def wakeRelease (m : M) : M := match m.pwr.wakeLow with
  | some t => if t + 1000000 ≤ m.vault.mono then emit (.pin 4 0 true) { m with pwr.wakeLow := none } else m
  | none => m

def execWakeNRelease (s : State) : Host.Outcome State Fault Refusal := lift wakeRelease s

/-- One tick of the always-on clock while it runs MONO (R444). -/
def aonTick (m : M) : M :=
  let n := m.pwr.aonTicks + 1
  { m with pwr.aonTicks := n, vault.mono := m.pwr.handMono + n * nsPerS / 32768 }

/-! ## Alarms (R160, R161, R439) -/

/-- Sensors that do not run in Comma state: those of the core domains, and the clock's while REF_TCXO is released. -/
def sensorOff (source : Nat) (m : M) : Bool :=
  decide (3 ≤ m.pwr.state) && ([3, 4, 5].contains source || (source == 2 && m.pwr.tcxoReleased))

/-- The onset of a source's condition, and the wake that an alarm is. -/
def alarmDetect (source : Nat) (m : M) : M :=
  if sensorOff source m then m
  else
    let fires := decide (source < 7) && !bit m.key.present source && m.key.armed && bit m.key.enabled source
    let m1 := alarmOnset source m
    if fires then wakeCheck (latchSet 16 (Config.freeInt m1.drawn) (draw m1)) else m1

def execKeyAlarmDetect (source : Nat) (s : State) : Host.Outcome State Fault Refusal := lift (alarmDetect source) s

def execAlarmConditionEnd (source : Nat) (s : State) : Host.Outcome State Fault Refusal := lift (alarmEnd source) s

/-! ## Temperatures (R486) -/

/-- Beyond the monitored margin, and 3 °C back inside it, in 0.1 °C. -/
def tempBeyond (m : M) (t : Int) : Bool := decide (1150 < t) || decide (t < (if m.part.gradeX then -300 else -100))
def tempBack (m : M) (t : Int) : Bool := decide (t ≤ 1120) && decide ((if m.part.gradeX then -270 else -70) ≤ t)

/-- The temperature alarm of a die: its onset, and its end once no die holds it. -/
def tempAlarm (die : Nat) (t : Int) (m : M) : M :=
  let was := bit m.key.hotDies die
  if tempBeyond m t && !was then alarmDetect 1 { m with key.hotDies := m.key.hotDies + 2 ^ die }
  else if was && tempBack m t then
    let m1 := { m with key.hotDies := m.key.hotDies - 2 ^ die }
    if m1.key.hotDies = 0 then alarmEnd 1 m1 else m1
  else m

/-- THERMAL_READING: the hottest sensor of a die, the alarm first, then EV_PWR_THERMAL in Run. -/
def thermalReading (die : Nat) (temp : Int) (m : M) : M :=
  if m.part.media < die then m
  else
    let shown : Int := if temp < -400 then -400 else if 1500 < temp then 1500 else temp
    let m1 := if 3 ≤ m.pwr.state || m.start.phase = .starting then m
      else { m with host.temp := tset m.host.temp die (m.vault.mono, shown) }
    let m2 := tempAlarm die temp m1
    if m2.start.phase = .ready && decide (m2.pwr.state < 3) && tempOut m2 temp then
      limited { ev := 0x0305, i := die, j := 0 } (10 * nsPerS) (raise 0x0305 1 (infraOid die) [.u 1 die, .s 2 shown]) m2
    else m2

def execThermalReading (die : Nat) (temp : Int) (s : State) : Host.Outcome State Fault Refusal := lift (thermalReading die temp) s

end Sys2Proof.Machine
end

