-- ==== Sys2Proof/Machine/Regs.lean ====
section
/-!
DEFINITION. The 64-bit registers of the register map and their reads in halves (R463 to R466), and the heartbeat's row,
which may end a wait of a re-structure or of an entry into Comma state.
-/
namespace Sys2Proof.Machine

/-! ## Values of the 64-bit registers -/

/-- KEY_SLOT_STATUS (Table 07-8). -/
def keySlotWord (m : M) (i : Nat) : Nat :=
  let k := getSlot m i
  let halves := match k.cur with
    | some g => g.profile * 2 ^ 59 + b2n (bit g.halves 0) * 2 ^ 58 + b2n (bit g.halves 1) * 2 ^ 57
    | none => 0
  slotCode k * 2 ^ 62 + halves + b2n k.prev.isSome * 2 ^ 56 + (slotRefs m i).length * 2 ^ 32 +
    hold 0xFFFF (m.key.ops.filter fun o => o.slot == i && o.gen != 0).length * 2 ^ 16 + slotGen k

def phaseCode : Phase → Nat
  | .starting => 0
  | .ready => 1
  | .stem => 2

/-- HIF_ID (Table 22-5). -/
def hifIdWord (m : M) : Nat :=
  partCode m.part.media * 2 ^ 16 + m.part.revLetter * 2 ^ 8 + m.part.revDigit * 2 ^ 4 + b2n m.part.gradeX

/-- A mask over the media dies. -/
def dieMaskOf (m : M) (p : Nat → Bool) : Nat := ((mediaDies m).map fun d => if p d then 2 ^ (d - 1) else 0).sum

/-- HIF_GLOBAL_STATUS (Table 22-5). -/
def globalStatusWord (m : M) : Nat :=
  phaseCode m.start.phase * 2 ^ 62 + b2n m.start.degraded * 2 ^ 61 + b2n m.key.alarmLow * 2 ^ 60 + m.tim.quality * 2 ^ 58 +
  m.pair.role * 2 ^ 56 + b2n m.jrn.mirrorFault * 2 ^ 55 + b2n m.avs.fault * 2 ^ 54 +
  dieMaskOf m (fun d => dieState m d == 3 || dieState m d == 4) * 2 ^ 40 + dieMaskOf m (dieRun m) * 2 ^ 32 +
  cntGet m { reg := .ignoredWrites, i := 0, j := 0, k := 0 } * 2 ^ 16 + cntGet m { reg := .badAccess, i := 0, j := 0, k := 0 }

/-- PWR_LAST_WAKE (Table 20-8). -/
def lastWakeWord (m : M) : Nat :=
  tc 32 m.pwr.lastValue * 2 ^ 32 + m.pwr.lastSource * 2 ^ 27 + b2n m.pwr.lastAbandoned * 2 ^ 26 + m.pwr.lastLatched

/-- PWR_WAKE_CFG (Table 20-9). -/
def wakeCfgWord (c : WakeCfg) : Nat :=
  c.delay * 2 ^ 32 + c.kind * 2 ^ 28 + c.target * 2 ^ 20 + c.compare * 2 ^ 18 + c.debounce * 2 ^ 14 + tc 14 c.threshold

/-- TSK_DELAY_STATUS (Table 14-8). -/
def delayWord (m : M) (die : Nat) : Nat :=
  slotsUsed m die * 2 ^ 32 + hold 0xFFF (m.tsk.parked.filter fun t => t.1 == die).length * 2 ^ 20 + eventUsed m die

/-- ENC_LAYER_STATUS (Table 12-8). -/
def encLayerWord (m : M) (die i s : Nat) : Nat :=
  match (getEnc m (mkKey die i)).bind fun e => e.layers[s]? with
  | some l => hold 0xFFFFFFFF l.lastBits * 2 ^ 32 + hold 0xFFFFFFFF l.lastBudget
  | none => 0

/-- TRF_LEG_LINE (Table 13-10). -/
def legLineWord (m : M) (k : Nat) : Nat :=
  let t := getTLeg m k
  let up := match tget? m.net.legs k with
    | some l => l.state == 2 || l.state == 3
    | none => false
  (if up then hold 0xFFFFFFFF (lineEst t) * 2 ^ 32 else 0) + hold 0xFFFFFFFF t.auto

/-- A register's value; an element beyond its bounds is a reserved offset and reads zero (R464). -/
def wideValue (m : M) : WideReg → Nat
  | .jrnHead => m.jrn.head
  | .jrnTail => jrnTail m.jrn
  | .jrnMirror => (mirrorSeq m.jrn).getD (2 ^ 64 - 1)
  | .exportNext q => if q < 64 then ((tget? m.jrn.exports q).map ExportQ.next).getD 0 else 0
  | .timNowSec => m.tim.latchSec
  | .timNowMono => m.tim.latchMono
  | .keySlot s => if s < 16384 then keySlotWord m s else 0
  | .hifSerial => m.part.serial
  | .imageSerial => match img m with
    | some i => if m.start.phase == .stem then 0 else i.serial
    | none => 0
  | .globalStatus => globalStatusWord m
  | .globalLast => m.host.lastFn * 2 ^ 58 + m.host.lastBar * 2 ^ 57 + m.host.lastOffset % 2 ^ 32
  | .evqIntMask f => if f < 64 then tget m.host.evqMask f 0 else 0
  | .stmHistory h => (m.start.history[h]?.map histWord).getD 0
  | .pwrLastWake => lastWakeWord m
  | .pwrLastMono => m.pwr.lastMono
  | .pwrSleep => m.pwr.sleepNs
  | .wakeCfg i => if i < 16 then wakeCfgWord (wakeCfg m i) else 0
  | .memSwizzle die ch => ((getChan m (memKey die ch)).map MemChan.swizzle).getD 0
  | .poolMem die => if die = 0 then 0 else (getPool m die).totalKib * 2 ^ 32 + (getPool m die).resKib
  | .encLayerStatus die i s => encLayerWord m die i s
  | .legLine die i => legLineWord m (mkKey die i)
  | .delayStatus die => if die = 0 then 0 else delayWord m die

/-- The media die in whose window a register lies; 0 for the hub. -/
def wideDie : WideReg → Nat
  | .memSwizzle die _ | .poolMem die | .encLayerStatus die _ _ | .legLine die _ | .delayStatus die => die
  | _ => 0

/-- Registers within the BAR0 of Stem mode (Table 19-3). -/
def inStem : WideReg → Bool
  | .hifSerial | .imageSerial | .globalStatus | .globalLast | .stmHistory _ | .timNowSec | .timNowMono => true
  | _ => false

/-- The read finds no register: in Comma state (R442), before step 7 of a start, in Stem mode beyond its map (R426), in the
window of a die that is held, lost or offline (R465). -/
def wideDark (m : M) (r : WideReg) : Bool :=
  decide (3 ≤ m.pwr.state) || m.start.phase == .starting || (m.start.phase == .stem && !inStem r) ||
  (wideDie r != 0 && [2, 3, 4].contains (dieState m (wideDie r)))

/-- The fields of HIF_GLOBAL_STATUS that a read clears lie in its low half. -/
def wideCleared (r : WideReg) (m : M) : M :=
  if r = .globalStatus then
    cntClear { reg := .badAccess, i := 0, j := 0, k := 0 } (cntClear { reg := .ignoredWrites, i := 0, j := 0, k := 0 } m)
  else m

/-- WIDE_REGISTER_LOW_READ: the low half is returned, and the high half is latched for the function (R463). -/
def wideRead (fn : Nat) (r : WideReg) (m : M) : M :=
  if wideDark m r then emit (.read [0]) m
  else
    let v := wideValue m r
    emit (.read [v % 2 ^ 32]) (wideCleared r (setFn fn { getFn m fn with latch := some (r, v / 2 ^ 32 % 2 ^ 32) } m))

def execWideRegisterLowRead (fn : Nat) (reg : WideReg) (s : State) : Host.Outcome State Fault Refusal := lift (wideRead fn reg) s

/-! ## The heartbeat's row -/

/-- What waited for the peer to lead goes on once its heartbeat says so (R394, R413, R441). -/
def peerLeads (m : M) : M :=
  let m1 := restWaits m
  if m1.pwr.state = 2 && m1.pwr.entryStep = 3 then enterQuiet m1 else m1

/-- HEARTBEAT_RECEIVED. -/
def heartbeatRow (path : Nat) (hb : Heartbeat) (m : M) : M :=
  let m1 := heartbeat path hb m
  if (m1.pair.peer.map Peer.role) = some 2 then peerLeads m1 else m1

def execHeartbeatReceived (path : Nat) (hb : Heartbeat) (s : State) : Host.Outcome State Fault Refusal :=
  lift (heartbeatRow path hb) s

end Sys2Proof.Machine
end

