-- ==== Sys2Proof/Machine/CmdTable.lean ====
section
/-!
DEFINITION. The table of the host's commands by opcode, TSK_CANCEL (R329), the boundary of a held command (R99), and the two
paths that carry descriptors of any opcode: the I3C port (R106) and the Conjunction link (R107).
-/
namespace Sys2Proof.Machine

/-! ## The host's commands by opcode -/

def timeSpecs : List CmdSpec :=
  [timSourceSetSpec, timSetSpec, timSlackAlarmSetSpec]

def windowsSpecs : List CmdSpec :=
  [timGuardSetSpec, pwrAvsSetSpec, refoutSetSpec]

def hostLinkSpecs : List CmdSpec :=
  [hifRingCreateSpec, hifRingDeleteSpec, hifEvqConfigSpec, hifNopSpec]

def journalSpecs : List CmdSpec :=
  [jrnExportSetSpec, jrnMarkSpec, jrnVerifySpec]

def taskSpecs : List CmdSpec :=
  [tskArbSetSpec, tskPrioSetSpec]

def keySpecs : List CmdSpec :=
  [keyWriteSpec, keyClearSpec, keyEraseSpec, keyAlarmSetSpec, keyAlarmClearSpec]

def netSpecs : List CmdSpec :=
  [netPortSetSpec, cipAuthSetSpec, cipRocSetSpec]

def trafficSpecs : List CmdSpec :=
  [trfPortSetSpec, trfClassSetSpec, trfQueueSetSpec, trfProfileSetSpec, trfLineSetSpec, trfSampleSetSpec]

def sendSpecs : List CmdSpec :=
  [fwdSetSpec, fwdDeleteSpec, fwdMemberAddSpec, fwdMemberRemoveSpec]

def legsSpecs : List CmdSpec :=
  [legDefineSpec, legModifySpec, legDeleteSpec, legArmSpec, legDisarmSpec, legDrainSpec]

def legMoveSpecs : List CmdSpec :=
  [legMoveSpec]

def streamsSpecs : List CmdSpec :=
  [netStreamDefineSpec, netStreamModifySpec, netStreamDeleteSpec, netSendDefineSpec, netSendModifySpec, netSendDeleteSpec]

def mixCmdSpecs : List CmdSpec :=
  [mixBusDefineSpec, mixBusDeleteSpec, mixXpSetSpec, mixLegSetSpec, mixOverlaySetSpec, mixCommitSpec,
   mixMeterSetSpec]

def modemSpecs : List CmdSpec :=
  [modConfigSpec, modStartSpec, modStopSpec, modFeSetSpec, modGainSetSpec, modFirSetSpec,
   modMaskSetSpec, modTxUnmuteSpec]

def codSpecs : List CmdSpec :=
  [codContextOpenSpec, codContextModifySpec, codStartSpec, codStopSpec, codContextCloseSpec, codLayerSelectSpec,
   codRefreshSpec, fbpSnapshotSpec]

def cmpCmdSpecs : List CmdSpec :=
  [cmpDefineSpec, cmpStartSpec, cmpStopSpec, cmpDeleteSpec, cmpOutputSetSpec, cmpLayerSetSpec,
   cmpLayerColourSpec, cmpLayerStyleSpec, cmpZlistSetSpec, cmpLut3dSetSpec, cmpCommitSpec, cmpCursorSetSpec,
   cmpCursorImageSpec, cmpGlyphLoadSpec, cmpGuardSetSpec, cmpGuardClearSpec]

def encSpecs : List CmdSpec :=
  [encContextOpenSpec, encContextModifySpec, encStartSpec, encStopSpec, encContextCloseSpec, encRateSetSpec,
   encKeyframeSpec]

def dspCmdSpecs : List CmdSpec :=
  [dspPortSetSpec, dspPortClearSpec, dspParamSetSpec, dspHaltSpec, dspRestartSpec]

def memSpecs : List CmdSpec :=
  [memRateSetSpec, memEccSetSpec, memActSetSpec]

def compoundSpecs : List CmdSpec :=
  [codPairSpec, cmpPairSpec, dspPairSpec, pinLoopbackSetSpec]

def pinsSpecs : List CmdSpec :=
  [pinGpioSetSpec, pinRestoreSpec]

def pairingSpecs : List CmdSpec :=
  [pairConfigSpec, pairClaimSpec, pairWakeSpec]

def synSpecs : List CmdSpec :=
  [synStageSpec, synBootSetSpec, keyOwnerEnrolSpec, synActivateSpec]

def powerSpecs : List CmdSpec :=
  [pwrWakeSetSpec, pwrEnterSpec]

/-- Every command but TSK_CANCEL, which looks the others up. -/
def plainSpecs : List CmdSpec :=
  timeSpecs ++ windowsSpecs ++ hostLinkSpecs ++ journalSpecs ++ taskSpecs ++ keySpecs ++ netSpecs ++
  trafficSpecs ++ sendSpecs ++ legsSpecs ++ legMoveSpecs ++ streamsSpecs ++ mixCmdSpecs ++ modemSpecs ++
  codSpecs ++ cmpCmdSpecs ++ encSpecs ++ dspCmdSpecs ++ memSpecs ++ compoundSpecs ++ pinsSpecs ++
  pairingSpecs ++ synSpecs ++ powerSpecs

def findSpec (opcode : Nat) : Option CmdSpec := plainSpecs.find? fun sp => sp.opcode == opcode

/-! ## TSK_CANCEL (R328, R329) -/

/-- The command's tag, ring and function match. -/
def cancelHit (d : Desc) (m : M) (fn ring tag : Nat) : Bool :=
  fn == pathFn m d.path && tag == pay d 0 4 && (payBit d 6 0 || ring == pay d 4 2)

/-- The pending command that TSK_CANCEL names: of those that match, the one that executed first. -/
def cancelPend (d : Desc) (m : M) : Option Pend :=
  (m.pend.filter fun p => match p.d.path with
    | .host f r _ => cancelHit d m f r (tagN p.d)
    | _ => false).foldl (fun a p => match a with
      | none => some p
      | some b => if p.order < b.order then some p else some b) none

/-- The journal sequence number of the applied command it names (R329). -/
def cancelApplied (d : Desc) (m : M) : Option Nat :=
  ((m.host.applied.filter fun a => cancelHit d m a.1 a.2.1 a.2.2.1).foldl (fun b a => match b with
    | none => some a
    | some c => if a.2.2.2.1 < c.2.2.2.1 then some a else some c) none).map fun a => a.2.2.2.2

/-- The present state of a command's object. -/
def heldState (d : Desc) (m : M) : Nat := match findSpec d.opcode with
  | some sp => stateOrFF sp d m
  | none => 0xFF

/-- The plain values of a command that is cancelled (R114). -/
def heldPlain (d : Desc) (m : M) : Option (Nat × Nat) := match findSpec d.opcode with
  | some sp => sp.plainNow d m
  | none => none

/-- A pending command ends: STATE_CONFLICT, its object's present state and detail bit 47. -/
def cancelHeld (p : Pend) (m : M) : M :=
  let m1 := dropPend p.order m
  let m2 := if p.waits && p.d.opcode == 0x0102 then { m1 with tim.setWait := none } else m1
  let ptr := match findSpec p.d.opcode with
    | some sp => sp.ptr
    | none => false
  finish p.d ptr { reply stConflict (2 ^ 47) (heldState p.d m2) with plain := heldPlain p.d m2 } (count .tskCnt 0 0 2 m2)

def applyCancel (d : Desc) (m : M) : M × Applied :=
  match cancelPend d m with
  | some p => (cancelHeld p m, okReply 0xFF)
  | none => match cancelApplied d m with
    | some seq => (count .tskCnt 0 0 3 m, .done (reply stDispatched (seq % 2 ^ 32) 0xFF))
    | none => (m, .done (reply stInvalid 0x18 0xFF))

def tskCancelSpec : CmdSpec :=
  { baseSpec 0x0D03 permMedia with
    mask := mb 0 5 + mbits 5 3 + mbits 6 1
    obj := partObj
    fields := fun d _ => commitBad d
    apply := applyCancel }

def execTskCancel (d : Desc) (s : State) : Host.Outcome State Fault Refusal := lift (hostRow tskCancelSpec d) s

/-- The specification of a command by its opcode; none where no chapter defines it (R94). -/
def specOf (opcode : Nat) : Option CmdSpec := if opcode = 0x0D03 then some tskCancelSpec else findSpec opcode

/-! ## The boundary of a held command (R99) -/

/-- TIMED_COMMAND_APPLY: the held command due first, once device time has reached its boundary. -/
def timedApply (m : M) : M :=
  if m.start.phase ≠ .ready || decide (3 ≤ m.pwr.state) then m
  else match dueFirst m.dev m.pend with
    | none => m
    | some p => match specOf p.d.opcode with
      | some sp => applyPend sp p m
      | none => dropPend p.order m

def execTimedCommandApply (s : State) : Host.Outcome State Fault Refusal := lift timedApply s

/-! ## The I3C port and the Conjunction link (R106, R107) -/

/-- I3C_PRIVATE_WRITE: 64 bytes are one descriptor of the owner's domain; any other write, one made while a command executes,
and, at any time, one with no owner are NACKed and counted (R106). -/
def i3cWrite (d : Desc) (len : Nat) (m0 : M) : M :=
  if imgI3cOwner (img m0) = 0 then emit .i3cNack (count .i3cRefused 0 0 0 m0)
  else if m0.start.phase ≠ .ready || decide (3 ≤ m0.pwr.state) then m0
  else
    let m := i3cStart m0
    if len ≠ 64 then emit .i3cNack (count .i3cRefused 0 0 0 m)
    else submit (runDesc specOf) { d with path := .i3c } m

def execI3cPrivateWrite (d : Desc) (len : Nat) (s : State) : Host.Outcome State Fault Refusal :=
  liftOp d.opcode (i3cWrite d len) s

/-- PEER_COMMAND_RECEIVED: a command of the Peer domain. -/
def peerCommand (d : Desc) (m : M) : M :=
  if conjLanes m then submit (runDesc specOf) { d with path := .peer } m else m

def execPeerCommandReceived (d : Desc) (s : State) : Host.Outcome State Fault Refusal :=
  liftOp d.opcode (peerCommand d) s

end Sys2Proof.Machine
end

