-- ==== Sys2Proof/Machine/Dispatch.lean ====
section
/-!
DEFINITION. The dispatch: what each command does to everything but the queue, one arm per constructor of `Instr`.
-/
namespace Sys2Proof.Machine

def exec (i : Instr) (s : State) : Host.Outcome State Fault Refusal :=
  match i with
  | .timSourceSet d => Sys2Proof.Machine.execTimSourceSet d s
  | .timSet d => Sys2Proof.Machine.execTimSet d s
  | .timGuardSet d => Sys2Proof.Machine.execTimGuardSet d s
  | .timSlackAlarmSet d => Sys2Proof.Machine.execTimSlackAlarmSet d s
  | .pwrAvsSet d => Sys2Proof.Machine.execPwrAvsSet d s
  | .synStage d => Sys2Proof.Machine.execSynStage d s
  | .synStageWriteDone ok => Sys2Proof.Machine.execSynStageWriteDone ok s
  | .synActivate d => Sys2Proof.Machine.execSynActivate d s
  | .activateRestartDue => Sys2Proof.Machine.execActivateRestartDue s
  | .restructureStepDone ok res => Sys2Proof.Machine.execRestructureStepDone ok res s
  | .restructureTimeout => Sys2Proof.Machine.execRestructureTimeout s
  | .synBootSet d => Sys2Proof.Machine.execSynBootSet d s
  | .keyOwnerEnrol d => Sys2Proof.Machine.execKeyOwnerEnrol d s
  | .hifRingCreate d => Sys2Proof.Machine.execHifRingCreate d s
  | .hifRingDelete d => Sys2Proof.Machine.execHifRingDelete d s
  | .hifEvqConfig d => Sys2Proof.Machine.execHifEvqConfig d s
  | .hifNop d => Sys2Proof.Machine.execHifNop d s
  | .jrnExportSet d => Sys2Proof.Machine.execJrnExportSet d s
  | .jrnMark d => Sys2Proof.Machine.execJrnMark d s
  | .jrnVerify d => Sys2Proof.Machine.execJrnVerify d s
  | .jrnVerifyDone damaged => Sys2Proof.Machine.execJrnVerifyDone damaged s
  | .keyWrite d => Sys2Proof.Machine.execKeyWrite d s
  | .keyClear d => Sys2Proof.Machine.execKeyClear d s
  | .keyErase d => Sys2Proof.Machine.execKeyErase d s
  | .keyAlarmSet d => Sys2Proof.Machine.execKeyAlarmSet d s
  | .keyAlarmClear d => Sys2Proof.Machine.execKeyAlarmClear d s
  | .cipAuthSet d => Sys2Proof.Machine.execCipAuthSet d s
  | .cipRocSet d => Sys2Proof.Machine.execCipRocSet d s
  | .legDefine d => Sys2Proof.Machine.execLegDefine d s
  | .legModify d => Sys2Proof.Machine.execLegModify d s
  | .legArm d => Sys2Proof.Machine.execLegArm d s
  | .legDisarm d => Sys2Proof.Machine.execLegDisarm d s
  | .legDrain d => Sys2Proof.Machine.execLegDrain d s
  | .legDelete d => Sys2Proof.Machine.execLegDelete d s
  | .legMove d => Sys2Proof.Machine.execLegMove d s
  | .netPortSet d => Sys2Proof.Machine.execNetPortSet d s
  | .netStreamDefine d => Sys2Proof.Machine.execNetStreamDefine d s
  | .netStreamModify d => Sys2Proof.Machine.execNetStreamModify d s
  | .netStreamDelete d => Sys2Proof.Machine.execNetStreamDelete d s
  | .modConfig d => Sys2Proof.Machine.execModConfig d s
  | .modStart d => Sys2Proof.Machine.execModStart d s
  | .modStop d => Sys2Proof.Machine.execModStop d s
  | .modFeSet d => Sys2Proof.Machine.execModFeSet d s
  | .modGainSet d => Sys2Proof.Machine.execModGainSet d s
  | .modFirSet d => Sys2Proof.Machine.execModFirSet d s
  | .modMaskSet d => Sys2Proof.Machine.execModMaskSet d s
  | .modTxUnmute d => Sys2Proof.Machine.execModTxUnmute d s
  | .codContextOpen d => Sys2Proof.Machine.execCodContextOpen d s
  | .codContextModify d => Sys2Proof.Machine.execCodContextModify d s
  | .codStart d => Sys2Proof.Machine.execCodStart d s
  | .codStop d => Sys2Proof.Machine.execCodStop d s
  | .codContextClose d => Sys2Proof.Machine.execCodContextClose d s
  | .codLayerSelect d => Sys2Proof.Machine.execCodLayerSelect d s
  | .codRefresh d => Sys2Proof.Machine.execCodRefresh d s
  | .fbpSnapshot d => Sys2Proof.Machine.execFbpSnapshot d s
  | .fbpSnapshotDone die => Sys2Proof.Machine.execFbpSnapshotDone die s
  | .codPair d => Sys2Proof.Machine.execCodPair d s
  | .mixBusDefine d => Sys2Proof.Machine.execMixBusDefine d s
  | .mixBusDelete d => Sys2Proof.Machine.execMixBusDelete d s
  | .mixXpSet d => Sys2Proof.Machine.execMixXpSet d s
  | .mixLegSet d => Sys2Proof.Machine.execMixLegSet d s
  | .mixOverlaySet d => Sys2Proof.Machine.execMixOverlaySet d s
  | .mixCommit d => Sys2Proof.Machine.execMixCommit d s
  | .mixMeterSet d => Sys2Proof.Machine.execMixMeterSet d s
  | .cmpDefine d => Sys2Proof.Machine.execCmpDefine d s
  | .cmpStart d => Sys2Proof.Machine.execCmpStart d s
  | .cmpStop d => Sys2Proof.Machine.execCmpStop d s
  | .cmpDelete d => Sys2Proof.Machine.execCmpDelete d s
  | .cmpOutputSet d => Sys2Proof.Machine.execCmpOutputSet d s
  | .cmpLayerSet d => Sys2Proof.Machine.execCmpLayerSet d s
  | .cmpLayerColour d => Sys2Proof.Machine.execCmpLayerColour d s
  | .cmpLayerStyle d => Sys2Proof.Machine.execCmpLayerStyle d s
  | .cmpZlistSet d => Sys2Proof.Machine.execCmpZlistSet d s
  | .cmpLut3dSet d => Sys2Proof.Machine.execCmpLut3dSet d s
  | .cmpCommit d => Sys2Proof.Machine.execCmpCommit d s
  | .cmpCursorSet d => Sys2Proof.Machine.execCmpCursorSet d s
  | .cmpCursorImage d => Sys2Proof.Machine.execCmpCursorImage d s
  | .cmpGlyphLoad d => Sys2Proof.Machine.execCmpGlyphLoad d s
  | .cmpGuardSet d => Sys2Proof.Machine.execCmpGuardSet d s
  | .cmpGuardClear d => Sys2Proof.Machine.execCmpGuardClear d s
  | .cmpPair d => Sys2Proof.Machine.execCmpPair d s
  | .encContextOpen d => Sys2Proof.Machine.execEncContextOpen d s
  | .encContextModify d => Sys2Proof.Machine.execEncContextModify d s
  | .encStart d => Sys2Proof.Machine.execEncStart d s
  | .encStop d => Sys2Proof.Machine.execEncStop d s
  | .encContextClose d => Sys2Proof.Machine.execEncContextClose d s
  | .encRateSet d => Sys2Proof.Machine.execEncRateSet d s
  | .encKeyframe d => Sys2Proof.Machine.execEncKeyframe d s
  | .fwdSet d => Sys2Proof.Machine.execFwdSet d s
  | .fwdDelete d => Sys2Proof.Machine.execFwdDelete d s
  | .fwdMemberAdd d => Sys2Proof.Machine.execFwdMemberAdd d s
  | .fwdMemberRemove d => Sys2Proof.Machine.execFwdMemberRemove d s
  | .netSendDefine d => Sys2Proof.Machine.execNetSendDefine d s
  | .netSendModify d => Sys2Proof.Machine.execNetSendModify d s
  | .netSendDelete d => Sys2Proof.Machine.execNetSendDelete d s
  | .trfPortSet d => Sys2Proof.Machine.execTrfPortSet d s
  | .trfClassSet d => Sys2Proof.Machine.execTrfClassSet d s
  | .trfQueueSet d => Sys2Proof.Machine.execTrfQueueSet d s
  | .trfProfileSet d => Sys2Proof.Machine.execTrfProfileSet d s
  | .trfLineSet d => Sys2Proof.Machine.execTrfLineSet d s
  | .trfSampleSet d => Sys2Proof.Machine.execTrfSampleSet d s
  | .tskArbSet d => Sys2Proof.Machine.execTskArbSet d s
  | .tskPrioSet d => Sys2Proof.Machine.execTskPrioSet d s
  | .tskCancel d => Sys2Proof.Machine.execTskCancel d s
  | .dspPortSet d => Sys2Proof.Machine.execDspPortSet d s
  | .dspPortClear d => Sys2Proof.Machine.execDspPortClear d s
  | .dspParamSet d => Sys2Proof.Machine.execDspParamSet d s
  | .dspHalt d => Sys2Proof.Machine.execDspHalt d s
  | .dspRestart d => Sys2Proof.Machine.execDspRestart d s
  | .dspPair d => Sys2Proof.Machine.execDspPair d s
  | .memRateSet d => Sys2Proof.Machine.execMemRateSet d s
  | .memEccSet d => Sys2Proof.Machine.execMemEccSet d s
  | .memActSet d => Sys2Proof.Machine.execMemActSet d s
  | .pwrEnter d => Sys2Proof.Machine.execPwrEnter d s
  | .pwrWakeSet d => Sys2Proof.Machine.execPwrWakeSet d s
  | .pairConfig d => Sys2Proof.Machine.execPairConfig d s
  | .pairClaim d => Sys2Proof.Machine.execPairClaim d s
  | .pairClaimReleaseTimeout => Sys2Proof.Machine.execPairClaimReleaseTimeout s
  | .pairWake d => Sys2Proof.Machine.execPairWake d s
  | .pinLoopbackSet d => Sys2Proof.Machine.execPinLoopbackSet d s
  | .pinGpioSet d => Sys2Proof.Machine.execPinGpioSet d s
  | .pinRestore d => Sys2Proof.Machine.execPinRestore d s
  | .pinRefoutSet d => Sys2Proof.Machine.execPinRefoutSet d s
  | .timedCommandApply => Sys2Proof.Machine.execTimedCommandApply s
  | .directSubmitWrite f d => Sys2Proof.Machine.execDirectSubmitWrite f d s
  | .directCompletionPop f => Sys2Proof.Machine.execDirectCompletionPop f s
  | .submissionDoorbell f ring cnt fetched => Sys2Proof.Machine.execSubmissionDoorbell f ring cnt fetched s
  | .completionHeadDoorbell f ring cnt => Sys2Proof.Machine.execCompletionHeadDoorbell f ring cnt s
  | .descriptorFetchFault f ring => Sys2Proof.Machine.execDescriptorFetchFault f ring s
  | .completionCoalesceTimeout f ring => Sys2Proof.Machine.execCompletionCoalesceTimeout f ring s
  | .msixVectorUnmask f vector => Sys2Proof.Machine.execMsixVectorUnmask f vector s
  | .evqPop f q => Sys2Proof.Machine.execEvqPop f q s
  | .evqUnderrunClear f q value => Sys2Proof.Machine.execEvqUnderrunClear f q value s
  | .hifEvqIntMaskWrite fn f value => Sys2Proof.Machine.execHifEvqIntMaskWrite fn f value s
  | .timNowNsRead => Sys2Proof.Machine.execTimNowNsRead s
  | .wideRegisterLowRead fn reg => Sys2Proof.Machine.execWideRegisterLowRead fn reg s
  | .rcFieldRead id => Sys2Proof.Machine.execRcFieldRead id s
  | .barAccessBad fn bar offset write => Sys2Proof.Machine.execBarAccessBad fn bar offset write s
  | .barWriteIgnored fn bar offset value => Sys2Proof.Machine.execBarWriteIgnored fn bar offset value s
  | .commaBarWrite fn write wellFormed => Sys2Proof.Machine.execCommaBarWrite fn write wellFormed s
  | .i3cPrivateWrite d len => Sys2Proof.Machine.execI3cPrivateWrite d len s
  | .i3cPrivateRead => Sys2Proof.Machine.execI3cPrivateRead s
  | .i3cSdaStuck => Sys2Proof.Machine.execI3cSdaStuck s
  | .i3cSclHeld ns => Sys2Proof.Machine.execI3cSclHeld ns s
  | .i3cTargetReset exit => Sys2Proof.Machine.execI3cTargetReset exit s
  | .stmFlashErase => Sys2Proof.Machine.execStmFlashErase s
  | .stmFlashProgram len => Sys2Proof.Machine.execStmFlashProgram len s
  | .stmFlashRead len => Sys2Proof.Machine.execStmFlashRead len s
  | .stmFlashVerify => Sys2Proof.Machine.execStmFlashVerify s
  | .stmBootRecordWrite => Sys2Proof.Machine.execStmBootRecordWrite s
  | .stmFlashOpDone flashOk image data => Sys2Proof.Machine.execStmFlashOpDone flashOk image data s
  | .stmDebugUnlock => Sys2Proof.Machine.execStmDebugUnlock s
  | .stmRestart => Sys2Proof.Machine.execStmRestart s
  | .jtagCoreAccess => Sys2Proof.Machine.execJtagCoreAccess s
  | .flr f => Sys2Proof.Machine.execFlr f s
  | .linkLoss => Sys2Proof.Machine.execLinkLoss s
  | .porstNRelease => Sys2Proof.Machine.execPorstNRelease s
  | .perstRelease => Sys2Proof.Machine.execPerstRelease s
  | .resetAssert perst => Sys2Proof.Machine.execResetAssert perst s
  | .supplyMonitorChange rail inRange => Sys2Proof.Machine.execSupplyMonitorChange rail inRange s
  | .startAttempt result => Sys2Proof.Machine.execStartAttempt result s
  | .startWatchdogExpiry => Sys2Proof.Machine.execStartWatchdogExpiry s
  | .attemptRestart => Sys2Proof.Machine.execAttemptRestart s
  | .windowStart kind die idx => Sys2Proof.Machine.execWindowStart kind die idx s
  | .deadlineStrobe kind die idx => Sys2Proof.Machine.execDeadlineStrobe kind die idx s
  | .paceMeterInterval meters => Sys2Proof.Machine.execPaceMeterInterval meters s
  | .slackInterval => Sys2Proof.Machine.execSlackInterval s
  | .avsLoopTick => Sys2Proof.Machine.execAvsLoopTick s
  | .avsAckTimeout => Sys2Proof.Machine.execAvsAckTimeout s
  | .ptpSyncReceived port diff => Sys2Proof.Machine.execPtpSyncReceived port diff s
  | .ptpDelayRespReceived port delay => Sys2Proof.Machine.execPtpDelayRespReceived port delay s
  | .ptpAnnounceReceived port attrs sender qualified interval => Sys2Proof.Machine.execPtpAnnounceReceived port attrs sender qualified interval s
  | .ptpAnnounceTimeout port => Sys2Proof.Machine.execPtpAnnounceTimeout port s
  | .refFrameEdge falling => Sys2Proof.Machine.execRefFrameEdge falling s
  | .refFrameMissed => Sys2Proof.Machine.execRefFrameMissed s
  | .ref10mChange ppb => Sys2Proof.Machine.execRef10mChange ppb s
  | .timSetTimeout => Sys2Proof.Machine.execTimSetTimeout s
  | .foldAckTimeout link => Sys2Proof.Machine.execFoldAckTimeout link s
  | .foldIntegrityFail link check => Sys2Proof.Machine.execFoldIntegrityFail link check s
  | .foldRetryDone retry ok => Sys2Proof.Machine.execFoldRetryDone retry ok s
  | .foldRetrainStart link => Sys2Proof.Machine.execFoldRetrainStart link s
  | .foldRetrainEnd link ok => Sys2Proof.Machine.execFoldRetrainEnd link ok s
  | .keyAlarmDetect source => Sys2Proof.Machine.execKeyAlarmDetect source s
  | .jrnAnchorTimer => Sys2Proof.Machine.execJrnAnchorTimer s
  | .jrnMirrorProgramDone ok => Sys2Proof.Machine.execJrnMirrorProgramDone ok s
  | .exportConsumedPoll q consumed => Sys2Proof.Machine.execExportConsumedPoll q consumed s
  | .exportInterruptTimeout q => Sys2Proof.Machine.execExportInterruptTimeout q s
  | .ethFrameReceive f => Sys2Proof.Machine.execEthFrameReceive f s
  | .policerRefill => Sys2Proof.Machine.execPolicerRefill s
  | .cipherOpComplete id => Sys2Proof.Machine.execCipherOpComplete id s
  | .keyCacheLoaded die slot gen => Sys2Proof.Machine.execKeyCacheLoaded die slot gen s
  | .authResult id ok prevOk => Sys2Proof.Machine.execAuthResult id ok prevOk s
  | .graceEnd slot => Sys2Proof.Machine.execGraceEnd slot s
  | .playoutTimeReached die idx => Sys2Proof.Machine.execPlayoutTimeReached die idx s
  | .playoutAnchorAdjust die idx => Sys2Proof.Machine.execPlayoutAnchorAdjust die idx s
  | .netPathTimeout die idx => Sys2Proof.Machine.execNetPathTimeout die idx s
  | .streamStallTimeout die idx => Sys2Proof.Machine.execStreamStallTimeout die idx s
  | .legSilenceTimeout die idx => Sys2Proof.Machine.execLegSilenceTimeout die idx s
  | .nackDelayExpiry die idx => Sys2Proof.Machine.execNackDelayExpiry die idx s
  | .nackRepeatExpiry die idx => Sys2Proof.Machine.execNackRepeatExpiry die idx s
  | .rtcpReportTimer die idx => Sys2Proof.Machine.execRtcpReportTimer die idx s
  | .rtcpSenderReportTimer die idx => Sys2Proof.Machine.execRtcpSenderReportTimer die idx s
  | .rtcpReceived r => Sys2Proof.Machine.execRtcpReceived r s
  | .legDrainComplete die idx => Sys2Proof.Machine.execLegDrainComplete die idx s
  | .legDrainLimit die idx => Sys2Proof.Machine.execLegDrainLimit die idx s
  | .sdiLockChange die lane lock st352 inverted => Sys2Proof.Machine.execSdiLockChange die lane lock st352 inverted s
  | .sdiFrameComplete die lane format st352 groups bad => Sys2Proof.Machine.execSdiFrameComplete die lane format st352 groups bad s
  | .jesdSyncChange die c sync => Sys2Proof.Machine.execJesdSyncChange die c sync s
  | .iqOverrun die c => Sys2Proof.Machine.execIqOverrun die c s
  | .modStageChange die c new p => Sys2Proof.Machine.execModStageChange die c new p s
  | .modLockTimeout die c => Sys2Proof.Machine.execModLockTimeout die c s
  | .modTsPacket die c corrected bad media => Sys2Proof.Machine.execModTsPacket die c corrected bad media s
  | .modIqInterval die c power peak clipped => Sys2Proof.Machine.execModIqInterval die c power peak clipped s
  | .modTxSymbol die c bins => Sys2Proof.Machine.execModTxSymbol die c bins s
  | .feSpiFrameDone die c miso => Sys2Proof.Machine.execFeSpiFrameDone die c miso s
  | .accessUnitComplete die idx info => Sys2Proof.Machine.execAccessUnitComplete die idx info s
  | .decodePictureComplete die idx pic => Sys2Proof.Machine.execDecodePictureComplete die idx pic s
  | .pliIntervalExpiry die idx => Sys2Proof.Machine.execPliIntervalExpiry die idx s
  | .mixPartialArrival bus die => Sys2Proof.Machine.execMixPartialArrival bus die s
  | .mixAdditionPoint bus => Sys2Proof.Machine.execMixAdditionPoint bus s
  | .mixTotalArrival bus die => Sys2Proof.Machine.execMixTotalArrival bus die s
  | .overlayHoldExpiry die idx => Sys2Proof.Machine.execOverlayHoldExpiry die idx s
  | .meterPeriodEnd die => Sys2Proof.Machine.execMeterPeriodEnd die s
  | .compositionComplete die idx crc => Sys2Proof.Machine.execCompositionComplete die idx crc s
  | .encodeFrameComplete die idx rows => Sys2Proof.Machine.execEncodeFrameComplete die idx rows s
  | .upWaitExpiry die idx => Sys2Proof.Machine.execUpWaitExpiry die idx s
  | .rtxHoldExpiry die idx => Sys2Proof.Machine.execRtxHoldExpiry die idx s
  | .sourcePacketForward die idx => Sys2Proof.Machine.execSourcePacketForward die idx s
  | .shaperRefill => Sys2Proof.Machine.execShaperRefill s
  | .egressFrameSent die lane => Sys2Proof.Machine.execEgressFrameSent die lane s
  | .sojournLimit die queue => Sys2Proof.Machine.execSojournLimit die queue s
  | .pacedPacketDue die idx => Sys2Proof.Machine.execPacedPacketDue die idx s
  | .latencySampleTick die => Sys2Proof.Machine.execLatencySampleTick die s
  | .parkedTaskDue => Sys2Proof.Machine.execParkedTaskDue s
  | .flowItemComplete die flow tokens => Sys2Proof.Machine.execFlowItemComplete die flow tokens s
  | .reorderTimeout die flow => Sys2Proof.Machine.execReorderTimeout die flow s
  | .arbiterRound r reqs => Sys2Proof.Machine.execArbiterRound r reqs s
  | .dspInterruptEntry die n => Sys2Proof.Machine.execDspInterruptEntry die n s
  | .dspFault die n => Sys2Proof.Machine.execDspFault die n s
  | .par die n => Sys2Proof.Machine.execPar die n s
  | .mpy die n => Sys2Proof.Machine.execMpy die n s
  | .mac die n => Sys2Proof.Machine.execMac die n s
  | .msu die n => Sys2Proof.Machine.execMsu die n s
  | .add die n => Sys2Proof.Machine.execAdd die n s
  | .sub die n => Sys2Proof.Machine.execSub die n s
  | .adda die n => Sys2Proof.Machine.execAdda die n s
  | .clr die n => Sys2Proof.Machine.execClr die n s
  | .neg die n => Sys2Proof.Machine.execNeg die n s
  | .abs die n => Sys2Proof.Machine.execAbs die n s
  | .asr die n => Sys2Proof.Machine.execAsr die n s
  | .asl die n => Sys2Proof.Machine.execAsl die n s
  | .ext die n => Sys2Proof.Machine.execExt die n s
  | .tst die n => Sys2Proof.Machine.execTst die n s
  | .cmp die n => Sys2Proof.Machine.execCmp die n s
  | .addd die n => Sys2Proof.Machine.execAddd die n s
  | .subd die n => Sys2Proof.Machine.execSubd die n s
  | .and die n => Sys2Proof.Machine.execAnd die n s
  | .or die n => Sys2Proof.Machine.execOr die n s
  | .xor die n => Sys2Proof.Machine.execXor die n s
  | .ldi die n => Sys2Proof.Machine.execLdi die n s
  | .mov die n => Sys2Proof.Machine.execMov die n s
  | .ldx die n => Sys2Proof.Machine.execLdx die n s
  | .stx die n => Sys2Proof.Machine.execStx die n s
  | .ldy die n => Sys2Proof.Machine.execLdy die n s
  | .sty die n => Sys2Proof.Machine.execSty die n s
  | .br die n => Sys2Proof.Machine.execBr die n s
  | .call die n => Sys2Proof.Machine.execCall die n s
  | .ret die n => Sys2Proof.Machine.execRet die n s
  | .rti die n => Sys2Proof.Machine.execRti die n s
  | .rep die n => Sys2Proof.Machine.execRep die n s
  | .endl die n => Sys2Proof.Machine.execEndl die n s
  | .pushl die n => Sys2Proof.Machine.execPushl die n s
  | .popl die n => Sys2Proof.Machine.execPopl die n s
  | .idle die n => Sys2Proof.Machine.execIdle die n s
  | .gett die n => Sys2Proof.Machine.execGett die n s
  | .putt die n => Sys2Proof.Machine.execPutt die n s
  | .memRefresh die ch => Sys2Proof.Machine.execMemRefresh die ch s
  | .memTempRead die device celsius => Sys2Proof.Machine.execMemTempRead die device celsius s
  | .actWindowEnd die ch bank => Sys2Proof.Machine.execActWindowEnd die ch bank s
  | .rowActivationThreshold die ch bank row reqDie reqUnit => Sys2Proof.Machine.execRowActivationThreshold die ch bank row reqDie reqUnit s
  | .memEccUncorrectable die ch link what => Sys2Proof.Machine.execMemEccUncorrectable die ch link what s
  | .heartbeatSend => Sys2Proof.Machine.execHeartbeatSend s
  | .heartbeatReceived path hb => Sys2Proof.Machine.execHeartbeatReceived path hb s
  | .pairPathTimeout path => Sys2Proof.Machine.execPairPathTimeout path s
  | .pairTakeover => Sys2Proof.Machine.execPairTakeover s
  | .replayWindowEnd => Sys2Proof.Machine.execReplayWindowEnd s
  | .decisionRecordReceived rec => Sys2Proof.Machine.execDecisionRecordReceived rec s
  | .holdingsReceived h => Sys2Proof.Machine.execHoldingsReceived h s
  | .resyncRequestReceived send => Sys2Proof.Machine.execResyncRequestReceived send s
  | .wakeSample vals => Sys2Proof.Machine.execWakeSample vals s
  | .wakeDetect slot rising => Sys2Proof.Machine.execWakeDetect slot rising s
  | .commaExit hubOk diesOk => Sys2Proof.Machine.execCommaExit hubOk diesOk s
  | .thermalReading die temp => Sys2Proof.Machine.execThermalReading die temp s
  | .txReceiverDetect die lane load => Sys2Proof.Machine.execTxReceiverDetect die lane load s
  | .txShortDetect die lane cause => Sys2Proof.Machine.execTxShortDetect die lane cause s
  | .gpioReadbackSample pin level => Sys2Proof.Machine.execGpioReadbackSample pin level s
  | .gpioOpenTest pin up down => Sys2Proof.Machine.execGpioOpenTest pin up down s
  | .lowSpeedReadbackSample die bit differs => Sys2Proof.Machine.execLowSpeedReadbackSample die bit differs s
  | .alwaysOnPowerUp => Sys2Proof.Machine.execAlwaysOnPowerUp s
  | .alarmConditionEnd source => Sys2Proof.Machine.execAlarmConditionEnd source s
  | .ethBlockLockChange die lane lock signal inverted order => Sys2Proof.Machine.execEthBlockLockChange die lane lock signal inverted order s
  | .mixJobComplete die => Sys2Proof.Machine.execMixJobComplete die s
  | .commaEntryDone => Sys2Proof.Machine.execCommaEntryDone s
  | .otherSlotVerifyDone => Sys2Proof.Machine.execOtherSlotVerifyDone s
  | .peerCommandReceived d => Sys2Proof.Machine.execPeerCommandReceived d s
  | .bar4Resize mib => Sys2Proof.Machine.execBar4Resize mib s
  | .tsPatPmtTimer die idx => Sys2Proof.Machine.execTsPatPmtTimer die idx s
  | .wakeNRelease => Sys2Proof.Machine.execWakeNRelease s

end Sys2Proof.Machine
end

