-- ==== Sys2Proof/Machine/Idle.lean ====
section
/-!
DEFINITION. What the block does when nothing waits in its queue: it takes a descriptor from its rings if one can be taken
(R88), and else its clock ticks once (assumption 5).
-/
namespace Sys2Proof.Machine

/-- The descriptor taken next, while commands are taken at all. -/
def nextDesc (m : M) : Option (Desc × M) := if accepting m then takeNext m else none

/-- One idle step: in Comma state one tick of the always-on clock; else the next descriptor is executed, or, with none to
take, device time and MONO run on by one tick of 1 ns, and a second of authentication failures that has ended is recorded (R159). -/
def idle (s : State) : Host.Outcome State Fault Refusal :=
  if 3 ≤ s.m.pwr.state then liftMono aonTick s
  else match nextDesc s.m with
    | some (d, m1) => liftOp d.opcode (runDesc specOf d) { s with m := m1 }
    | none => liftMono (fun m => authSeconds (clockTick m)) s

end Sys2Proof.Machine
end

