-- ==== Sys2Proof/WellFormed.lean ====
section
/-!
DEFINITION. Well-formed commands: operands within the fields that carry them (Tables 04-3 and 04-4, R1, R25, R81, R91).
The meanings are total on every term; a term that is not well formed stands for no word or event of the part.
-/
namespace Sys2Proof

/-- A number below a bound. -/
def below (top n : Nat) : Bool := decide (n < top)

/-- A die of a package: the hub, 0, or a media die 1 to 7 (R1). -/
def dieOk (d : Nat) : Bool := below 8 d

/-- A function: PF0 to PF2 and at most 61 VFs (R81). -/
def fnOk (f : Nat) : Bool := below 64 f

/-- A ring number of 10 bits, 0x3FF the direct port. -/
def ringOk (r : Nat) : Bool := below 1024 r

/-- A 32-bit number. -/
def wordOk (n : Nat) : Bool := below (2 ^ 32) n

/-- The path of a descriptor. -/
def Path.wf : Path → Bool
  | .host fn ring _ => fnOk fn && ringOk ring
  | .i3c => true
  | .peer => true

/-- A section's fields fit their bytes of Table 03-2, and its contents have the length its entry gives. -/
def Sect.wf (s : Sect) : Bool :=
  below (2 ^ 16) s.typ && below 256 s.die && below 256 s.cls && wordOk s.offset && wordOk s.length && wordOk s.crc32 &&
  s.data.length == s.length

def EcKey.wf (k : EcKey) : Bool := below 256 k.form && below (2 ^ 384) k.x && below (2 ^ 384) k.y

def EcSig.wf (g : EcSig) : Bool := below (2 ^ 384) g.r && below (2 ^ 384) g.s

/-- An image's fields fit their bytes of Tables 03-1 and 03-4, and its table has as many entries as the header says. -/
def Image.wf (i : Image) : Bool :=
  wordOk i.magic && below (2 ^ 16) i.version && below (2 ^ 16) i.target && wordOk i.length && below (2 ^ 16) i.count &&
  below (2 ^ 16) i.flags && below (2 ^ 64) i.serial && below (2 ^ 64) i.rsv1 && below (2 ^ 384) i.rsv2 &&
  i.sections.length == i.count && i.sections.all Sect.wf && below 256 i.sign.keyIndex && below (2 ^ 56) i.sign.rsv1 &&
  i.sign.svetKey.wf && i.sign.svetSig.wf && below (2 ^ 56) i.sign.rsv2 && i.sign.ownerKey.wf && i.sign.ownerSig.wf &&
  below (2 ^ 888) i.sign.rsv3

/-- A descriptor's fields fit their bytes of Table 04-3, and its buffer its 16 MiB. -/
def Desc.wf (d : Desc) : Bool :=
  d.path.wf && below (2 ^ 16) d.opcode && below (2 ^ 16) d.flags && below (2 ^ 48) d.commitSec && wordOk d.commitNs &&
  below (2 ^ 16) d.rsvd && below 16777217 d.buf.length && d.image.all Image.wf

/-- Operands within their fields. -/
def wellFormed (i : Instr) : Bool :=
  match i with
  | .timSourceSet d => d.wf
  | .timSet d => d.wf
  | .timGuardSet d => d.wf
  | .timSlackAlarmSet d => d.wf
  | .pwrAvsSet d => d.wf
  | .synStage d => d.wf
  | .synStageWriteDone _ => true
  | .synActivate d => d.wf
  | .activateRestartDue => true
  | .restructureStepDone _ _ => true
  | .restructureTimeout => true
  | .synBootSet d => d.wf
  | .keyOwnerEnrol d => d.wf
  | .hifRingCreate d => d.wf
  | .hifRingDelete d => d.wf
  | .hifEvqConfig d => d.wf
  | .hifNop d => d.wf
  | .jrnExportSet d => d.wf
  | .jrnMark d => d.wf
  | .jrnVerify d => d.wf
  | .jrnVerifyDone _ => true
  | .keyWrite d => d.wf
  | .keyClear d => d.wf
  | .keyErase d => d.wf
  | .keyAlarmSet d => d.wf
  | .keyAlarmClear d => d.wf
  | .cipAuthSet d => d.wf
  | .cipRocSet d => d.wf
  | .legDefine d => d.wf
  | .legModify d => d.wf
  | .legArm d => d.wf
  | .legDisarm d => d.wf
  | .legDrain d => d.wf
  | .legDelete d => d.wf
  | .legMove d => d.wf
  | .netPortSet d => d.wf
  | .netStreamDefine d => d.wf
  | .netStreamModify d => d.wf
  | .netStreamDelete d => d.wf
  | .modConfig d => d.wf
  | .modStart d => d.wf
  | .modStop d => d.wf
  | .modFeSet d => d.wf
  | .modGainSet d => d.wf
  | .modFirSet d => d.wf
  | .modMaskSet d => d.wf
  | .modTxUnmute d => d.wf
  | .codContextOpen d => d.wf
  | .codContextModify d => d.wf
  | .codStart d => d.wf
  | .codStop d => d.wf
  | .codContextClose d => d.wf
  | .codLayerSelect d => d.wf
  | .codRefresh d => d.wf
  | .fbpSnapshot d => d.wf
  | .fbpSnapshotDone die => dieOk die
  | .codPair d => d.wf
  | .mixBusDefine d => d.wf
  | .mixBusDelete d => d.wf
  | .mixXpSet d => d.wf
  | .mixLegSet d => d.wf
  | .mixOverlaySet d => d.wf
  | .mixCommit d => d.wf
  | .mixMeterSet d => d.wf
  | .cmpDefine d => d.wf
  | .cmpStart d => d.wf
  | .cmpStop d => d.wf
  | .cmpDelete d => d.wf
  | .cmpOutputSet d => d.wf
  | .cmpLayerSet d => d.wf
  | .cmpLayerColour d => d.wf
  | .cmpLayerStyle d => d.wf
  | .cmpZlistSet d => d.wf
  | .cmpLut3dSet d => d.wf
  | .cmpCommit d => d.wf
  | .cmpCursorSet d => d.wf
  | .cmpCursorImage d => d.wf
  | .cmpGlyphLoad d => d.wf
  | .cmpGuardSet d => d.wf
  | .cmpGuardClear d => d.wf
  | .cmpPair d => d.wf
  | .encContextOpen d => d.wf
  | .encContextModify d => d.wf
  | .encStart d => d.wf
  | .encStop d => d.wf
  | .encContextClose d => d.wf
  | .encRateSet d => d.wf
  | .encKeyframe d => d.wf
  | .fwdSet d => d.wf
  | .fwdDelete d => d.wf
  | .fwdMemberAdd d => d.wf
  | .fwdMemberRemove d => d.wf
  | .netSendDefine d => d.wf
  | .netSendModify d => d.wf
  | .netSendDelete d => d.wf
  | .trfPortSet d => d.wf
  | .trfClassSet d => d.wf
  | .trfQueueSet d => d.wf
  | .trfProfileSet d => d.wf
  | .trfLineSet d => d.wf
  | .trfSampleSet d => d.wf
  | .tskArbSet d => d.wf
  | .tskPrioSet d => d.wf
  | .tskCancel d => d.wf
  | .dspPortSet d => d.wf
  | .dspPortClear d => d.wf
  | .dspParamSet d => d.wf
  | .dspHalt d => d.wf
  | .dspRestart d => d.wf
  | .dspPair d => d.wf
  | .memRateSet d => d.wf
  | .memEccSet d => d.wf
  | .memActSet d => d.wf
  | .pwrEnter d => d.wf
  | .pwrWakeSet d => d.wf
  | .pairConfig d => d.wf
  | .pairClaim d => d.wf
  | .pairClaimReleaseTimeout => true
  | .pairWake d => d.wf
  | .pinLoopbackSet d => d.wf
  | .pinGpioSet d => d.wf
  | .pinRestore d => d.wf
  | .pinRefoutSet d => d.wf
  | .timedCommandApply => true
  | .directSubmitWrite f d => fnOk f && d.wf
  | .directCompletionPop f => fnOk f
  | .submissionDoorbell f ring cnt fetched => fnOk f && ringOk ring && wordOk cnt && fetched.all Desc.wf
  | .completionHeadDoorbell f ring cnt => fnOk f && ringOk ring && wordOk cnt
  | .descriptorFetchFault f ring => fnOk f && ringOk ring
  | .completionCoalesceTimeout f ring => fnOk f && ringOk ring
  | .msixVectorUnmask f vector => fnOk f && below 1024 vector
  | .evqPop f q => fnOk f && below 64 q
  | .evqUnderrunClear f q _ => fnOk f && below 64 q
  | .hifEvqIntMaskWrite fn f _ => fnOk fn && fnOk f
  | .timNowNsRead => true
  | .wideRegisterLowRead fn _ => fnOk fn
  | .rcFieldRead _ => true
  | .barAccessBad fn _ offset _ => fnOk fn && wordOk offset
  | .barWriteIgnored fn _ offset _ => fnOk fn && wordOk offset
  | .commaBarWrite fn _ _ => fnOk fn
  | .i3cPrivateWrite d _ => d.wf
  | .i3cPrivateRead => true
  | .i3cSdaStuck => true
  | .i3cSclHeld _ => true
  | .i3cTargetReset _ => true
  | .stmFlashErase => true
  | .stmFlashProgram _ => true
  | .stmFlashRead _ => true
  | .stmFlashVerify => true
  | .stmBootRecordWrite => true
  | .stmFlashOpDone _ image _ => image.all Image.wf
  | .stmDebugUnlock => true
  | .stmRestart => true
  | .jtagCoreAccess => true
  | .flr f => fnOk f
  | .linkLoss => true
  | .porstNRelease => true
  | .perstRelease => true
  | .resetAssert _ => true
  | .supplyMonitorChange _ _ => true
  | .startAttempt _ => true
  | .startWatchdogExpiry => true
  | .attemptRestart => true
  | .windowStart _ die _ => dieOk die
  | .deadlineStrobe _ die _ => dieOk die
  | .paceMeterInterval _ => true
  | .slackInterval => true
  | .avsLoopTick => true
  | .avsAckTimeout => true
  | .ptpSyncReceived port _ => below 256 port
  | .ptpDelayRespReceived port _ => below 256 port
  | .ptpAnnounceReceived port _ _ _ _ => below 256 port
  | .ptpAnnounceTimeout port => below 256 port
  | .refFrameEdge _ => true
  | .refFrameMissed => true
  | .ref10mChange _ => true
  | .timSetTimeout => true
  | .foldAckTimeout _ => true
  | .foldIntegrityFail _ _ => true
  | .foldRetryDone _ _ => true
  | .foldRetrainStart _ => true
  | .foldRetrainEnd _ _ => true
  | .keyAlarmDetect source => below 8 source
  | .jrnAnchorTimer => true
  | .jrnMirrorProgramDone _ => true
  | .exportConsumedPoll q _ => below 64 q
  | .exportInterruptTimeout q => below 64 q
  | .ethFrameReceive _ => true
  | .policerRefill => true
  | .cipherOpComplete _ => true
  | .keyCacheLoaded die slot _ => dieOk die && below 16384 slot
  | .authResult _ _ _ => true
  | .graceEnd slot => below 16384 slot
  | .playoutTimeReached die _ => dieOk die
  | .playoutAnchorAdjust die _ => dieOk die
  | .netPathTimeout die _ => dieOk die
  | .streamStallTimeout die _ => dieOk die
  | .legSilenceTimeout die _ => dieOk die
  | .nackDelayExpiry die _ => dieOk die
  | .nackRepeatExpiry die _ => dieOk die
  | .rtcpReportTimer die _ => dieOk die
  | .rtcpSenderReportTimer die _ => dieOk die
  | .rtcpReceived _ => true
  | .legDrainComplete die _ => dieOk die
  | .legDrainLimit die _ => dieOk die
  | .sdiLockChange die lane _ _ _ => dieOk die && below 32 lane
  | .sdiFrameComplete die lane _ _ _ _ => dieOk die && below 32 lane
  | .jesdSyncChange die lane _ => dieOk die && below 8 lane
  | .iqOverrun die lane => dieOk die && below 8 lane
  | .modStageChange die c _ _ => dieOk die && below 2 c
  | .modLockTimeout die c => dieOk die && below 2 c
  | .modTsPacket die c _ _ _ => dieOk die && below 2 c
  | .modIqInterval die c _ _ _ => dieOk die && below 2 c
  | .modTxSymbol die c _ => dieOk die && below 2 c
  | .feSpiFrameDone die c _ => dieOk die && below 2 c
  | .accessUnitComplete die _ _ => dieOk die
  | .decodePictureComplete die _ _ => dieOk die
  | .pliIntervalExpiry die _ => dieOk die
  | .mixPartialArrival _ die => dieOk die
  | .mixAdditionPoint _ => true
  | .mixTotalArrival _ die => dieOk die
  | .overlayHoldExpiry die _ => dieOk die
  | .meterPeriodEnd die => dieOk die
  | .compositionComplete die _ _ => dieOk die
  | .encodeFrameComplete die _ _ => dieOk die
  | .upWaitExpiry die _ => dieOk die
  | .rtxHoldExpiry die _ => dieOk die
  | .sourcePacketForward die _ => dieOk die
  | .shaperRefill => true
  | .egressFrameSent die lane => dieOk die && below 32 lane
  | .sojournLimit die _ => dieOk die
  | .pacedPacketDue die _ => dieOk die
  | .latencySampleTick die => dieOk die
  | .parkedTaskDue => true
  | .flowItemComplete die _ _ => dieOk die
  | .reorderTimeout die _ => dieOk die
  | .arbiterRound _ _ => true
  | .dspInterruptEntry die _ => dieOk die
  | .dspFault die _ => dieOk die
  | .par die _ => dieOk die
  | .mpy die _ => dieOk die
  | .mac die _ => dieOk die
  | .msu die _ => dieOk die
  | .add die _ => dieOk die
  | .sub die _ => dieOk die
  | .adda die _ => dieOk die
  | .clr die _ => dieOk die
  | .neg die _ => dieOk die
  | .abs die _ => dieOk die
  | .asr die _ => dieOk die
  | .asl die _ => dieOk die
  | .ext die _ => dieOk die
  | .tst die _ => dieOk die
  | .cmp die _ => dieOk die
  | .addd die _ => dieOk die
  | .subd die _ => dieOk die
  | .and die _ => dieOk die
  | .or die _ => dieOk die
  | .xor die _ => dieOk die
  | .ldi die _ => dieOk die
  | .mov die _ => dieOk die
  | .ldx die _ => dieOk die
  | .stx die _ => dieOk die
  | .ldy die _ => dieOk die
  | .sty die _ => dieOk die
  | .br die _ => dieOk die
  | .call die _ => dieOk die
  | .ret die _ => dieOk die
  | .rti die _ => dieOk die
  | .rep die _ => dieOk die
  | .endl die _ => dieOk die
  | .pushl die _ => dieOk die
  | .popl die _ => dieOk die
  | .idle die _ => dieOk die
  | .gett die _ => dieOk die
  | .putt die _ => dieOk die
  | .memRefresh die ch => dieOk die && below 8 ch
  | .memTempRead die _ _ => dieOk die
  | .actWindowEnd die ch bank => dieOk die && below 8 ch && below 16 bank
  | .rowActivationThreshold die ch bank row reqDie _ => dieOk die && below 8 ch && below 16 bank && below 65536 row.row && dieOk reqDie
  | .memEccUncorrectable die ch _ _ => dieOk die && below 8 ch
  | .heartbeatSend => true
  | .heartbeatReceived path _ => below 2 path
  | .pairPathTimeout path => below 2 path
  | .pairTakeover => true
  | .replayWindowEnd => true
  | .decisionRecordReceived _ => true
  | .holdingsReceived _ => true
  | .resyncRequestReceived _ => true
  | .wakeSample _ => true
  | .wakeDetect slot _ => below 16 slot
  | .commaExit _ _ => true
  | .thermalReading die _ => dieOk die
  | .txReceiverDetect die lane _ => dieOk die && below 32 lane
  | .txShortDetect die lane _ => dieOk die && below 32 lane
  | .gpioReadbackSample pin _ => below 64 pin
  | .gpioOpenTest pin _ _ => below 64 pin
  | .lowSpeedReadbackSample die _ _ => dieOk die
  | .alwaysOnPowerUp => true
  | .alarmConditionEnd source => below 8 source
  | .ethBlockLockChange die lane _ _ _ _ => dieOk die && below 32 lane
  | .mixJobComplete die => dieOk die
  | .commaEntryDone => true
  | .otherSlotVerifyDone => true
  | .peerCommandReceived d => d.wf
  | .bar4Resize _ => true
  | .tsPatPmtTimer die _ => dieOk die
  | .wakeNRelease => true

end Sys2Proof
end

