-- ==== Sys2Proof/Safety.lean ====
section
/-!
DEFINITION. The terms claims are stated in: a command that is taken and passes its checks, what completes it, and what a report
of an effect may touch.
-/
namespace Sys2Proof.Machine

/-- The state after a meaning that keeps the queue, the one-time storage and MONO. -/
def after (s : State) (m : M) : State := { s with m := { m with vault := s.m.vault } }

/-- A descriptor of a command's row is taken at once, as `x`, with the machine then at `m1`, and passes steps 1 to 9 of R96. -/
def Starts (sp : CmdSpec) (d : Desc) (m : M) (x : Desc) (m1 : M) : Prop :=
  taken { d with opcode := sp.opcode } m = some (x, m1) ∧ earlyFail sp x m1 = none ∧ lateFail sp x (sp.onExec x m1) = none

/-- The held command that comes due first is `p`, of this command, and passes steps 7 to 9 again (R99). -/
def Due (sp : CmdSpec) (m : M) (p : Pend) : Prop :=
  m.start.phase = .ready ∧ m.pwr.state < 3 ∧ dueFirst m.dev m.pend = some p ∧ p.d.opcode = sp.opcode ∧
  lateFail sp p.d (dropPend p.order m) = none

/-- The row of a command completes, wherever `ok` holds of its descriptor and the machine, with the effect `eff`: at once where the
command has no boundary, or else held by its row and given its effect at the boundary, also at one after a commit time already past
unless the command has another effect there. Record and completion follow the effect. -/
def CompletesIf (row : Desc → Instr) (sp : CmdSpec) (ok : Desc → M → Prop) (eff : Desc → M → M × Reply) : Prop :=
  (∀ s d x m1, Starts sp d s.m x m1 → sp.when x (sp.onExec x m1) = none → ok x (sp.onExec x m1) →
    exec (row d) s =
      .next (after s (finish x sp.ptr (eff x (sp.onExec x m1)).2 (eff x (sp.onExec x m1)).1))) ∧
  (∀ s d x m1 b, Starts sp d s.m x m1 → sp.when x (sp.onExec x m1) = some b → (sp.onExec x m1).pend.length < heldMax →
    exec (row d) s = .next (after s (holdCmd sp x b (sp.onExec x m1)))) ∧
  (∀ s p, Due sp s.m p → (p.late = true → sp.applyLate = none) → ok p.d (dropPend p.order s.m) →
    exec .timedCommandApply s =
      .next (after s (noteApplied p.d p.order s.m.jrn.head
        (finish p.d sp.ptr (lateReply p.late (eff p.d (dropPend p.order s.m)).2) (eff p.d (dropPend p.order s.m)).1))))

/-- The row of a command completes with the effect `eff` whenever it starts. -/
def Completes (row : Desc → Instr) (sp : CmdSpec) (eff : Desc → M → M × Reply) : Prop :=
  CompletesIf row sp (fun _ _ => True) eff

/-- The row of a command acts, wherever `ok` holds, by `act` of its descriptor, of whether its commit time had passed, and of the
machine: for commands that write no record, or that their unit completes later. -/
def ActsIf (row : Desc → Instr) (sp : CmdSpec) (ok : Desc → M → Prop) (act : Desc → Bool → M → M) : Prop :=
  (∀ s d x m1, Starts sp d s.m x m1 → sp.when x (sp.onExec x m1) = none → ok x (sp.onExec x m1) →
    exec (row d) s = .next (after s (act x false (sp.onExec x m1)))) ∧
  (∀ s p, Due sp s.m p → ok p.d (dropPend p.order s.m) →
    exec .timedCommandApply s =
      .next (after s (noteApplied p.d p.order s.m.jrn.head (act p.d p.late (dropPend p.order s.m)))))

/-- The row of a signal engine's instruction acts by `body` when the engine's next instruction is that one and does not fault
(R344 to R353). -/
def Issues (row : Nat → Nat → Instr) (op : Nat) (body : DBody) : Prop :=
  ∀ s die n e0, getDsp s.m die n = some e0 → mayIssue e0 op = true → opOf (progAt (commit e0) (commit e0).pc) = op →
    wordFault (commit e0) (progAt (commit e0) (commit e0).pc) = none →
    exec (row die n) s = .next (after s
      (setDsp die n (complete (commit e0) (progAt (commit e0) (commit e0).pc)
        (body (progAt (commit e0) (commit e0).pc) { commit e0 with delay := false, target := none, rti := false }).1
        (body (progAt (commit e0) (commit e0).pc) { commit e0 with delay := false, target := none, rti := false }).2) s.m))

/-- `b` is `a` but for what a report touches: the journal, the host link, the counters, rate limits and free values, events held in
Comma state, commands owed, the I3C port and the block's outputs. -/
def Reports (a b : M) : Prop :=
  b = { a with
    jrn := b.jrn, host := b.host, cnt := b.cnt, lim := b.lim, drawn := b.drawn, deferred := b.deferred, i3c := b.i3c,
    sent := b.sent, pwr := { a.pwr with heldEv := b.pwr.heldEv } }

/-- The descriptor of a host command's row and what its chapter says of it; KEY_OWNER_ENROL, which alone writes the one-time
storage, is left out. -/
def hostSpec (i : Instr) : Option (Desc × CmdSpec) :=
  match i with
  | .timSourceSet d => some (d, timSourceSetSpec)
  | .timSet d => some (d, timSetSpec)
  | .timGuardSet d => some (d, timGuardSetSpec)
  | .timSlackAlarmSet d => some (d, timSlackAlarmSetSpec)
  | .pwrAvsSet d => some (d, pwrAvsSetSpec)
  | .synStage d => some (d, synStageSpec)
  | .synActivate d => some (d, synActivateSpec)
  | .synBootSet d => some (d, synBootSetSpec)
  | .hifRingCreate d => some (d, hifRingCreateSpec)
  | .hifRingDelete d => some (d, hifRingDeleteSpec)
  | .hifEvqConfig d => some (d, hifEvqConfigSpec)
  | .hifNop d => some (d, hifNopSpec)
  | .jrnExportSet d => some (d, jrnExportSetSpec)
  | .jrnMark d => some (d, jrnMarkSpec)
  | .jrnVerify d => some (d, jrnVerifySpec)
  | .keyWrite d => some (d, keyWriteSpec)
  | .keyClear d => some (d, keyClearSpec)
  | .keyErase d => some (d, keyEraseSpec)
  | .keyAlarmSet d => some (d, keyAlarmSetSpec)
  | .keyAlarmClear d => some (d, keyAlarmClearSpec)
  | .cipAuthSet d => some (d, cipAuthSetSpec)
  | .cipRocSet d => some (d, cipRocSetSpec)
  | .legDefine d => some (d, legDefineSpec)
  | .legModify d => some (d, legModifySpec)
  | .legArm d => some (d, legArmSpec)
  | .legDisarm d => some (d, legDisarmSpec)
  | .legDrain d => some (d, legDrainSpec)
  | .legDelete d => some (d, legDeleteSpec)
  | .legMove d => some (d, legMoveSpec)
  | .netPortSet d => some (d, netPortSetSpec)
  | .netStreamDefine d => some (d, netStreamDefineSpec)
  | .netStreamModify d => some (d, netStreamModifySpec)
  | .netStreamDelete d => some (d, netStreamDeleteSpec)
  | .modConfig d => some (d, modConfigSpec)
  | .modStart d => some (d, modStartSpec)
  | .modStop d => some (d, modStopSpec)
  | .modFeSet d => some (d, modFeSetSpec)
  | .modGainSet d => some (d, modGainSetSpec)
  | .modFirSet d => some (d, modFirSetSpec)
  | .modMaskSet d => some (d, modMaskSetSpec)
  | .modTxUnmute d => some (d, modTxUnmuteSpec)
  | .codContextOpen d => some (d, codContextOpenSpec)
  | .codContextModify d => some (d, codContextModifySpec)
  | .codStart d => some (d, codStartSpec)
  | .codStop d => some (d, codStopSpec)
  | .codContextClose d => some (d, codContextCloseSpec)
  | .codLayerSelect d => some (d, codLayerSelectSpec)
  | .codRefresh d => some (d, codRefreshSpec)
  | .fbpSnapshot d => some (d, fbpSnapshotSpec)
  | .codPair d => some (d, codPairSpec)
  | .mixBusDefine d => some (d, mixBusDefineSpec)
  | .mixBusDelete d => some (d, mixBusDeleteSpec)
  | .mixXpSet d => some (d, mixXpSetSpec)
  | .mixLegSet d => some (d, mixLegSetSpec)
  | .mixOverlaySet d => some (d, mixOverlaySetSpec)
  | .mixCommit d => some (d, mixCommitSpec)
  | .mixMeterSet d => some (d, mixMeterSetSpec)
  | .cmpDefine d => some (d, cmpDefineSpec)
  | .cmpStart d => some (d, cmpStartSpec)
  | .cmpStop d => some (d, cmpStopSpec)
  | .cmpDelete d => some (d, cmpDeleteSpec)
  | .cmpOutputSet d => some (d, cmpOutputSetSpec)
  | .cmpLayerSet d => some (d, cmpLayerSetSpec)
  | .cmpLayerColour d => some (d, cmpLayerColourSpec)
  | .cmpLayerStyle d => some (d, cmpLayerStyleSpec)
  | .cmpZlistSet d => some (d, cmpZlistSetSpec)
  | .cmpLut3dSet d => some (d, cmpLut3dSetSpec)
  | .cmpCommit d => some (d, cmpCommitSpec)
  | .cmpCursorSet d => some (d, cmpCursorSetSpec)
  | .cmpCursorImage d => some (d, cmpCursorImageSpec)
  | .cmpGlyphLoad d => some (d, cmpGlyphLoadSpec)
  | .cmpGuardSet d => some (d, cmpGuardSetSpec)
  | .cmpGuardClear d => some (d, cmpGuardClearSpec)
  | .cmpPair d => some (d, cmpPairSpec)
  | .encContextOpen d => some (d, encContextOpenSpec)
  | .encContextModify d => some (d, encContextModifySpec)
  | .encStart d => some (d, encStartSpec)
  | .encStop d => some (d, encStopSpec)
  | .encContextClose d => some (d, encContextCloseSpec)
  | .encRateSet d => some (d, encRateSetSpec)
  | .encKeyframe d => some (d, encKeyframeSpec)
  | .fwdSet d => some (d, fwdSetSpec)
  | .fwdDelete d => some (d, fwdDeleteSpec)
  | .fwdMemberAdd d => some (d, fwdMemberAddSpec)
  | .fwdMemberRemove d => some (d, fwdMemberRemoveSpec)
  | .netSendDefine d => some (d, netSendDefineSpec)
  | .netSendModify d => some (d, netSendModifySpec)
  | .netSendDelete d => some (d, netSendDeleteSpec)
  | .trfPortSet d => some (d, trfPortSetSpec)
  | .trfClassSet d => some (d, trfClassSetSpec)
  | .trfQueueSet d => some (d, trfQueueSetSpec)
  | .trfProfileSet d => some (d, trfProfileSetSpec)
  | .trfLineSet d => some (d, trfLineSetSpec)
  | .trfSampleSet d => some (d, trfSampleSetSpec)
  | .tskArbSet d => some (d, tskArbSetSpec)
  | .tskPrioSet d => some (d, tskPrioSetSpec)
  | .tskCancel d => some (d, tskCancelSpec)
  | .dspPortSet d => some (d, dspPortSetSpec)
  | .dspPortClear d => some (d, dspPortClearSpec)
  | .dspParamSet d => some (d, dspParamSetSpec)
  | .dspHalt d => some (d, dspHaltSpec)
  | .dspRestart d => some (d, dspRestartSpec)
  | .dspPair d => some (d, dspPairSpec)
  | .memRateSet d => some (d, memRateSetSpec)
  | .memEccSet d => some (d, memEccSetSpec)
  | .memActSet d => some (d, memActSetSpec)
  | .pwrEnter d => some (d, pwrEnterSpec)
  | .pwrWakeSet d => some (d, pwrWakeSetSpec)
  | .pairConfig d => some (d, pairConfigSpec)
  | .pairClaim d => some (d, pairClaimSpec)
  | .pairWake d => some (d, pairWakeSpec)
  | .pinLoopbackSet d => some (d, pinLoopbackSetSpec)
  | .pinGpioSet d => some (d, pinGpioSetSpec)
  | .pinRestore d => some (d, pinRestoreSpec)
  | .pinRefoutSet d => some (d, refoutSetSpec)
  | _ => none

/-- The canonical form of the memory behind BAR4: addresses strictly rising, and no byte listed that an unlisted address reads
as, 0. -/
def Memory.wf (w : List Host.Cell) : Bool := tSorted w && w.all fun c => c.2 != 0#8

/-- The byte at an address of it. -/
def Memory.byte (w : List Host.Cell) (a : Nat) : Byte := tget w a 0#8

/-- A step that answers a next state. -/
def Steps (s t : State) : Prop := step s = .next t

end Sys2Proof.Machine
end

