-- ==== Sys2Proof/Certificates/Slice0/Obligations.lean ====
section
/-!
DEFINITION. The statements for the provers: the queue and the step, what every row of the table does where it completes, the rules
of the shared operations, and what every step keeps.
-/

open Sys2Proof Sys2Proof.Machine

/-! ## Host link and journal -/

/-- R103: the host-queue commands create and delete rings, configure event queues, and do nothing. -/
def Obligations.HostQueueCommandsComplete : Prop :=
  Completes .hifRingCreate hifRingCreateSpec
    (fun d m => (createRing d m, { reply stOK 0 1 with before := 0 })) ∧
  (∀ d m, qKind d = 0 → tget? (getFn (createRing d m) (qFn d m)).sub (qNo d) =
    some { fault := false, base := pay d 0 8, depth := pay d 8 4, cq := pay d 20 2, weight := pay d 28 1, fetched := 0, waiting := [] }) ∧
  (∀ d m, qKind d ≠ 0 → tget? (getFn (createRing d m) (qFn d m)).cmp (qNo d) =
    some { base := pay d 0 8, depth := pay d 8 4, writeBack := pay d 12 8, vector := pay d 22 2, coalCount := pay d 24 2,
           coalUs := pay d 26 2, written := 0, returned := 0, unsignalled := 0, firstAt := 0, backlog := [] }) ∧
  Completes .hifRingDelete hifRingDeleteSpec
    (fun d m => (deleteRing d m, { reply stOK 0 0 with before := queueState d m })) ∧
  (∀ d m, qKind d = 0 → tget? (getFn (deleteRing d m) (qFn d m)).sub (qNo d) = none) ∧
  (∀ d m, qKind d ≠ 0 → tget? (getFn (deleteRing d m) (qFn d m)).cmp (qNo d) = none) ∧
  Completes .hifEvqConfig hifEvqConfigSpec
    (fun d m =>
      (setEvq (qFn d m) (qNo d) { getEvq m (qFn d m) (qNo d) with
          classMask := pay d 0 4, dieMask := pay d 4 1, threshold := pay d 5 1, intLevel := pay d 6 1, vector := pay d 8 2 } m,
       reply stOK 0 1)) ∧
  Completes .hifNop hifNopSpec (fun d m => (m, reply stOK 0 (queueState d m)))

/-- R85 and R86: the direct port and the doorbells. -/
def Obligations.HostPortsComplete : Prop :=
  (∀ s f d, barOpen s.m = true → fnExists s.m f = true → (getFn s.m f).directOut < 16 →
    exec (.directSubmitWrite f d) s = .next (after s
      (setFn f { getFn s.m f with directOut := (getFn s.m f).directOut + 1, directWait := (getFn s.m f).directWait ++ [d] } s.m))) ∧
  (∀ s f d, barOpen s.m = true → fnExists s.m f = true → 16 ≤ (getFn s.m f).directOut →
    exec (.directSubmitWrite f d) s = .next (after s (count .fnDirectDrop f 0 0 s.m))) ∧
  (∀ s f c r, barOpen s.m = true → fnExists s.m f = true → (getFn s.m f).directFifo = c :: r →
    exec (.directCompletionPop f) s = .next (after s
      (setFn f { getFn s.m f with directFifo := r, directOut := (getFn s.m f).directOut - 1,
                                  directHead := r.headD (getFn s.m f).directHead } s.m))) ∧
  (∀ s f r cnt ds x, barOpen s.m = true → fnExists s.m f = true → tget? (getFn s.m f).sub r = some x → x.fault = false →
    ds.length = (cnt + 2 ^ 32 - x.fetched) % 2 ^ 32 → ds.length ≤ x.depth →
    exec (.submissionDoorbell f r cnt ds) s = .next (after s
      (setFn f { getFn s.m f with
        sub := tset (getFn s.m f).sub r { x with fetched := (x.fetched + ds.length) % 2 ^ 32, waiting := x.waiting ++ ds } } s.m))) ∧
  (∀ s f r cnt ds, barOpen s.m = true → fnExists s.m f = true → tget? (getFn s.m f).sub r = none →
    exec (.submissionDoorbell f r cnt ds) s = .next (after s (count .fnBadDoorbell f 0 0 s.m))) ∧
  (∀ s f q cnt x, barOpen s.m = true → fnExists s.m f = true → tget? (getFn s.m f).cmp q = some x →
    (cnt + 2 ^ 32 - x.returned % 2 ^ 32) % 2 ^ 32 ≤ x.written - x.returned →
    exec (.completionHeadDoorbell f q cnt) s = .next (after s
      (cqDrain f q x.backlog.length (setFn f { getFn s.m f with
        cmp := tset (getFn s.m f).cmp q { x with returned := x.returned + (cnt + 2 ^ 32 - x.returned % 2 ^ 32) % 2 ^ 32 } } s.m)))) ∧
  (∀ s f r x, barOpen s.m = true → tget? (getFn s.m f).sub r = some x → x.fault = false →
    exec (.descriptorFetchFault f r) s = .next (after s
      (announce 8 0x0601 1 (ringOid f 0 r) [.u 1 f, .u 2 r, .u 1 1] 0
        (count .fnFetchFault f 0 0 (setFn f { getFn s.m f with sub := tset (getFn s.m f).sub r { x with fault := true } } s.m))))) ∧
  (∀ s f q x, tget? (getFn s.m f).cmp q = some x → x.unsignalled ≠ 0 → s.m.pwr.state < 3 →
    x.firstAt + x.coalUs * 1000 ≤ s.m.vault.mono →
    exec (.completionCoalesceTimeout f q) s = .next (after s
      (msixRaise f x.vector (setFn f { getFn s.m f with cmp := tset (getFn s.m f).cmp q { x with unsignalled := 0 } } s.m)))) ∧
  (∀ s f v, fnExists s.m f = true → v < vectorsOf f → tget s.m.host.msix (msixKey f v) (true, false) = (true, true) →
    exec (.msixVectorUnmask f v) s = .next (after s
      (emit (.msix f v) { s.m with host.msix := tset s.m.host.msix (msixKey f v) (false, false) })))

/-- R101: the event queue's pop port gives the oldest record of the highest priority, and underrun is set and cleared. -/
def Obligations.EventQueuePortsComplete : Prop :=
  (∀ s f q r, evqPort s.m f q = true → evqBest (getEvq s.m f q).recs = some r →
    exec (.evqPop f q) s = .next (after s
      (setEvq f q { getEvq s.m f q with recs := evqPopRecs (getEvq s.m f q).recs, head := r } s.m))) ∧
  (∀ s f q, evqPort s.m f q = true → (getEvq s.m f q).recs = [] →
    exec (.evqPop f q) s = .next (after s (setEvq f q { getEvq s.m f q with underrun := true } s.m))) ∧
  (∀ s f q v, evqPort s.m f q = true → bit v 30 = true →
    exec (.evqUnderrunClear f q v) s = .next (after s (setEvq f q { getEvq s.m f q with underrun := false } s.m))) ∧
  (∀ (recs : List EvRec) r, evqBest recs = some r →
    r ∈ recs ∧ (∀ e ∈ recs, r.level ≤ e.level) ∧ (evqPopRecs recs).length + 1 = recs.length)

/-- R463 to R466 and R470 to R473: BAR accesses; R426 to R428: those to the registers of Stem mode. -/
def Obligations.RegisterAccessesComplete : Prop :=
  (∀ s fn f v, barOpen s.m = true → f < 64 → fn = maskWriter f →
    exec (.hifEvqIntMaskWrite fn f v) s = .next (after s
      ((List.range (imgGrant (img s.m) f).evq).foldl
        (fun x q => maskCleared f q (tget s.m.host.evqMask f 0) (v % 2 ^ (imgGrant (img s.m) f).evq) x)
        { s.m with host.evqMask := tset s.m.host.evqMask f (v % 2 ^ (imgGrant (img s.m) f).evq) }))) ∧
  (∀ s fn f v, barOpen s.m = true → (63 < f ∨ fn ≠ maskWriter f) →
    exec (.hifEvqIntMaskWrite fn f v) s = .next (after s (noteAccess .ignoredWrites fn 0 (0xB00000 + 8 * f) s.m))) ∧
  (∀ s, s.m.pwr.state < 3 → s.m.start.phase ≠ .starting →
    exec .timNowNsRead s = .next (after s
      (emit (.read [s.m.dev % 1000000000])
        { s.m with tim.latchSec := s.m.dev / 1000000000 % 2 ^ 48, tim.latchMono := s.m.vault.mono % 2 ^ 64 }))) ∧
  (∀ s fn r, wideDark s.m r = false → r ≠ .globalStatus →
    exec (.wideRegisterLowRead fn r) s = .next (after s
      (emit (.read [wideValue s.m r % 2 ^ 32])
        (setFn fn { getFn s.m fn with latch := some (r, wideValue s.m r / 2 ^ 32 % 2 ^ 32) } s.m)))) ∧
  (∀ s id, s.m.pwr.state < 3 → s.m.start.phase ≠ .starting → windowDark s.m id = false →
    exec (.rcFieldRead id) s = .next (after s (emit (.read [cntGet s.m id]) { s.m with cnt := cntPut s.m.cnt id 0 }))) ∧
  (∀ (c : List (CntId × Nat)) id n, cntFind (cntPut c id n) id = n) ∧
  (∀ s fn off, fn ≤ 2 → s.m.pwr.state < 3 → s.m.start.phase ≠ .starting →
    exec (.barAccessBad fn 0 off true) s = .next (after s
      { count .badAccess 0 0 0 s.m with host.lastFn := fn, host.lastBar := 0, host.lastOffset := off }) ∧
    exec (.barAccessBad fn 0 off false) s = .next (after s
      { count .badAccess 0 0 0 (emit (.read [0]) s.m) with host.lastFn := fn, host.lastBar := 0, host.lastOffset := off })) ∧
  (∀ s off, s.m.pwr.state < 3 → s.m.start.phase ≠ .starting →
    exec (.barAccessBad 0 4 off true) s = .next (after s
      { count .badAccess 0 0 0 s.m with host.lastFn := 0, host.lastBar := 1, host.lastOffset := off })) ∧
  (∀ s fn off, s.m.pwr.state < 3 → s.m.start.phase = .ready →
    exec (.barAccessBad fn 2 off true) s = .next (after s (count .fnBadWrite fn 0 0 s.m))) ∧
  (∀ s fn off v, fn ≤ 2 → s.m.pwr.state < 3 → s.m.start.phase = .ready →
    (off < 0xB00000 ∨ (0xB00200 ≤ off ∧ off < 0xB01000) ∨ 0xB01010 ≤ off) →
    exec (.barWriteIgnored fn 0 off v) s = .next (after s
      { count .ignoredWrites 0 0 0 s.m with host.lastFn := fn, host.lastBar := 0, host.lastOffset := off })) ∧
  (∀ s fn off v, s.m.pwr.state < 3 → s.m.start.phase = .ready → (off < 0x8000 ∨ 0xC000 ≤ off) →
    exec (.barWriteIgnored fn 2 off v) s = .next (after s (count .fnBadWrite fn 0 0 s.m))) ∧
  (∀ s off v, s.m.pwr.state < 3 → s.m.start.phase = .ready → 0xB01000 ≤ off → off < 0xB01010 → off % 4 = 0 →
    exec (.barWriteIgnored 2 0 off v) s = .next (after s
      { s.m with host.scratch := listSet s.m.host.scratch ((off - 0xB01000) / 4) (v % 2 ^ 32) })) ∧
  (∀ s mib, mib ∈ [256, 512, 1024, 2048, 4096] →
    exec (.bar4Resize mib) s = .next (after s { s.m with host.bar4Mib := mib })) ∧
  (∀ s f, s.m.start.phase = .ready → fnExists s.m f = true →
    exec (.flr f) s = .next (after s (resetFn f 0 s.m))) ∧
  (∀ s n i o, s.m.start.phase = .stem → s.m.start.flashOp = none →
    ((i = .stmFlashErase ∧ o = { op := 1, addr := s.m.start.flashAddr, len := 0 }) ∨
     (i = .stmFlashProgram n ∧ o = { op := 2, addr := s.m.start.flashAddr, len := n % 2 ^ 24 }) ∨
     (i = .stmFlashRead n ∧ o = { op := 3, addr := s.m.start.flashAddr, len := n % 2 ^ 24 }) ∨
     (i = .stmFlashVerify ∧ o = { op := 4, addr := s.m.start.flashAddr, len := 0 }) ∨
     (i = .stmBootRecordWrite ∧ o = { op := 5, addr := s.m.start.flashAddr, len := 0 })) →
    ∃ t, exec i s = .next t ∧ t.pending = s.pending ∧ t.m.start.flashOp = some o ∧ t.m.syn = s.m.syn ∧ t.m.jrn = s.m.jrn) ∧
  (∀ s ok i data o, s.m.start.flashOp = some o →
    ∃ t, exec (.stmFlashOpDone ok i data) s = .next t ∧ t.pending = s.pending ∧ t.m.start.flashOp = none ∧
      t.m.start.flashOutcome = (flashOutcome o ok s.m).1 ∧
      t.m.start.flashRule = (if (flashOutcome o ok s.m).1 = 4 then (flashOutcome o ok s.m).2 else 0)) ∧
  (∀ s, s.m.start.phase = .stem →
    ∃ t, exec .stmDebugUnlock s = .next t ∧ t.pending = s.pending ∧
      t.m.start.debugUnlocked = (unlockOk s.m || s.m.start.debugUnlocked)) ∧
  (∀ s, ∃ t, exec .jtagCoreAccess s = .next t ∧ t.pending = s.pending ∧
    t.m = { s.m with sent := .read [b2n (s.m.start.phase == .stem && s.m.start.debugUnlocked)] :: s.m.sent })

/-- R122 to R124: the journal's commands. -/
def Obligations.JournalCommandsComplete : Prop :=
  CompletesIf .jrnExportSet jrnExportSetSpec (fun d _ => payBit d 0 0 = true)
    (fun d m =>
      (exportSet (exportIdx d)
          { enabled := true, full := false, next := if payBit d 0 1 then jrnTail m.jrn else m.jrn.head, depth := pay d 4 4,
            base := pay d 8 8, writeBack := pay d 16 8, consumedAt := pay d 24 8, mask := pay d 32 4, vector := pay d 36 2,
            intCount := pay d 38 2, written := 0, consumed := 0, unsignalled := 0, firstAt := 0, lastPoll := 0 } m,
       reply stOK 0 0xFF)) ∧
  CompletesIf .jrnExportSet jrnExportSetSpec (fun d _ => payBit d 0 0 = false)
    (fun d m =>
      ({ m with jrn.exports := tupd m.jrn.exports (exportIdx d) fun e => { e with enabled := false, full := false } },
       reply stOK 0 0xFF)) ∧
  Completes .jrnMark jrnMarkSpec (fun d m => (m, { reply stOK 0 0xFF with plain := some (0, pay d 0 8) })) ∧
  (∀ s d x m1, Starts jrnVerifySpec d s.m x m1 →
    exec (.jrnVerify d) s = .next (after s
      { m1 with jrn.verify := some (x, pay x 0 8, pay x 8 4), deferred := m1.deferred ++ [x] })) ∧
  (∀ s damaged d first n, s.m.jrn.verify = some (d, first, n) → firstMismatch s.m.jrn damaged first n = none →
    exec (.jrnVerifyDone damaged) s = .next (after s
      (finish d false (reply stOK 0 0xFF) { s.m with jrn.verify := none }))) ∧
  (∀ s damaged d first n bad, s.m.jrn.verify = some (d, first, n) → firstMismatch s.m.jrn damaged first n = some bad →
    exec (.jrnVerifyDone damaged) s = .next (after s
      (finish d false (reply stOK (1 + (bad - first) * 2 ^ 16) 0xFF)
        (announce jrnUnit 0x0403 0 jrnOid [.u 8 bad] 0 { s.m with jrn.verify := none }))))

/-- R117, R120 and R123: the journal's own rows. -/
def Obligations.JournalRowsComplete : Prop :=
  (∀ s r rest, s.m.jrn.mirrorFault = false → s.m.jrn.backlog = r :: rest →
    exec (.jrnMirrorProgramDone true) s = .next (after s
      (mirrorSpace { s.m with jrn := mirrorProgram r { s.m.jrn with backlog := rest, retried := false } }))) ∧
  (∀ s r rest, s.m.jrn.mirrorFault = false → s.m.jrn.backlog = r :: rest → s.m.jrn.retried = false →
    exec (.jrnMirrorProgramDone false) s = .next (after s { s.m with jrn.retried := true })) ∧
  (∀ s r rest, s.m.jrn.mirrorFault = false → s.m.jrn.backlog = r :: rest → s.m.jrn.retried = true →
    exec (.jrnMirrorProgramDone false) s = .next (after s
      (announce jrnUnit 0x0402 1 jrnOid [.u 1 0, .u 4 (s.m.jrn.backlog.length + s.m.jrn.unmirrored)] 0
        { s.m with jrn.mirrorFault := true, jrn.backlog := [], jrn.unmirrored := 0 }))) ∧
  (∀ s, s.m.jrn.anchors ≠ [] → s.m.jrn.lastAnchor + 3600 * nsPerS ≤ s.m.vault.mono →
    exec .jrnAnchorTimer s = .next (after s (jrnAnchor s.m))) ∧
  (∀ s q n e, exportGet s.m q = some e → e.full = true → s.m.pwr.state < 3 → (e.lastPoll = 0 ∨ e.lastPoll + 10000 ≤ s.m.vault.mono) →
    exec (.exportConsumedPoll q n) s = .next (after s
      (exportAll (exportSet q { e with consumed := n % 2 ^ 32, full := false, lastPoll := s.m.vault.mono } s.m)))) ∧
  (∀ s q e, exportGet s.m q = some e → e.unsignalled ≠ 0 → s.m.pwr.state < 3 → e.firstAt + 1000000 ≤ s.m.vault.mono →
    exec (.exportInterruptTimeout q) s = .next (after s (msixRaise 1 e.vector (exportSet q { e with unsignalled := 0 } s.m))))

/-- R37, R46, R53, R55, R59 and R483: the commands of the time base, the voltage loop and the reference outputs. -/
def Obligations.TimeCommandsComplete : Prop :=
  Completes .timSourceSet timSourceSetSpec (fun d m => (applySource d m, reply stOK 0 0xFF)) ∧
  CompletesIf .timSet timSetSpec (fun _ m => m.tim.mode = 2)
    (fun d m => (timeStep (pay d 0 6 * 1000000000 + pay d 6 4) m, reply stOK 0 0xFF)) ∧
  (∀ s d x m1, Starts timSetSpec d s.m x m1 → m1.tim.mode = 1 →
    exec (.timSet d) s = .next (after s
      { m1 with
        tim.setWait := some (pay x 0 6 * 1000000000 + pay x 6 4, m1.vault.mono),
        pend := m1.pend ++ [{ d := x, due := 0, kind := .instant, late := false, order := m1.host.orders, waits := true, before := 0xFF }],
        host.orders := m1.host.orders + 1, deferred := m1.deferred ++ [x] })) ∧
  Completes .timGuardSet timGuardSetSpec
    (fun d m => ({ m with tim.guards := listSet m.tim.guards (pay d 0 1) (pay d 4 4) }, reply stOK 0 0xFF)) ∧
  Completes .timSlackAlarmSet timSlackAlarmSetSpec
    (fun d m =>
      ({ m with pace.alarms := tset m.pace.alarms (pay d 0 1 * 8 + pay d 1 1) (payBit d 2 0, pay d 4 2) }, reply stOK 0 0xFF)) ∧
  Completes .pwrAvsSet pwrAvsSetSpec (fun d m => (applyAvsSet d m, reply stOK 0 0xFF)) ∧
  Completes .pinRefoutSet refoutSetSpec
    (fun d m =>
      (refIdle { m with refout := { enable := pay d 0 1, refRate := pay d 1 1, width := pay d 2 1, polarity := payBit d 3 0,
                                    ltcRate := pay d 4 1, offset := payS d 8 4, bytes := pay d 0 8 } },
       { reply stOK 0 0xFF with plain := some (m.refout.bytes, pay d 0 8) }))

/-- R38 to R41 and R59: PTP messages, reference pulses and the end of a TIM_SET's wait. -/
def Obligations.TimeRowsComplete : Prop :=
  (∀ s port diff, s.m.tim.mode = 0 → s.m.tim.activePort = port → port ≠ 0xFF → ptpDeaf s.m port = false →
    ∃ t, exec (.ptpSyncReceived port diff) s = .next (after s t) ∧
      t = { (lockCount (decide ((diff - s.m.tim.delay).natAbs ≤ 1000)) 16
              (correctOffset (diff - s.m.tim.delay) { s.m with tim.offset := satS 32 (diff - s.m.tim.delay) })) with
            tim.ptpState := t.tim.ptpState } ∧
      (t.tim.ptpState = if t.tim.quality = 2 then 3 else 2)) ∧
  (∀ s port delay, s.m.tim.mode = 0 → s.m.tim.activePort = port → port ≠ 0xFF → ptpDeaf s.m port = false →
    exec (.ptpDelayRespReceived port delay) s = .next (after s { s.m with tim.delay := delay })) ∧
  (∀ s port attrs sender q iv, s.m.tim.mode = 0 → ptpDeaf s.m port = false → (port = s.m.tim.portA ∨ port = s.m.tim.portB) →
    port ≠ 0xFF →
    exec (.ptpAnnounceReceived port attrs sender q iv) s = .next (after s (ptpAnnounce port attrs sender q iv s.m))) ∧
  (∀ s port, s.m.tim.mode = 0 → port = s.m.tim.portA → announceDue s.m s.m.tim.masterA = true →
    exec (.ptpAnnounceTimeout port) s = .next (after s
      (let y := reselect (gmInUse s.m.tim) { s.m with tim.masterA := none }
       if y.tim.activePort = 0xFF then sourceLost y else y))) ∧
  (∀ s falling w d, s.m.pwr.state < 3 → s.m.tim.refEn = true → (refPresence falling s.m).tim.mode = 1 →
    (refPresence falling s.m).tim.setWait = some w → timSetWaiting (refPresence falling s.m) = some d →
    exec (.refFrameEdge falling) s = .next (after s
      (endTimSet d stOK (timeStep w.1 { refPresence falling s.m with tim.setDone := true, tim.lockRun := 0 })))) ∧
  (∀ s t, s.m.tim.refLast = some t → s.m.tim.refEn = true → s.m.pwr.state < 3 → refPeriod s.m.tim ≠ 0 →
    t * 100 + refPeriod s.m.tim * 100 * (s.m.tim.refMissed + 1) + refPeriod s.m.tim ≤ s.m.vault.mono * 100 → s.m.tim.refMissed < 3 →
    exec .refFrameMissed s = .next (after s { s.m with tim.refMissed := s.m.tim.refMissed + 1, tim.refPulses := 0 })) ∧
  (∀ s ppb, s.m.pwr.state < 3 → decide (ppb.natAbs ≤ 10000) ≠ s.m.tim.tenPresent →
    exec (.ref10mChange ppb) s = .next (after s
      (refChange 1 (decide (ppb.natAbs ≤ 10000)) false
        { s.m with tim.tenPpb := ppb, tim.tenPresent := decide (ppb.natAbs ≤ 10000) }))) ∧
  (∀ s w d, s.m.tim.setWait = some w → timSetWaiting s.m = some d → w.2 + 10000000000 ≤ s.m.vault.mono →
    exec .timSetTimeout s = .next (after s (endTimSet d stTimeout s.m)))

/-- R51 to R56: meters, slack and the voltage loop. -/
def Obligations.PaceRowsComplete : Prop :=
  (∀ s, tickOpen s.m 4 10000000 = true → avsRuns s.m = false →
    exec .avsLoopTick s = .next (after s
      (tickMark 4 10000000 { s.m with pace.avsRatio := none, pace.anyLate := false, avs.ratioMin := ratioShown s.m.pace.avsRatio }))) ∧
  (∀ s, tickOpen s.m 4 10000000 = true → avsRuns s.m = true →
    exec .avsLoopTick s = .next (after s
      (avsDecide s.m.pace.anyLate s.m.pace.avsRatio
        (tickMark 4 10000000 { s.m with pace.avsRatio := none, pace.anyLate := false, avs.ratioMin := ratioShown s.m.pace.avsRatio })))) ∧
  (∀ s t, s.m.avs.sentAt = some t → t + 1000000 ≤ s.m.vault.mono → s.m.avs.acksMissed < 2 →
    exec .avsAckTimeout s = .next (after s
      (emit (.avs s.m.avs.requestMv) { s.m with avs.acksMissed := s.m.avs.acksMissed + 1, avs.sentAt := some s.m.vault.mono }))) ∧
  (∀ s t, s.m.avs.sentAt = some t → t + 1000000 ≤ s.m.vault.mono → 2 ≤ s.m.avs.acksMissed →
    exec .avsAckTimeout s = .next (after s
      (announce avsUnit 0x0301 0 (infraOid 0) [.u 2 s.m.avs.requestMv] 0
        { s.m with avs.fault := true, avs.acksMissed := 0, avs.sentAt := none }))) ∧
  (∀ s (ms : PaceMeters), tickOpen s.m 5 1000000 = true → s.m.pwr.state < 3 →
    exec (.paceMeterInterval ms) s = .next (after s
      (tickMark 5 1000000 { s.m with
        fold := tmap s.m.fold (linkLoad ms.loads),
        pace.pace :=
          (ms.units.filter fun x => decide (x.1 ≤ s.m.part.media) && decide (1 ≤ x.1) && decide (x.2.1 < 49)).foldl
            (fun t x => tset t (x.1 * 64 + x.2.1) (paceShown x.2.1 x.2.2.1 x.2.2.2)) [] }))) ∧
  (∀ s, tickOpen s.m 3 10000000 = true → s.m.pwr.state < 3 → s.m.pace.accRatio = [] →
    exec .slackInterval s = .next (after s
      (tickMark 3 10000000 { s.m with pace.slackMin := s.m.pace.accSlack, pace.accSlack := [], pace.accRatio := [] })))

/-- R46, R47, R237, R261, R279 and R483: a window starts for the unit it belongs to, and its deadline strobes it. -/
def Obligations.WindowRowsComplete : Prop :=
  (∀ s die i, exec (.windowStart 0 die i) s = .next (after s (mixWindow die s.m))) ∧
  (∀ s die i, exec (.windowStart 1 die i) s = .next (after s (codWindow (mkKey die i) s.m))) ∧
  (∀ s die i, exec (.windowStart 2 die i) s = .next (after s (cmpWindow (mkKey die i) s.m))) ∧
  (∀ s die i, exec (.windowStart 3 die i) s = .next (after s (encWindow (mkKey die i) s.m))) ∧
  (∀ s die i x n, getStrm s.m (mkKey die i) = some x → (x.kind = 2 ∨ x.kind = 6) →
    x.sync.window < boundaryNo (formatWindow x.vfmt) s.m.dev → x.sync.fresh = some n → x.sync.current = none →
    exec (.windowStart 4 die i) s = .next (after s
      (updStream (mkKey die i)
        (fun y => { y with sync := { window := boundaryNo (formatWindow x.vfmt) s.m.dev, fresh := none, current := some n } }) s.m))) ∧
  (∀ s die k, bit s.m.refout.enable 0 = true → refDriving s.m = true →
    winOpen (refGrid s.m.refout.refRate) (tget? s.m.ticks 6) s.m = some k →
    exec (.windowStart 5 die 0) s = .next (after s
      (winMark (refGrid s.m.refout.refRate) k
        (emit (.net 13 0 s.m.refout.width [((b2n (!s.m.refout.polarity) : Nat) : Int)]) { s.m with ticks := tset s.m.ticks 6 k })))) ∧
  (∀ s die i w, (getMixer s.m die).window = some w → (getMixer s.m die).done = false → (getMixer s.m die).late = false →
    (getMixer s.m die).deadline ≤ s.m.dev →
    exec (.deadlineStrobe 0 die i) s = .next (after s
      (deadlineMiss (if (getMixer s.m die).len = 250000 then 1 else 0) (infraOid die) w
        (((getMixer s.m die).deadline : Int) - s.m.dev)
        (countLate die 47 (count .mixCnt die 0 0 (setMixer die { getMixer s.m die with late := true } s.m)))))) ∧
  (∀ s die i c, getCtx s.m (mkKey die i) = some c → lateJobs c s.m.dev = [] → exec (.deadlineStrobe 1 die i) s = .next s) ∧
  (∀ s die i, exec (.deadlineStrobe 1 die i) s = .next (after s (decodeStrobe (mkKey die i) s.m))) ∧
  (∀ s die i c f dl, getComp s.m (mkKey die i) = some c → c.job = some (f, dl) → dl ≤ s.m.dev →
    exec (.deadlineStrobe 2 die i) s = .next (after s (cmpAbort (mkKey die i) s.m))) ∧
  (∀ s die i e j, getEnc s.m (mkKey die i) = some e → e.job = some j → j.deadline ≤ s.m.dev →
    exec (.deadlineStrobe 3 die i) s = .next (after s
      (noteOut (.encLate (mkKey die i)) (encFinish (mkKey die i) (freeRows e s.m) { s.m with drawn := s.m.drawn + 4096 }))))

/-! ## Tasks, keys, arrivals and departures -/

/-- R99, R322, R323 and R329 to R333: the task commands, the arbiters, and the end of a park. -/
def Obligations.TaskRowsComplete : Prop :=
  Completes .tskArbSet tskArbSetSpec
    (fun d m => ({ m with tsk.dieEqual := pay d 0 1 == 1 },
      { reply stOK 0 0xFF with plain := some (b2n m.tsk.dieEqual, pay d 0 1) })) ∧
  Completes .tskPrioSet tskPrioSetSpec
    (fun d m => (setLevel (oidKey (oid d)) (pay d 0 1) m,
      { reply stOK 0 (streamSt m (oidKey (oid d))) with plain := some (streamLevel m (oidKey (oid d)), pay d 0 1) })) ∧
  CompletesIf .tskCancel tskCancelSpec (fun d m => ∃ p, cancelPend d m = some p)
    (fun d m => ((match cancelPend d m with | some p => cancelHeld p m | none => m), reply stOK 0 0xFF)) ∧
  (∀ d m p, cancelPend d m = some p → p ∈ m.pend ∧
    (∃ f r c, p.d.path = .host f r c ∧ f = pathFn m d.path ∧ tagN p.d = pay d 0 4 ∧ (payBit d 6 0 = true ∨ r = pay d 4 2)) ∧
    (∀ q ∈ m.pend, (∃ f r c, q.d.path = .host f r c ∧ f = pathFn m d.path ∧ tagN q.d = pay d 0 4 ∧
      (payBit d 6 0 = true ∨ r = pay d 4 2)) → p.order ≤ q.order)) ∧
  (∀ s, (∀ t ∈ s.m.tsk.parked, (s.m.pend.find? fun p => p.order == t.2.2) = none) →
    exec .parkedTaskDue s = .next (after s { s.m with tsk.parked := [] })) ∧
  (∀ s r reqs a, r ≤ 10 → (r < 4 ∨ r - 3 ≤ s.m.part.media) → tget? s.m.tsk.arbs r = some a → a.dieEqual = s.m.tsk.dieEqual →
    exec (.arbiterRound r reqs) s = .next (after s
      ((List.range 8).foldl (fun x d => arbVisit r ((reqs.find? fun q => q.die == d).getD { die := d, units := [] }) x)
        { s.m with tsk.arbs := tset s.m.tsk.arbs r a }))) ∧
  (∀ s p sp, s.m.start.phase = .ready → s.m.pwr.state < 3 → dueFirst s.m.dev s.m.pend = some p → specOf p.d.opcode = some sp →
    exec .timedCommandApply s = .next (after s (applyPend sp p s.m)))

/-- R145 to R165: the key store's commands and the grace and cache rows. -/
def Obligations.KeyRowsComplete : Prop :=
  Completes .keyWrite keyWriteSpec
    (fun d m =>
      let k1 := slotWrite d m.vault.mono (getSlot m (slotIdx d))
      (sweepSlot (slotIdx d) (setSlot (slotIdx d) k1 m),
       { status := stOK, detail := 0, plain := some (slotPlain (getSlot m (slotIdx d)), slotPlain k1),
         before := slotCode (getSlot m (slotIdx d)), after := 1 })) ∧
  (∀ d now k, k.counter ≤ 65535 →
    (slotWrite d now k).counter = (if k.counter = 65535 then 1 else k.counter + 1) ∧
    (slotWrite d now k).cur.map KeyGen.gen = some (slotWrite d now k).counter) ∧
  Completes .keyClear keyClearSpec
    (fun d m =>
      let k := getSlot m (slotIdx d)
      let m1 := sweepSlot (slotIdx d) (setSlot (slotIdx d) { k with cur := none, old := k.old ++ k.cur.toList } m)
      (m1, { status := stOK, detail := 0, plain := some (slotPlain k, slotPlain (getSlot m1 (slotIdx d))), before := slotCode k,
             after := slotCode (getSlot m1 (slotIdx d)) })) ∧
  CompletesIf .keyErase keyEraseSpec (fun d _ => payBit d 0 0 = false)
    (fun d m =>
      (eraseSlot (slotIdx d) m,
       { status := stOK, detail := 0, plain := some (slotPlain (getSlot m (slotIdx d)), 0), before := slotCode (getSlot m (slotIdx d)),
         after := 0 })) ∧
  Completes .keyAlarmSet keyAlarmSetSpec (fun d m => (applyAlarmSet d m, reply stOK 0 0xFF)) ∧
  Completes .keyAlarmClear keyAlarmClearSpec
    (fun _ m => (emit (.pin 0x100 0 true) { m with key.latched := 0, key.alarmLow := false }, reply stOK 0 0xFF)) ∧
  Completes .cipAuthSet cipAuthSetSpec
    (fun d m => ({ m with auth := tset m.auth (legOfD d) { getAuth m (legOfD d) with f := pay d 0 2, t := pay d 2 2 } },
      reply stOK 0 (legState d m))) ∧
  Completes .cipRocSet cipRocSetSpec
    (fun d m =>
      (updSend (oidKey (oid d)) (fun s => { s with roc := pay d 0 4 })
        (updStream (oidKey (oid d)) (fun s => { s with roc := pay d 0 4, seqHigh := none }) m), reply stOK 0 (streamSt m (oidKey (oid d))))) ∧
  (∀ s die slot gen, (required154 s.m die).contains (slot, gen) = true →
    exec (.keyCacheLoaded die slot gen) s = .next (after s
      (serveDie die { cacheLoad die slot gen s.m with
        key.ops := (cacheLoad die slot gen s.m).key.ops.map fun o =>
          if o.die == die && o.slot == slot && o.gen == gen then { o with waiting := false } else o }))) ∧
  (∀ s slot p, (getSlot s.m slot).prev = some p → p.2 ≤ s.m.vault.mono →
    exec (.graceEnd slot) s = .next (after s
      (sweepSlot slot (setSlot slot { getSlot s.m slot with prev := none, old := (getSlot s.m slot).old ++ [p.1] } s.m)))) ∧
  (∀ s id o f, findOp s.m id = some o → o.st = 1 → o.rx = false → o.report = none → flowOfOp s.m o.die o.id = some f →
    exec (.cipherOpComplete id) s = .next (after s
      (endOp o (egressFlow o.die f (setFlow o.die f (flowMark (fun i => i.op == some o.id) 1 (getFlow s.m o.die f)) s.m))))) ∧
  (∀ s id ok pok o g, findOp s.m id = some o → o.st ≠ 0 → o.rx = true → opGen s.m o = some g → bit g.halves 0 = true →
    exec (.authResult id ok pok) s = .next (after s (releaseAll o.stream (authEnds o ok pok s.m))))

/-- R133 to R140: what arrives, and the timers of receive streams and legs. -/
def Obligations.ArrivalRowsComplete : Prop :=
  Completes .netPortSet netPortSetSpec
    (fun d m =>
      (setPort (trfPort d) { getPort m (trfPort d) with
        mac := pay d 2 6, ip4 := pay d 8 4, ip6en := payBit d 1 0, ip6 := pay d 16 16, mtu := pay d 12 2 } m, reply stOK 0 0xFF)) ∧
  (∀ s (f : Frame) p, p = getPort s.m (f.die * 16 + f.lane) → f.lane < 8 → ethPort s.m (f.die * 16 + f.lane) = true →
    dieRun s.m f.die = true → s.m.start.phase = .ready → inRun s.m = true → p.linkUp = true →
    laneMode s.m (f.die * 16 + f.lane) ≠ 3 → f.fcsOk = true → 64 ≤ f.length →
    f.length ≤ p.mtu + 18 + (if f.vlan.isSome then 4 else 0) →
    (f.etype ≤ 1 → exec (.ethFrameReceive f) s = .next (after s (ipStages (f.die * 16 + f.lane) p f s.m))) ∧
    (f.etype = 2 → exec (.ethFrameReceive f) s = .next s) ∧
    (f.etype = 3 → f.dst = p.ip4 →
      exec (.ethFrameReceive f) s = .next (after s (wireNet (f.die * 16 + f.lane) 6 f.die f.lane [(p.ip4 : Int), (p.mac : Int)] s.m))) ∧
    (f.etype = 4 → p.ip6en = true → f.dst = p.ip6 →
      exec (.ethFrameReceive f) s = .next (after s (wireNet (f.die * 16 + f.lane) 7 f.die f.lane [(p.ip6 : Int), (p.mac : Int)] s.m))) ∧
    (f.etype = 5 → exec (.ethFrameReceive f) s = .next (after s (countPort (f.die * 16 + f.lane) 4 s.m))) ∧
    (6 ≤ f.etype → exec (.ethFrameReceive f) s = .next (after s (countPort (f.die * 16 + f.lane) 0 s.m)))) ∧
  (∀ s, exec .policerRefill s = .next (after s
    { s.m with net.streams := s.m.net.streams.map fun kv => (kv.1, strmRefill (s.m.dev / 1000) kv.2) })) ∧
  (∀ s die i x, getStrm s.m (mkKey die i) = some x →
    (((liveHeld x).filter fun p => tickDue s.m p.playout).flatMap fun p => missingBelow x p.seq) = [] →
    exec (.playoutTimeReached die i) s = .next (after s
      (releaseLoop (mkKey die i) (x.held.length + x.lostAhead.length) s.m))) ∧
  (∀ s die i x a, getStrm s.m (mkKey die i) = some x → x.anchor = some a → x.anchorAt + 1000000000 ≤ s.m.dev →
    ∃ a1 : Int, (a1 - a).natAbs ≤ 100000 * mediaClock x ∧ (∀ b, x.anchorMin = some b → (b - a).natAbs ≤ 100000 * mediaClock x → a1 = b) ∧
      (x.anchorMin = none → a1 = a) ∧
      exec (.playoutAnchorAdjust die i) s = .next (after s
        (noteOut (.anchor (mkKey die i) a1)
          (updStream (mkKey die i) (fun y => { y with anchor := some a1, anchorMin := none, anchorAt := s.m.dev }) s.m)))) ∧
  (∀ s die i, exec (.netPathTimeout die i) s = .next (after s (pathExpire (mkKey die i) true (pathExpire (mkKey die i) false s.m)))) ∧
  (∀ s die i x, getStrm s.m (mkKey die i) = some x → x.state = 2 → tickDue s.m (x.lastRelease + x.stallMs * 1000000) = true →
    exec (.streamStallTimeout die i) s = .next (after s (stallStream (mkKey die i) s.m))) ∧
  (∀ s die i l, getLeg s.m (mkKey die i) = some l → l.state = 3 → l.silenceS ≠ 0 → l.silent = false →
    tickDue s.m (l.lastRelease + l.silenceS * 1000000000) = true →
    exec (.legSilenceTimeout die i) s = .next (after s
      (raise 0x0A02 3 (legOid (mkKey die i)) [.u 2 (legId (mkKey die i)), .u 2 l.silenceS]
        (updLeg (mkKey die i) (fun x => { x with silent := true }) s.m)))) ∧
  (∀ s die i x n, getStrm s.m (mkKey die i) = some x → x.nacks = [n] → n.sent = false → tickDue s.m n.dueAt = true →
    exec (.nackDelayExpiry die i) s = .next (after s
      (updStream (mkKey die i) (fun y => { y with nacks := y.nacks.map fun q =>
          if q.seq = n.seq then { q with sent := true, repeatAt := s.m.dev + 20000000 } else q })
        (sendNack (mkKey die i) n.seq s.m)))) ∧
  (∀ s die i x n, getStrm s.m (mkKey die i) = some x → x.nacks = [n] → n.sent = true → tickDue s.m n.repeatAt = true →
    exec (.nackRepeatExpiry die i) s = .next (after s
      (updStream (mkKey die i) (fun y => { y with nacks := y.nacks.filter fun q => q.seq != n.seq })
        (sendNack (mkKey die i) n.seq s.m)))) ∧
  (∀ s die i l, getLeg s.m (mkKey die i) = some l → bit l.flags 2 = true → legCarries l = true →
    tickDue s.m (l.rtcpAt + l.rtcpGap) = true → feedbackOn s.m = false →
    exec (.rtcpReportTimer die i) s = .next (after s
      (updLeg (mkKey die i) (fun x => { x with rtcpAt := s.m.dev, rtcpGap := drawGap l.rtcpMs s.m }) (draw s.m)))) ∧
  (∀ s die lane r frac id inv, lanePers (img s.m) die lane = 4 → lane < 8 → dieRun s.m die = true →
    (getPort s.m (die * 16 + lane)).linkUp = false → 1 ≤ r → r ≤ 3 →
    ∃ t, exec (.sdiLockChange die lane (some (r, frac)) (some id) inv) s = .next t ∧ t.pending = s.pending ∧
      (getPort t.m (die * 16 + lane)).linkUp = true ∧ (getPort t.m (die * 16 + lane)).sdiRate = r ∧
      (getPort t.m (die * 16 + lane)).sdiFrac = frac ∧ (getPort t.m (die * 16 + lane)).st352 = some id) ∧
  (∀ s die lane fmt id groups marks k x l, (getPort s.m (die * 16 + lane)).linkUp = true → lanePers (img s.m) die lane = 4 →
    laneMode s.m (die * 16 + lane) ≠ 3 → sdiStreams s.m (die * 16 + lane) = [(k, x)] → getLeg s.m (strmLeg k) = some l →
    x.kind = 6 → l.state = 3 → legCarries l = true → getStrm s.m k = some x →
    exec (.sdiFrameComplete die lane fmt id groups marks) s = .next (after s
      (if fmt = x.vfmt then sdiTake k [] (sdiFormat k fmt id s.m) else sdiFormat k fmt id s.m)))

/-- R306 to R317: the commands of egress scheduling. -/
def Obligations.TrafficCommandsComplete : Prop :=
  Completes .trfPortSet trfPortSetSpec
    (fun d m => (setTPort (trfPort d) { getTPort m (trfPort d) with rate := pay d 4 4, mac := pay d 8 6 } m, reply stOK 0 0xFF)) ∧
  Completes .trfClassSet trfClassSetSpec (fun d m => (applyClassSet d m, reply stOK 0 0xFF)) ∧
  Completes .trfQueueSet trfQueueSetSpec (fun d m => (applyQueueSet d m, reply stOK 0 (legState d m))) ∧
  Completes .trfProfileSet trfProfileSetSpec
    (fun d m => ({ m with snd.profiles := tset m.snd.profiles (pay d 0 1) (profileOf d) }, reply stOK 0 0xFF)) ∧
  Completes .trfLineSet trfLineSetSpec
    (fun d m =>
      (setTLeg (legOfD d) { getTLeg m (legOfD d) with mode := pay d 0 1, value := pay d 4 4 } m, reply stOK 0 (legState d m))) ∧
  Completes .trfSampleSet trfSampleSetSpec
    (fun d m => ({ m with snd.sample := tset m.snd.sample (oidDie (oid d)) (pay d 0 4) }, reply stOK 0 0xFF))

/-- R299 to R305: forwarding, its commands and its rows. -/
def Obligations.ForwardingRowsComplete : Prop :=
  CompletesIf .fwdSet fwdSetSpec (fun d m => getFwd m (fwdIdx d) = none ∧ fwdState d m = 0)
    (fun d m =>
      let f : Fwd := { source := pay d 0 4, layer := pay d 4 1, pliMs := pay d 6 2, members := [], lastPli := none }
      (own (oid d) (pathFn m d.path) { m with snd.fwds := tset m.snd.fwds (fwdIdx d) f },
       { reply stOK 0 1 with before := 0 })) ∧
  CompletesIf .fwdSet fwdSetSpec (fun d m => (∃ f, getFwd m (fwdIdx d) = some f) ∧ fwdState d m = 1)
    (fun d m => (updFwd (fwdIdx d) (fun f => { f with pliMs := pay d 6 2 }) m, { reply stOK 0 1 with before := 1 })) ∧
  Completes .fwdDelete fwdDeleteSpec (fun d m => (removeFwd (fwdIdx d) m, { reply stOK 0 0 with before := 1 })) ∧
  CompletesIf .fwdMemberAdd fwdMemberAddSpec (fun d m => isMember d m = false)
    (fun d m =>
      let m1 := updSend (memberKey d) (fun s => { s with state := 2 })
        (updFwd (fwdIdx d) (fun f => { f with members := f.members ++ [memberKey d] }) m)
      (if streamSt m (memberKey d) = 1 then joinWait (memberKey d) m1 else m1, reply stOK 0 1)) ∧
  Completes .fwdMemberRemove fwdMemberRemoveSpec (fun d m => (dropMember (fwdIdx d) (memberKey d) m, reply stOK 0 1)) ∧
  (∀ s die i x p r, i < 4096 → tget? s.m.net.streams (mkKey die i) = some x → x.forward = p :: r →
    exec (.sourcePacketForward die i) s = .next (after s
      (forwardPacket (strmOid (mkKey die i)) p
        { s.m with net.streams := tupd s.m.net.streams (mkKey die i) fun x => { x with forward := r } }))) ∧
  (∀ s die i x p r, 4096 ≤ i → getSend s.m (mkKey die i) = some x → x.srcq = p :: r →
    exec (.sourcePacketForward die i) s = .next (after s
      (forwardPacket (sendOid (mkKey die i)) p (updSend (mkKey die i) (fun x => { x with srcq := r }) s.m)))) ∧
  (∀ s die i x l t, getSend s.m (mkKey die i) = some x → getLeg s.m (sendLeg (mkKey die i)) = some l → x.upSince = some t →
    tickDue s.m (t + (getProfile s.m l.profile).upWait * 1000000) = true → legCarries l = true →
    exec (.upWaitExpiry die i) s = .next (after s
      (refreshReq (mkKey die i) x.ts_ (updSend (mkKey die i) (fun y => { y with upSince := some s.m.dev }) s.m)))) ∧
  (∀ s die i l, getLeg s.m (sendLeg (mkKey die i)) = some l →
    exec (.rtxHoldExpiry die i) s = .next (after s
      (updSend (mkKey die i) (fun x => { x with
          rtx := x.rtx.filter fun r => !tickDue s.m (r.sentAt + (getProfile s.m l.profile).rtx * 1000000) }) s.m)))

/-- R298, R307, R309 to R315, R326 and R327: the rows of departure. -/
def Obligations.DepartureRowsComplete : Prop :=
  (∀ s die lane qk second e, (getTPort s.m (die * 16 + lane)).busy = some (qk, second, e) →
    exec (.egressFrameSent die lane) s = .next (after s
      (portServe (die * 16 + lane) (frameOut (die * 16 + lane) qk second e
        (setTPort (die * 16 + lane) { getTPort s.m (die * 16 + lane) with busy := none } s.m))))) ∧
  (∀ s, tickOpen s.m 1 1000 = true → s.m.snd.queues = [] →
    exec .shaperRefill s = .next (after s
      (tickMark 1 1000 { s.m with
        snd.ports := s.m.snd.ports.map fun kv => (kv.1, { kv.2 with
          classes := kv.2.classes.map fun c =>
            (c.1, { c.2 with sh := shaperRefill (s.m.dev / 1000 - tget s.m.ticks 1 0) c.2.sh }) }) }))) ∧
  (∀ s die q, exec (.sojournLimit die q) s = .next (after s
    (queueServe (queueKey die q) (sojournPath (queueKey die q) true (sojournPath (queueKey die q) false s.m))))) ∧
  (∀ s die, dieRun s.m die = true → tickOpen s.m (tkSample + die) (sampleUs s.m die * 1000) = true → s.m.snd.queues = [] →
    exec (.latencySampleTick die) s = .next (after s (tickMark (tkSample + die) (sampleUs s.m die * 1000) s.m))) ∧
  (∀ s die i x p r, getSend s.m (mkKey die i) = some x → x.paced = p :: r → p.start * p.den + p.next * p.num ≤ s.m.dev * p.den →
    exec (.pacedPacketDue die i) s = .next (after s
      (pacedEmit (mkKey die i) p.ts (pacedUdp x.param p.next)
        (updSend (mkKey die i) (fun y => { y with
          paced := if p.count ≤ p.next + 1 then r else { p with next := p.next + 1 } :: r }) s.m)))) ∧
  (∀ s die i x, getSend s.m (mkKey die i) = some x → x.kind = 6 → x.state = 2 → x.psiAt + 100000000 ≤ s.m.vault.mono →
    s.m.vault.mono < x.pcrAt + 40000000 →
    exec (.tsPatPmtTimer die i) s = .next (after s
      (tsOut (mkKey die i) (s.m.dev * 90000 / 1000000000 % 2 ^ 32) 2
        (updSend (mkKey die i) (fun y => { y with psiAt := s.m.vault.mono }) s.m)))) ∧
  (∀ s die f tokens, exec (.flowItemComplete die f tokens) s = .next (after s
    (flowSettle die f (setFlow die f (flowMark (fun i => tokens.contains i.token && i.op.isNone) 1 (getFlow s.m die f)) s.m)))) ∧
  (∀ s die f i r t, (getFlow s.m die f).items = i :: r → i.st = 0 → i.low = some t → t + 1000000 ≤ s.m.dev →
    ∃ v, reorderVoid die f s.m = some v ∧ exec (.reorderTimeout die f) s = .next (after s (flowSettle die f v))) ∧
  (∀ s (r : Rtcp) l, getLeg s.m r.leg = some l → legCarries l = true → l.transport = 0 → legSrtp l = false →
    r.hasReport = false → r.nacks = [] → r.plis = [] → r.others = [] →
    exec (.rtcpReceived r) s = .next (after s (learnDest r.leg r.src r.srcPort s.m))) ∧
  (∀ s die i x l, getSend s.m (mkKey die i) = some x → getLeg s.m (sendLeg (mkKey die i)) = some l → bit l.flags 2 = true →
    legCarries l = true → tickDue s.m (x.srAt + x.srGap) = true → feedbackOn s.m = true →
    destKnown s.m (sendLeg (mkKey die i)) l = true →
    exec (.rtcpSenderReportTimer die i) s = .next (after s
      (rtcpOut 5 (mkKey die i)
          [(x.ssrc : Int), ntpSeconds s.m.dev, ((s.m.dev % 1000000000 * 2 ^ 32 / 1000000000 : Nat) : Int), (x.sentPkts : Int), (x.sentBytes : Int)]
        (updSend (mkKey die i) (fun y => { y with srAt := s.m.dev, srGap := drawGap l.rtcpMs s.m }) (draw s.m)))))

/-! ## Legs, streams, sends, mixing, modems -/

/-- R126 to R131 and R143: the leg commands and the end of a drain. -/
def Obligations.LegRowsComplete : Prop :=
  CompletesIf .legDefine legDefineSpec (fun d m => (freeLeg m (legHome d)).isSome)
    (fun d m =>
      let k := mkKey (legHome d) ((freeLeg m (legHome d)).getD 0)
      (raise 0x0A01 3 (legOid k) [.u 2 (legId k), .u 1 0, .u 1 1, .u 1 0]
        (own (legOid k) (pathFn m d.path) { m with net.legs := tset m.net.legs k (legOf d) }),
       { reply stOK (legOid k) 1 with before := 0 })) ∧
  Completes .legModify legModifySpec (fun d m => (legModify d m, reply stOK 0 (legState d m))) ∧
  Completes .legDelete legDeleteSpec (fun d m => (legGone (legOfD d) 0 m, { reply stOK 0 0 with before := 1 })) ∧
  Completes .legArm legArmSpec (fun d m => (legArm (legOfD d) m, { reply stOK 0 2 with before := 1 })) ∧
  Completes .legDisarm legDisarmSpec (fun d m => (legDisarm (legOfD d) m, { reply stOK 0 1 with before := 2 })) ∧
  Completes .legDrain legDrainSpec (fun d m => (legDrain (legOfD d) m, { reply stOK 0 4 with before := legState d m })) ∧
  CompletesIf .legMove legMoveSpec (fun d m => (moveIdx d m).isSome)
    (fun d m =>
      let v : Move := { old := legOfD d, new := mkKey (moveDie d) ((moveIdx d m).getD 0) }
      (legMove v m, { status := stOK, detail := legOid v.new, plain := some (legId v.old, legId v.new),
                      before := legState d m, after := legState d m })) ∧
  (∀ s die idx l, getLeg s.m (mkKey die idx) = some l → l.state = 4 → legEmpty (mkKey die idx) l s.m = true →
    exec (.legDrainComplete die idx) s = .next (after s (legGone (mkKey die idx) 2 s.m))) ∧
  (∀ s die idx l, getLeg s.m (mkKey die idx) = some l → l.state = 4 → l.drainAt + l.drainMs * 1000000 ≤ s.m.vault.mono →
    exec (.legDrainLimit die idx) s = .next (after s
      (legGone (mkKey die idx) 2 (queueDiscard (mkKey die idx)
        ((legStreams s.m (mkKey die idx)).foldl (fun x e => countStrm e.1 9 e.2.held.length x) s.m))))) ∧
  (∀ k c m, tget? (legGone k c m).net.legs k = none)

/-- R132, R143, R150 and R293 to R295: the stream and send stream commands. -/
def Obligations.StreamCommandsComplete : Prop :=
  Completes .netStreamDefine netStreamDefineSpec
    (fun d m =>
      let m1 := own (oid d) (pathFn m d.path) { m with net.streams := tset m.net.streams (strmOfD d) (strmNew d m) }
      (if pay d 0 1 = 0 then instNew (strmOfD d) (pay d 2 1) m1 else m1, { reply stOK 0 1 with before := 0 })) ∧
  (∀ x, CompletesIf .netStreamModify netStreamModifySpec
    (fun d m => getStrm m (strmOfD d) = some x ∧ strmMovesInst d x = false)
    (fun d m => (updStream (strmOfD d) (fun _ => strmModify d x m) m,
      { reply stOK 0 (streamSt (updStream (strmOfD d) (fun _ => strmModify d x m) m) (strmOfD d)) with
          before := x.state }))) ∧
  (∀ x, CompletesIf .netStreamModify netStreamModifySpec
    (fun d m => getStrm m (strmOfD d) = some x ∧ strmMovesInst d x = true)
    (fun d m =>
      let g := instGone (strmOfD d) (updStream (strmOfD d) (fun _ => strmModify d x m) m)
      let m2 := if pay d 0 1 = 0 then instNew (strmOfD d) (pay d 2 1) g else g
      (m2, { reply stOK 0 (streamSt m2 (strmOfD d)) with before := x.state }))) ∧
  Completes .netStreamDelete netStreamDeleteSpec
    (fun d m => (strmGone (strmOfD d) m, { reply stOK 0 0 with before := strmState d m })) ∧
  (∀ k m, tget? (strmGone k m).net.streams k = none) ∧
  Completes .netSendDefine netSendDefineSpec
    (fun d m =>
      let m1 := own (oid d) (pathFn m d.path) { draw m with snd.sends := tset m.snd.sends (strmOfD d) (sendNew d m) }
      (if (sendNew d m).kind = 0 then instNew (strmOfD d) (sendNew d m).format m1 else m1,
       { reply stOK 0 (sendNew d m).state with before := 0 })) ∧
  (∀ x, CompletesIf .netSendModify netSendModifySpec
    (fun d m => getSend m (strmOfD d) = some x ∧ sendMovesInst d x = false)
    (fun d m => (updSend (strmOfD d) (fun _ => sendModify d x m) (draw m),
      { reply stOK 0 (streamSt (updSend (strmOfD d) (fun _ => sendModify d x m) (draw m)) (strmOfD d)) with
          before := x.state }))) ∧
  (∀ x, CompletesIf .netSendModify netSendModifySpec
    (fun d m => getSend m (strmOfD d) = some x ∧ sendMovesInst d x = true)
    (fun d m =>
      let g := instGone (strmOfD d) (updSend (strmOfD d) (fun _ => sendModify d x m) (draw m))
      let m2 := if pay d 0 1 = 0 then instNew (strmOfD d) (pay d 2 1) g else g
      (m2, { reply stOK 0 (streamSt m2 (strmOfD d)) with before := x.state }))) ∧
  Completes .netSendDelete netSendDeleteSpec
    (fun d m => (sendGone (strmOfD d) m, { reply stOK 0 0 with before := sendSt d m })) ∧
  (∀ k m, tget? (sendGone k m).snd.sends k = none)

/-- R217 to R238: the mixer's commands and its windows. -/
def Obligations.MixerRowsComplete : Prop :=
  CompletesIf .mixBusDefine mixBusDefineSpec (fun d m => (placeDie d (freeBuses m) m).isSome)
    (fun d m =>
      let die := (placeDie d (freeBuses m) m).getD 0
      let b := busNo die ((placeIdx d (fun i => (getBus m (busNo die i)).isSome) 256).getD 0)
      (own (busOid b) (pathFn m d.path)
        { m with mix.buses := tset m.mix.buses b { short := pay d 0 1 == 1, lastMask := 0, lastAdd := none, meter := meterReset } },
       { reply stOK (placedDetail d (busOid b)) 1 with before := 0 })) ∧
  Completes .mixBusDelete mixBusDeleteSpec (fun d m => (dropBus (busOf (oid d)) m, { reply stOK 0 0 with before := 1 })) ∧
  (∀ b m, tget? (dropBus b m).mix.buses b = none) ∧
  CompletesIf .mixXpSet mixXpSetSpec (fun d m => payBit d 12 0 = false ∧ ∃ k x, findXp m (pay d 0 4) (busOf (oid d)) = some (k, x))
    (fun d m => match findXp m (pay d 0 4) (busOf (oid d)) with
      | some (k, x) =>
        let par : XpPar := { gain := pay d 4 4, rampMs := pay d 8 2, owner := xpOwner d }
        ({ m with mix.xps := tset m.mix.xps k { x with ina := some par } },
         { status := stOK, detail := k % 16384, plain := some (xpPlain x.ina, xpPlain (some par)), before := 1, after := 1 })
      | none => (m, reply stOK 0 1)) ∧
  CompletesIf .mixXpSet mixXpSetSpec
    (fun d m => payBit d 12 0 = true ∧ ∃ k x, findXp m (pay d 0 4) (busOf (oid d)) = some (k, x) ∧ x.act.isNone)
    (fun d m => match findXp m (pay d 0 4) (busOf (oid d)) with
      | some (k, x) => ({ m with mix.xps := tdel m.mix.xps k },
         { status := stOK, detail := k % 16384, plain := some (xpPlain x.ina, 0), before := 1, after := 1 })
      | none => (m, reply stOK 0 1)) ∧
  CompletesIf .mixXpSet mixXpSetSpec (fun d m => payBit d 12 0 = false ∧ findXp m (pay d 0 4) (busOf (oid d)) = none)
    (fun d m =>
      let die := srcDie (pay d 0 4)
      let i := (firstBelow (fun i => (tget? m.mix.xps (xpKey die i)).isNone) 16384).getD 0
      let par : XpPar := { gain := pay d 4 4, rampMs := pay d 8 2, owner := xpOwner d }
      let x : Xp := { source := pay d 0 4, bus := busOf (oid d), act := none, ina := some par, ramp := rampAt 0, since := 0 }
      (srcReady (pay d 0 4) { m with mix.xps := tset m.mix.xps (xpKey die i) x },
       { status := stOK, detail := i, plain := some (0, xpPlain (some par)), before := 1, after := 1 })) ∧
  Completes .mixLegSet mixLegSetSpec
    (fun d m =>
      (modInactive (legOfD d) (fun b => if payBit d 18 0 then legBankEmpty else { b with par := some (legParOf d) }) m,
       reply stOK 0 (legState d m))) ∧
  Completes .mixOverlaySet mixOverlaySetSpec
    (fun d m =>
      (modInactive (legOfD d) (fun b =>
        { b with ov := if pay d 1 1 = 0 then tdel b.ov (pay d 0 1) else tset b.ov (pay d 0 1) (ovParOf d) })
        (if pay d 1 1 = 0 then m else srcReady (pay d 4 4) m),
       reply stOK 0 (legState d m))) ∧
  CompletesIf .mixCommit mixCommitSpec (fun d _ => payBit d 0 0 = true)
    (fun d m => (draw (bankRevert (oidDie (oid d)) m),
      { reply stOK 0 0xFF with
        plain := some (b2n (getMixer m (oidDie (oid d))).bankB, Config.freeNat m.drawn % 2 ^ 64) })) ∧
  CompletesIf .mixCommit mixCommitSpec (fun d _ => payBit d 0 0 = false ∧ commitAt d = 0)
    (fun d m =>
      let die := oidDie (oid d)
      let n := boundaryNo .sample m.dev
      let old := b2n (getMixer m die).bankB
      (raise 0x1202 5 (infraOid die) [.u 1 die, .u 1 (1 - old), .u 4 (n % 2 ^ 32), .u 1 0] (bankSwap die n m),
       { status := stOK, detail := 0, plain := some (old, n), before := 0xFF, after := 0xFF })) ∧
  ActsIf .mixCommit mixCommitSpec (fun d _ => payBit d 0 0 = false)
    (fun d late m =>
      let die := oidDie (oid d)
      let n := boundaryNo .sample m.dev
      let old := b2n (getMixer m die).bankB
      let m1 := if late then count .mixCnt die 0 1 (bankSwap die n m) else bankSwap die n m
      finish d false
        { status := if late then stLate else stOK, detail := 0, plain := some (old, n), before := 0xFF, after := 0xFF }
        (raise 0x1202 5 (infraOid die) [.u 1 die, .u 1 (1 - old), .u 4 (n % 2 ^ 32), .u 1 (b2n late)] m1)) ∧
  Completes .mixMeterSet mixMeterSetSpec
    (fun d m => (setMixer (oidDie (oid d)) { getMixer m (oidDie (oid d)) with meterNext := pay d 0 2 } m, reply stOK 0 0xFF)) ∧
  (∀ s die, (getMixer (mixOverrun die s.m) die).window.isSome → (getMixer (mixOverrun die s.m) die).done = false →
    exec (.mixJobComplete die) s = .next (after s
      (reportSlack die 47 (((getMixer (mixOverrun die s.m) die).deadline : Int) - s.m.dev)
        (getMixer (mixOverrun die s.m) die).len
        (setMixer die { getMixer (mixOverrun die s.m) die with done := true } (mixOverrun die s.m))))) ∧
  (∀ s b die x, getBus s.m b = some x → x.lastAdd = none →
    exec (.mixPartialArrival b die) s = .next (after s { s.m with
      mix.partials := s.m.mix.partials.map fun p =>
        if p.bus == b && p.die == die && p.sums.length == busN x && decide ((p.window + 1) * busE x ≤ s.m.dev)
        then { p with arrived := true } else p })) ∧
  (∀ s b x ps, getBus s.m b = some x → x.lastAdd = none → busE x / 2 + busE x ≤ s.m.dev →
    ps = (s.m.mix.partials.filter fun p => p.bus == b && p.window == (s.m.dev - busE x / 2) / busE x - 1).filter
      (fun p => p.arrived && dieAdds s.m p.die) →
    ∃ t, exec (.mixAdditionPoint b) s = .next t ∧
      (getBus t.m b).map Bus.lastAdd = some (some ((s.m.dev - busE x / 2) / busE x - 1)) ∧
      (getBus t.m b).map Bus.lastMask = some (ps.map fun p => 2 ^ (p.die - 1)).sum ∧
      ∃ u ∈ t.m.mix.totals, u.bus = b ∧ u.window = (s.m.dev - busE x / 2) / busE x - 1 ∧
        u.sums = ps.foldl (fun a p => vadd a p.sums) (List.replicate (busN x) 0)) ∧
  (∀ s b die u, (s.m.mix.totals.find? fun t => t.bus == b) = some u → (busLegDies s.m b).contains die = true →
    dieRun s.m die = true → u.at_.contains die = false →
    exec (.mixTotalArrival b die) s = .next (after s { s.m with
      mix.totals := s.m.mix.totals.map fun t => if t.bus = b && t.window = u.window then { t with at_ := die :: t.at_ } else t })) ∧
  (∀ s die idx, (getLegOut s.m (mkKey die idx)).isSome →
    exec (.overlayHoldExpiry die idx) s = .next (after s (mixAdvance die (sampleNow s.m die) s.m))) ∧
  (∀ s die, dieRun s.m die = true → (getMixer s.m die).meterAt + (getMixer s.m die).meterMs * 1000000 ≤ s.m.dev →
    exec (.meterPeriodEnd die) s = .next (after s { s.m with
      mix.mixers := tset s.m.mix.mixers die
        { getMixer s.m die with meterAt := s.m.dev, meterMs := (getMixer s.m die).meterNext },
      mix.srcs := tmap s.m.mix.srcs fun r x => if srcDie r = die then { x with meter := meterClose x.meter } else x,
      mix.buses := tmap s.m.mix.buses fun b x => if busDie b = die then { x with meter := meterClose x.meter } else x,
      mix.legs := tmap s.m.mix.legs fun l x => if keyDie l = die then { x with meter := meterClose x.meter } else x }))

/-- R167 to R186: the modem's commands and its rows. -/
def Obligations.ModemRowsComplete : Prop :=
  let put (d : Desc) (f : Modem → Modem) (m : M) : M × Reply :=
    (updMod (modDie d) (modCh d) f m,
     { reply stOK 0 (modState d (updMod (modDie d) (modCh d) f m)) with before := modState d m })
  Completes .modConfig modConfigSpec (fun d => put d fun x => showConfig { x with cfg := some (cfgOf d) }) ∧
  Completes .modStart modStartSpec
    (fun d m => put d (fun x => showConfig
      { x with state := (match x.cfg with | some c => if c.transmit then 3 else 2 | none => 2), stage := 0, mer := 0x3FF, freq := 0,
               violRun := 0, badRun := 0, slotAcc := 0, searchAt := some m.vault.mono }) m) ∧
  Completes .modStop modStopSpec
    (fun d => put d fun x => showConfig
      { x with state := 1, stage := 0, mer := 0x3FF, freq := 0, searchAt := none, unmuteNext := false, badRun := 0, violRun := 0 }) ∧
  Completes .modFeSet modFeSetSpec
    (fun d => put d fun x =>
      if x.wire.isSome then { x with spiNext := some (pay d 0 1, pay d 1 1, pay d 2 1) }
      else { x with spiMode := pay d 0 1, spiDiv := pay d 1 1, spiBits := pay d 2 1 }) ∧
  CompletesIf .modGainSet modGainSetSpec (fun d m => (modOf d m).isSome ∧ claimHeld m = false)
    (fun d m =>
      (updMod (modDie d) (modCh d) (fun y => { y with kept := some (pay d 0 4) })
        (updMod (modDie d) (modCh d) (fun y => { y with word := pay d 0 4 }) m),
       { reply stOK 0 (modState d m) with plain := (modOf d m).map fun x => (x.word, pay d 0 4) })) ∧
  CompletesIf .modGainSet modGainSetSpec (fun d m => claimHeld m = true ∧ ∃ x, modOf d m = some x ∧ x.wire.isSome)
    (fun d m =>
      (updMod (modDie d) (modCh d) (fun y => { y with queue := y.queue ++ [pay d 0 4] })
        (updMod (modDie d) (modCh d) (fun y => { y with word := pay d 0 4 }) m),
       { reply stOK 0 (modState d m) with plain := (modOf d m).map fun x => (x.word, pay d 0 4) })) ∧
  CompletesIf .modGainSet modGainSetSpec (fun d m => claimHeld m = true ∧ ∃ x, modOf d m = some x ∧ x.wire.isNone)
    (fun d m =>
      (spiStart (modDie d) (modCh d) (pay d 0 4) (updMod (modDie d) (modCh d) (fun y => { y with word := pay d 0 4 }) m),
       { reply stOK 0 (modState d m) with plain := (modOf d m).map fun x => (x.word, pay d 0 4) })) ∧
  Completes .modFirSet modFirSetSpec
    (fun d => put d fun x =>
      let f := (List.range 127).map fun i => bufS d (4 * i) 4
      if x.state = 1 then { x with fir := some f, firNext := none } else { x with firNext := some f }) ∧
  Completes .modMaskSet modMaskSetSpec
    (fun d => put d fun x =>
      if x.state = 1 then { x with mask := some (maskPoints d), maskNext := none } else { x with maskNext := some (maskPoints d) }) ∧
  Completes .modTxUnmute modTxUnmuteSpec (fun d => put d fun x => { x with unmuteNext := true }) ∧
  (∀ s die c new p x cfg, getMod s.m die c = some x → x.cfg = some cfg → x.state = 2 → x.jesd = true → new < x.stage → x.stage ≤ 5 →
    exec (.modStageChange die c new p) s = .next (after s (setStage die c new 0 s.m))) ∧
  (∀ s die c p x cfg, getMod s.m die c = some x → x.cfg = some cfg → x.state = 2 → x.jesd = true → x.stage = 0 →
    exec (.modStageChange die c 1 p) s = .next (after s (setStage die c 1 0 s.m))) ∧
  (∀ s die lane c x inv, laneChannel s.m die lane = some c → getMod s.m die c = some x → x.jesd = false →
    exec (.jesdSyncChange die lane { sync := true, inverted := inv }) s = .next (after s
      (raise 0x0F03 1 (modOid die c) [.u 1 c, .u 1 1]
        (updMod die c (fun y => { y with jesd := true }) (laneSensed die lane inv s.m))))) ∧
  (∀ s die lane c x inv, laneChannel s.m die lane = some c → getMod s.m die c = some x → x.jesd = true → x.state ≠ 2 →
    exec (.jesdSyncChange die lane { sync := false, inverted := inv }) s = .next (after s
      (raise 0x0F03 1 (modOid die c) [.u 1 c, .u 1 0] (updMod die c (fun y => { y with jesd := false }) s.m)))) ∧
  (∀ s die lane c x inv, laneChannel s.m die lane = some c → getMod s.m die c = some x → x.jesd = true → x.state = 2 →
    exec (.jesdSyncChange die lane { sync := false, inverted := inv }) s = .next (after s (setStage die c 0 0
      (raise 0x0F03 1 (modOid die c) [.u 1 c, .u 1 0] (updMod die c (fun y => { y with jesd := false }) s.m))))) ∧
  (∀ s die lane c x, laneChannel s.m die lane = some c → getMod s.m die c = some x → x.state = 2 →
    exec (.iqOverrun die lane) s = .next (after s (setStage die c 0 0 (countMod die c 6 1 s.m)))) ∧
  (∀ s die lane c x, laneChannel s.m die lane = some c → getMod s.m die c = some x → x.state ≠ 2 →
    exec (.iqOverrun die lane) s = .next (after s (countMod die c 6 1 s.m))) ∧
  (∀ s die c x cfg t, getMod s.m die c = some x → x.cfg = some cfg → x.searchAt = some t → x.state = 2 → x.stage < 5 →
    t + cfg.lockTimeout * 1000000 ≤ s.m.vault.mono →
    exec (.modLockTimeout die c) s = .next (after s
      (setStage die c 0 2 (countMod die c 3 1 (updMod die c (fun y => { y with searchAt := none }) s.m))))) ∧
  (∀ s die c n media x, getMod s.m die c = some x → x.state = 2 → x.stage = 5 →
    exec (.modTsPacket die c n false media) s = .next (after s
      (tsHand die c media (countMod die c 0 n (updMod die c (fun y => { y with badRun := 0 }) s.m))))) ∧
  (∀ s die c n media x, getMod s.m die c = some x → x.state = 2 → x.stage = 5 → x.badRun = 31 →
    exec (.modTsPacket die c n true media) s = .next (after s (setStage die c 4 0
      (tsHand die c { media with tei := true } (countMod die c 1 1 (updMod die c (fun y => { y with badRun := y.badRun + 1 }) s.m)))))) ∧
  (∀ s die c p q n, (getMod s.m die c).isSome → tickOpen s.m (tkIq die c) 1000000 = true →
    -1000 ≤ p → p ≤ 32767 → -1000 ≤ q → q ≤ 32767 →
    exec (.modIqInterval die c p q n) s = .next (after s
      (tickMark (tkIq die c) 1000000
        (countMod die c 5 n (updMod die c (fun y => { y with power := p, peak := q }) s.m))))) ∧
  (∀ s die c v x, getMod s.m die c = some x → x.wire.isSome → x.spiNext = none → x.queue = [] →
    exec (.feSpiFrameDone die c v) s = .next (after s
      (updMod die c (fun _ => { x with wire := none, feRx := v % 2 ^ x.spiBits }) s.m))) ∧
  (∀ s die c v x w r, getMod s.m die c = some x → x.wire.isSome → x.spiNext = none → x.queue = w :: r → claimHeld s.m = true →
    exec (.feSpiFrameDone die c v) s = .next (after s
      (spiStart die c w (updMod die c (fun _ => { x with wire := none, feRx := v % 2 ^ x.spiBits, queue := r }) s.m)))) ∧
  (∀ s die c bins x x0 cfg, getMod s.m die c = some x0 → symbolStart x0 = x → x.cfg = some cfg → (x0.state = 3 ∨ x0.state = 4) →
    x.state = 3 → maskWorst (halfBand cfg) (x.mask.getD []) bins = none → claimHeld s.m = true →
    exec (.modTxSymbol die c bins) s = .next (after s
      (let n := symbolSlots cfg x.slotAcc
       let a := takeSlots die c n.1 (updMod die c (fun _ => { x with slotAcc := n.2 }) s.m, [])
       updMod die c (fun y => { y with violRun := 0 }) (emit (.net 9 die c (txOut x cfg a.2)) a.1))))

/-! ## Decoding, composition, encoding, audio processing -/

/-- R192 to R214: the decoder's commands and rows. -/
def Obligations.DecoderRowsComplete : Prop :=
  CompletesIf .codContextOpen codContextOpenSpec (fun d m => (codPlace d m).isSome)
    (fun d m =>
      let k := (codPlace d m).getD 0
      let c := ctxOf d
      (own (ctxOid k) (pathFn m d.path)
         (reserve (keyDie k) (ctxReserve c).1 (ctxReserve c).2 { m with cod.ctxs := tset m.cod.ctxs k c }),
       { reply stOK (if pay d 2 1 = 0xFF || oidDie (oid d) = 0 then ctxOid k else 0) 1 with before := 0 })) ∧
  (∀ c, CompletesIf .codContextModify codContextModifySpec (fun d m => getCtx m (codKey d) = some c ∧ c.state = 2)
    (fun d m => (updCtx (codKey d) (fun x => { x with pliMs := (ctxOf d).pliMs }) m, reply stOK 0 2))) ∧
  (∀ c, CompletesIf .codContextModify codContextModifySpec (fun d m => getCtx m (codKey d) = some c ∧ c.state = 1)
    (fun d m =>
      let n := ctxOf d
      (modReserve (oidDie (oid d)) (ctxReserve c) (ctxReserve n)
        (updCtx (codKey d) (fun x =>
          { n with state := x.state, lastPli := x.lastPli, shown := x.shown, clean := x.clean, wasTainted := x.wasTainted,
                   outNow := x.outNow, outLate := x.outLate, queue := x.queue, lateBy := x.lateBy, busy := x.busy,
                   stopping := x.stopping, recent := if n.stream = x.stream then x.recent else none,
                   window := if n.num = x.num && n.den = x.den then x.window else none, unsupSeen := x.unsupSeen }) m),
       reply stOK 0 1))) ∧
  Completes .codStart codStartSpec (fun d m => (ctxStart (codKey d) m, { reply stOK 0 2 with before := 1 })) ∧
  Completes .codStop codStopSpec (fun d m => (ctxStop (codKey d) m, { reply stOK 0 1 with before := 2 })) ∧
  (∀ c, CompletesIf .codContextClose codContextCloseSpec (fun d m => getCtx m (codKey d) = some c ∧ c.busy = false)
    (fun d m => (ctxGone (codKey d) (ctxStop (codKey d) m), { reply stOK 0 0 with before := c.state }))) ∧
  (∀ c, CompletesIf .codContextClose codContextCloseSpec (fun d m => getCtx m (codKey d) = some c ∧ c.busy = true)
    (fun d m => (updCtx (codKey d) (fun x => { x with state := 3 }) (ctxStop (codKey d) m), { reply stOK 0 3 with before := c.state }))) ∧
  (∀ c, CompletesIf .codLayerSelect codLayerSelectSpec
    (fun d m => getCtx m (codKey d) = some c ∧ c.target % 16 ≤ pay d 0 1 % 16 ∧ c.target / 16 ≤ pay d 0 1 / 16 ∧ c.target ≠ pay d 0 1)
    (fun d m => (updCtx (codKey d) (fun x => { x with target := c.target, higher := some (pay d 0 1) }) m,
      { reply stOK 0 c.state with plain := some (c.higher.getD c.target, pay d 0 1) }))) ∧
  (∀ c, CompletesIf .codLayerSelect codLayerSelectSpec
    (fun d m => getCtx m (codKey d) = some c ∧ pay d 0 1 % 16 ≤ c.target % 16 ∧ pay d 0 1 / 16 ≤ c.target / 16)
    (fun d m => (updCtx (codKey d) (fun x => { x with target := pay d 0 1, higher := none }) m,
      { reply stOK 0 c.state with plain := some (c.higher.getD c.target, pay d 0 1) }))) ∧
  (∀ c, CompletesIf .codRefresh codRefreshSpec
    (fun d m => getCtx m (codKey d) = some c ∧ ctxFeedback m c = true ∧ isForce d = false ∧ pliOpen c m = true)
    (fun d m => (sendPli c.stream (countCod (codKey d) 10 1
      (updCtx (codKey d) (fun x => { x with lastPli := some m.dev, pliWait := false }) m)), reply stOK 0 2))) ∧
  (∀ c, CompletesIf .codRefresh codRefreshSpec
    (fun d m => getCtx m (codKey d) = some c ∧ ctxFeedback m c = true ∧ isForce d = true ∧ c.pliWait = false)
    (fun d m => (sendPli c.stream (countCod (codKey d) 10 1
      (updCtx (codKey d) (fun x => { x with lastPli := some m.dev, pliWait := false }) m)), reply stOK 0 2))) ∧
  (∀ c, CompletesIf .codRefresh codRefreshSpec
    (fun d m => getCtx m (codKey d) = some c ∧ ctxFeedback m c = true ∧ isForce d = false ∧ pliOpen c m = false ∧ c.pliWait = false ∧
      eventRoom m (keyDie (codKey d)) = true)
    (fun d m => (countCod (codKey d) 11 1 (updCtx (codKey d) (fun x => { x with pliWait := true }) m), reply stOK 0 2))) ∧
  (∀ n b, ActsIf .fbpSnapshot fbpSnapshotSpec (fun d m => snapPic d m = some (n, b))
    (fun d _ m =>
      let die := oidDie (oid d)
      let m1 := setPool die { getPool (cmpHold (die, n) m) die with snap := some (d, n, pay d 0 8, snapBytes d m) } (cmpHold (die, n) m)
      { m1 with deferred := m1.deferred ++ [d] })) ∧
  (∀ s die d n at_ len, (getPool s.m die).snap = some (d, n, at_, len) →
    exec (.fbpSnapshotDone die) s = .next (after s
      (let m1 := cmpDrop (die, n) (setPool die { getPool s.m die with snap := none } (copyPicture die n at_ s.m))
       finish d false (reply stOK len (codState d m1)) m1))) ∧
  (∀ m die n at_ b, getBuf m die n = some b →
    copyPicture die n at_ m = draw { m with host.backing := cellsBlock at_ (pictureBytes b m.drawn) m.host.backing }) ∧
  (∀ a l w i, Memory.wf w = true →
    Memory.byte (cellsBlock a l w) i =
      if a ≤ i ∧ i < a + l.length then BitVec.ofNat 8 (l.getD (i - a) 0) else Memory.byte w i) ∧
  (∀ s die idx c, getCtx s.m (mkKey die idx) = some c → c.state = 2 → c.pliWait = true → c.lastPli.isSome →
    pliOpen c s.m = true → ctxFeedback s.m c = true →
    exec (.pliIntervalExpiry die idx) s = .next (after s (pliNow (mkKey die idx) s.m))) ∧
  (∀ s die idx (info : AuInfo) c x n, getCtx s.m (mkKey die idx) = some c → c.state = 2 → getStrm s.m c.stream = some x → x.kind ≠ 8 →
    auLen false none c.inbox = some n → auLost info.headLost (c.inbox.take n) = false → info.lost = false → c.codec = 16 →
    exec (.accessUnitComplete die idx info) s = .next (after s
      (auArrived (mkKey die idx) info (countCod (mkKey die idx) 6 info.badNal
        (updCtx (mkKey die idx) (fun x => { x with inbox := x.inbox.drop n }) s.m))))) ∧
  (∀ k (i : AuInfo) m c, getCtx m k = some c → c.waitingRap = true → i.rap = false → auArrived k i m = countCod k 8 1 m) ∧
  (∀ s die idx pic c q r n, getCtx s.m (mkKey die idx) = some c → c.queue = q :: r → c.busy = true → onEngine s.m (mkKey die idx) = true →
    freeDesc (decodeStrobe (mkKey die idx) s.m) die = some n →
    exec (.decodePictureComplete die idx pic) s = .next (after s
      (engineFree (mkKey die idx) (pictureEnds (mkKey die idx) q
        (storePicture (mkKey die idx) n q.2.2 (decide (q.2.1 ≤ s.m.dev)) pic (decodeStrobe (mkKey die idx) s.m))))))

/-- R241 to R264: the compositor's commands and the end of a composition. -/
def Obligations.CompositorRowsComplete : Prop :=
  let stage (d : Desc) (f : CmpSet → CmpSet) (m : M) : M × Reply := (updStaged (cmpKey d) f m, reply stOK 0 (cmpState d m))
  (∀ k, CompletesIf .cmpDefine cmpDefineSpec (fun d m => cmpPlace d m = some k ∧ cmpCode m k = 1)
    (fun d m => (defineComp k d m,
      { reply (if 1000 < defineLoad d m k then stDegraded else stOK)
          (if oidDie (oid d) = 0 then cmpOid k else b2n (decide (1000 < defineLoad d m k))) 1 with before := 1 }))) ∧
  (∀ k, CompletesIf .cmpDefine cmpDefineSpec (fun d m => cmpPlace d m = some k ∧ cmpCode m k = 0)
    (fun d m => (own (cmpOid k) (pathFn m d.path) (defineComp k d m),
      { reply (if 1000 < defineLoad d m k then stDegraded else stOK)
          (if oidDie (oid d) = 0 then cmpOid k else b2n (decide (1000 < defineLoad d m k))) 1 with before := 0 }))) ∧
  Completes .cmpStart cmpStartSpec
    (fun d m => (updComp (cmpKey d) (fun c => { c with state := 2, window := none, job := none }) m, { reply stOK 0 2 with before := 1 })) ∧
  Completes .cmpStop cmpStopSpec (fun d m => (cmpStop (cmpKey d) m, { reply stOK 0 1 with before := 2 })) ∧
  Completes .cmpDelete cmpDeleteSpec (fun d m => (cmpGone (cmpKey d) m, { reply stOK 0 0 with before := 1 })) ∧
  (∀ o, CompletesIf .cmpOutputSet cmpOutputSetSpec (fun d _ => outputOf d = some o)
    (fun d => stage d fun x => { x with outputs := tset x.outputs (pay d 0 1) o })) ∧
  CompletesIf .cmpOutputSet cmpOutputSetSpec (fun d _ => outputOf d = none)
    (fun d => stage d fun x => { x with outputs := tdel x.outputs (pay d 0 1) }) ∧
  CompletesIf .cmpLayerSet cmpLayerSetSpec (fun d _ => pay d 1 1 = 0)
    (fun d => stage d fun x => { x with layers := tdel x.layers (pay d 0 1) }) ∧
  CompletesIf .cmpLayerSet cmpLayerSetSpec (fun d _ => pay d 1 1 ≠ 0)
    (fun d => stage d fun x => { x with layers := tset x.layers (pay d 0 1) (layerOf d (tget? x.layers (pay d 0 1))) }) ∧
  Completes .cmpLayerColour cmpLayerColourSpec
    (fun d => stage d fun x => { x with layers := tupd x.layers (bufByte d 30) fun l => { l with chain := some (chainOfBuf d) } }) ∧
  Completes .cmpLayerStyle cmpLayerStyleSpec
    (fun d m => stage d (fun x => { x with layers := tupd x.layers (bufByte d 0) fun l => { l with style := some (styleOf m d) } }) m) ∧
  Completes .cmpZlistSet cmpZlistSetSpec (fun d => stage d fun x => { x with zProg := bufByte d 0 == 1, zList := zBytes d }) ∧
  Completes .cmpLut3dSet cmpLut3dSetSpec
    (fun d => stage d fun x =>
      { x with lutPreset := bufByte d 0, enc2020 := bufByte d 1 == 1,
               lut := if bufByte d 0 = 0xFF then le32s (d.buf.drop 4) else [] }) ∧
  (∀ c, CompletesIf .cmpCommit cmpCommitSpec (fun d m => getComp m (cmpKey d) = some c ∧ payBit d 0 0 = true)
    (fun d m => (draw (updComp (cmpKey d) (fun y => { y with staged := y.force }) m),
      { reply stOK 0 c.state with plain := some (0, Config.freeNat m.drawn % 2 ^ 64) }))) ∧
  (∀ c x y, CompletesIf .cmpCommit cmpCommitSpec
    (fun d m => getComp m (cmpKey d) = some c ∧ payBit d 0 0 = false ∧ c.captured = some x ∧ splitLayers (cmpWidth m (cmpKey d)) x = [] ∧
      getComp (applySet (cmpKey d) x m) (cmpKey d) = some y ∧ y.load ≤ 1000)
    (fun d m =>
      (raise 0x1303 5 (cmpOid (cmpKey d))
         [.u 4 (boundaryNo (cmpGrid c) m.dev % 2 ^ 32), .u 1 0, .u 4 0] (applySet (cmpKey d) x m),
       { reply stOK 0 c.state with plain := some (0, boundaryNo (cmpGrid c) m.dev) }))) ∧
  (∀ c x y, ActsIf .cmpCommit cmpCommitSpec
    (fun d m => getComp m (cmpKey d) = some c ∧ payBit d 0 0 = false ∧ c.captured = some x ∧ splitLayers (cmpWidth m (cmpKey d)) x = [] ∧
      getComp (applySet (cmpKey d) x m) (cmpKey d) = some y ∧ y.load ≤ 1000)
    (fun d late m => finish d false
      { reply (if late then stLate else stOK) 0 c.state with plain := some (0, boundaryNo (cmpGrid c) m.dev) }
      (raise 0x1303 5 (cmpOid (cmpKey d))
         [.u 4 (boundaryNo (cmpGrid c) m.dev % 2 ^ 32), .u 1 (b2n late), .u 4 0] (applySet (cmpKey d) x m)))) ∧
  (∀ c, CompletesIf .cmpCursorSet cmpCursorSetSpec
    (fun d m => getComp m (cmpKey d) = some c ∧
      ¬ (payBit d 4 0 = c.cursor.visible ∧ pay d 5 1 = c.cursor.hotX ∧ pay d 6 1 = c.cursor.hotY))
    (fun d m =>
      (updComp (cmpKey d) (fun x => { x with cursor := { c.cursor with
          x := payS d 0 2, y := payS d 2 2, visible := payBit d 4 0, hotX := pay d 5 1, hotY := pay d 6 1 } }) m,
       reply stOK 0 c.state))) ∧
  (∀ c, ActsIf .cmpCursorSet cmpCursorSetSpec
    (fun d m => getComp m (cmpKey d) = some c ∧
      payBit d 4 0 = c.cursor.visible ∧ pay d 5 1 = c.cursor.hotX ∧ pay d 6 1 = c.cursor.hotY)
    (fun d late m => finishQuiet d (lateReply late (reply stOK 0 c.state))
      (updComp (cmpKey d) (fun x => { x with cursor := { c.cursor with x := payS d 0 2, y := payS d 2 2 } }) m))) ∧
  Completes .cmpCursorImage cmpCursorImageSpec
    (fun d m => (updComp (cmpKey d) (fun c => { c with cursor := { c.cursor with image := d.buf.map fun b => b.toNat } }) m,
      reply stOK 0 (cmpState d m))) ∧
  (∀ l, CompletesIf .cmpGlyphLoad cmpGlyphLoadSpec (fun d _ => atlasOf d = .ok l)
    (fun d m => ({ m with cmp.atlas := tset m.cmp.atlas (oidDie (oid d)) l }, reply stOK 0 0xFF))) ∧
  (∀ c, CompletesIf .cmpGuardSet cmpGuardSetSpec (fun d m => getComp m (cmpKey d) = some c)
    (fun d m =>
      (updComp (cmpKey d) (fun x =>
        { x with guard := some { guardOfBuf d with crc := guardRef (guardOfBuf d) (formatSize c.format).1 (formatSize c.format).2 },
                 guardSet := true }) m, reply stOK 0 c.state))) ∧
  CompletesIf .cmpGuardClear cmpGuardClearSpec (fun d m => (m.pend.any fun p => p.d.opcode == 0x130F && oid p.d == oid d) = false)
    (fun d m => (updComp (cmpKey d) (fun c => { c with guard := none, guardSet := false, good := none }) m, reply stOK 0 (cmpState d m))) ∧
  (∀ s die idx crc c f dl, getComp s.m (mkKey die idx) = some c → c.job = some (f, dl) → dl ≤ s.m.dev →
    exec (.compositionComplete die idx crc) s = .next (after s (cmpAbort (mkKey die idx) s.m))) ∧
  (∀ s die idx crc c f dl, getComp s.m (mkKey die idx) = some c → c.job = some (f, dl) → s.m.dev < dl → f.guard = none →
    exec (.compositionComplete die idx crc) s = .next (after s
      (frameComplete (mkKey die idx) f false (updComp (mkKey die idx) (fun x => { x with guardLast := 0 })
        (countCmp (mkKey die idx) 0 1
          (reportSlack die (44 + idx) ((dl : Int) - s.m.dev) (winLen (cmpGrid c) f.window) s.m)))))) ∧
  (∀ s die idx c f g dl, getComp s.m (mkKey die idx) = some c → c.job = some (f, dl) → s.m.dev < dl → f.guard = some g →
    exec (.compositionComplete die idx none) s = .next (after s
      (frameComplete (mkKey die idx) f true (updComp (mkKey die idx) (fun x => { x with guardLast := g.crc })
        (countCmp (mkKey die idx) 0 1
          (reportSlack die (44 + idx) ((dl : Int) - s.m.dev) (winLen (cmpGrid c) f.window) s.m))))))

/-- R265 to R289: the encoder's commands and the end of a frame. -/
def Obligations.EncoderRowsComplete : Prop :=
  (∀ k, CompletesIf .encContextOpen encContextOpenSpec (fun d m => encPlace d m = .ok k)
    (fun d m => (own (encOid k) (pathFn m d.path) (encBind k (encOf_ d) m),
      { reply stOK (if pay d 2 1 = 0xFF || oidDie (oid d) = 0 then encOid k else 0) 1 with before := 0 }))) ∧
  (∀ c, CompletesIf .encContextModify encContextModifySpec (fun d m => getEnc m (encKey d) = some c ∧ c.state = 2)
    (fun d m => (updEnc (encKey d) (fun x =>
      { x with keyInt := (encOf_ d).keyInt, swInt := (encOf_ d).swInt, mergeMs := (encOf_ d).mergeMs }) m, reply stOK 0 2))) ∧
  (∀ c, CompletesIf .encContextModify encContextModifySpec (fun d m => getEnc m (encKey d) = some c ∧ c.state = 1)
    (fun d m => (encBind (encKey d) { encOf_ d with rate := c.rate, rateNext := c.rateNext, job := c.job, qpLast := c.qpLast }
      (encUnbind (encKey d) c (encOf_ d).send m), reply stOK 0 1))) ∧
  Completes .encStart encStartSpec (fun d m => (updEnc (encKey d) encBegin m, { reply stOK 0 2 with before := 1 })) ∧
  Completes .encStop encStopSpec (fun d m => (encStop (encKey d) m, { reply stOK 0 1 with before := 2 })) ∧
  (∀ e, CompletesIf .encContextClose encContextCloseSpec
    (fun d m => getEnc m (encKey d) = some e ∧ (e.job.isSome && onEngine m (encKey d)) = false)
    (fun d m => (encGone (encKey d) m, { reply stOK 0 0 with before := e.state }))) ∧
  (∀ e, CompletesIf .encContextClose encContextCloseSpec
    (fun d m => getEnc m (encKey d) = some e ∧ (e.job.isSome && onEngine m (encKey d)) = true)
    (fun d m => (updEnc (encKey d) (fun x => { x with state := 3, job := x.job.map fun j => { j with discard := true } }) m,
      { reply stOK 0 3 with before := e.state }))) ∧
  (∀ e, CompletesIf .encRateSet encRateSetSpec (fun d m => getEnc m (encKey d) = some e ∧ e.rateNext = none)
    (fun d m => (updEnc (encKey d) (fun x => { x with rateNext := some (rateOfD d, payBit d 19 0) }) m, reply stOK 0 (encState d m)))) ∧
  (∀ e r, CompletesIf .encRateSet encRateSetSpec (fun d m => getEnc m (encKey d) = some e ∧ e.rateNext = some (r, true))
    (fun d m => (updEnc (encKey d) (fun x => { x with rateNext := some (rateOfD d, true) }) m, reply stOK 0 (encState d m)))) ∧
  (∀ e, CompletesIf .encKeyframe encKeyframeSpec (fun d m => getEnc m (encKey d) = some e ∧ e.req = none)
    (fun d m => (updEnc (encKey d) (fun x => { x with
        req := some { scope := pay d 0 1, s := pay d 1 1, merged := 0, at_ := m.vault.mono, force := isForce d } }) m, reply stOK 0 2))) ∧
  (∀ e r, CompletesIf .encKeyframe encKeyframeSpec (fun d m => getEnc m (encKey d) = some e ∧ e.req = some r ∧ pay d 0 1 = 1 ∧ r.scope = 1)
    (fun d m => (countEnc (encKey d) 5 1 (updEnc (encKey d) (fun x => { x with
        req := some { r with scope := 1, s := min (pay d 1 1) r.s, merged := r.merged + 1, force := r.force || isForce d } }) m), reply stOK 0 2))) ∧
  (∀ s die idx rows e j, onEngine s.m (mkKey die idx) = true → getEnc s.m (mkKey die idx) = some e → e.job = some j →
    s.m.dev < j.deadline →
    exec (.encodeFrameComplete die idx rows) s = .next (after s (encFinish (mkKey die idx) rows s.m))) ∧
  (∀ s die idx rows e j, onEngine s.m (mkKey die idx) = true → getEnc s.m (mkKey die idx) = some e → e.job = some j →
    j.deadline ≤ s.m.dev →
    exec (.encodeFrameComplete die idx rows) s = .next (after s (encStrobe (mkKey die idx) s.m))) ∧
  (∀ k rows m e j, getEnc m k = some e → e.job = some j → j.discard = true → j.src = none → onEngine m k = true →
    encFinish k rows m = engineFree k (encGone k (updEnc k (fun y => { y with job := none }) m)))

/-- R336, R357, R362, R363, R365 and R389: the signal engines' commands. -/
def Obligations.DspCommandsComplete : Prop :=
  Completes .dspPortSet dspPortSetSpec (fun d m => (applyPortSet d m, reply stOK 0 (dspCode d m))) ∧
  Completes .dspPortClear dspPortClearSpec
    (fun d m => (updDsp d (fun e => writeEntry (pay d 0 1) [0, 0xFFFF, 0xFFFF, 0] { e with ports := tdel e.ports (pay d 0 1) }) m,
      reply stOK 0 (dspCode d m))) ∧
  Completes .dspParamSet dspParamSetSpec
    (fun d m => (updDsp d (paramSwap (dieStart m (oidDie (oid d))) (pay d 0 1) (pay d 1 1)
      ((List.range (pay d 2 1)).map fun i => pay d (8 + 4 * i) 4)) m, reply stOK 0 (dspCode d m))) ∧
  Completes .dspHalt dspHaltSpec
    (fun d m => (dspHalt (oidDie (oid d)) (dspNo d) 7 m, { reply stOK 0 2 with before := 1 })) ∧
  ActsIf .dspRestart dspRestartSpec (fun d m => dspCode d m = 2)
    (fun d _ m =>
      let m1 := dspState (oidDie (oid d)) (dspNo d) 2 1 0 (dspReload (oidDie (oid d)) (dspNo d) m)
      { m1 with deferred := m1.deferred ++ [d] }) ∧
  ActsIf .dspRestart dspRestartSpec (fun d m => dspCode d m = 1)
    (fun d _ m =>
      { dspReload (oidDie (oid d)) (dspNo d) m with deferred := (dspReload (oidDie (oid d)) (dspNo d) m).deferred ++ [d] }) ∧
  (∀ b, CompletesIf .dspPair dspPairSpec
    (fun d m =>
      let m1 := dspJoin (oidDie (oid d)) (dspNo d) b m
      wantJoin d = true ∧ wideBlob m (oidDie (oid d)) (pay d 2 2) = some b ∧ engineBegun m1 (oidDie (oid d)) (dspNo d) = true ∧
      engineBegun m1 (oidDie (oid d)) (dspNo d + 1) = true)
    (fun d m =>
      let m1 := dspJoin (oidDie (oid d)) (dspNo d) b m
      (m1, { reply stOK 0 0xFF with plain := some (dspCode d m, dspCode d m1) }))) ∧
  (∀ b, ActsIf .dspPair dspPairSpec
    (fun d m =>
      let m1 := dspJoin (oidDie (oid d)) (dspNo d) b m
      wantJoin d = true ∧ wideBlob m (oidDie (oid d)) (pay d 2 2) = some b ∧
      (engineBegun m1 (oidDie (oid d)) (dspNo d) = false ∨ engineBegun m1 (oidDie (oid d)) (dspNo d + 1) = false))
    (fun d _ m =>
      let m1 := dspJoin (oidDie (oid d)) (dspNo d) b m
      { m1 with join.waits := m1.join.waits ++ [(d, dspCode d m)], deferred := m1.deferred ++ [d] })) ∧
  ActsIf .dspPair dspPairSpec
    (fun d m =>
      let m1 := dspSplit (oidDie (oid d)) (dspNo d) m
      wantJoin d = false ∧ (engineBegun m1 (oidDie (oid d)) (dspNo d) = false ∨ engineBegun m1 (oidDie (oid d)) (dspNo d + 1) = false))
    (fun d _ m =>
      let m1 := dspSplit (oidDie (oid d)) (dspNo d) m
      { m1 with join.waits := m1.join.waits ++ [(d, dspCode d m)], deferred := m1.deferred ++ [d] })

/-- R344 to R364: every instruction row of a signal engine acts as the engine's next instruction. -/
def Obligations.DspInstructionsIssue : Prop :=
  (Issues .par 0x00 parBody ∧ Issues .mpy 0x01 mpyBody ∧ Issues .mac 0x02 (macBody false 1) ∧ Issues .msu 0x03 (macBody false (-1)) ∧
   Issues .add 0x04 (addBody 1) ∧ Issues .sub 0x05 (addBody (-1)) ∧ Issues .adda 0x06 addaBody ∧ Issues .clr 0x07 clrBody ∧
   Issues .neg 0x08 negBody ∧ Issues .abs 0x09 absBody ∧ Issues .asr 0x0A asrBody ∧ Issues .asl 0x0B aslBody ∧
   Issues .ext 0x0C extBody ∧ Issues .tst 0x0D tstBody ∧ Issues .cmp 0x0E cmpBody ∧ Issues .addd 0x0F (arith32Body 1) ∧
   Issues .subd 0x10 (arith32Body (-1)) ∧ Issues .and 0x11 (logicBody (· &&& ·)) ∧ Issues .or 0x12 (logicBody (· ||| ·)) ∧
   Issues .xor 0x13 (logicBody (· ^^^ ·))) ∧
  (Issues .ldi 0x20 ldiBody ∧ Issues .mov 0x21 movBody ∧ Issues .ldx 0x22 (ldBody false) ∧ Issues .stx 0x23 (stBody false) ∧
   Issues .ldy 0x24 (ldBody true) ∧ Issues .sty 0x25 (stBody true)) ∧
  (Issues .br 0x30 brBody ∧ Issues .call 0x31 callBody ∧ Issues .ret 0x32 retBody ∧ Issues .rti 0x33 rtiBody ∧ Issues .rep 0x34 repBody ∧
   Issues .endl 0x35 endlBody ∧ Issues .pushl 0x36 pushlBody ∧ Issues .popl 0x37 poplBody ∧ Issues .idle 0x38 idleBody) ∧
  (∀ s die n e0, getDsp s.m die n = some e0 → mayIssue e0 0x39 = true → opOf (progAt (commit e0) (commit e0).pc) = 0x39 →
    wordFault (commit e0) (progAt (commit e0) (commit e0).pc) = none → nextTask s.m die n = none →
    exec (.gett die n) s = .next (after s (setDsp die n { commit e0 with idle := 2 } s.m))) ∧
  (∀ s die n e0 t, getDsp s.m die n = some e0 → mayIssue e0 0x39 = true → opOf (progAt (commit e0) (commit e0).pc) = 0x39 →
    wordFault (commit e0) (progAt (commit e0) (commit e0).pc) = none → nextTask s.m die n = some t →
    ∃ u, exec (.gett die n) s = .next u ∧ u.m.tsk.ready = tset s.m.tsk.ready die ((tget s.m.tsk.ready die []).erase t) ∧
      (getDsp u.m die n).map Dsp.idle = some 0 ∧
      (getDsp u.m die n).map Dsp.hand = some ((commit e0).hand ++ [(Config.freeNat s.m.drawn % 2 ^ 32, t)])) ∧
  (∀ s die n e0 h, getDsp s.m die n = some e0 → mayIssue e0 0x3A = true → opOf (progAt (commit e0) (commit e0).pc) = 0x3A →
    wordFault (commit e0) (progAt (commit e0) (commit e0).pc) = none →
    ((commit e0).hand.find? fun h => h.1 == (dReg (commit e0) 0 (rsOf (progAt (commit e0) (commit e0).pc))).toNat) = some h →
    exec (.putt die n) s = .next (after s (taskDone die n h.2 (setDsp die n
      (complete (commit e0) (progAt (commit e0) (commit e0).pc)
        { commit e0 with delay := false, target := none, rti := false, hand := (commit e0).hand.erase h } none) s.m)))) ∧
  (∀ s die n e0, getDsp s.m die n = some e0 → e0.state = 1 → e0.started = true → e0.delay = false → e0.ie = true →
    (e0.winEn && e0.winDue) = true → e0.c3 = false → (commitAll e0).pcstk.length < 16 →
    exec (.dspInterruptEntry die n) s = .next (after s (setDsp die n
      { commitAll e0 with
        pcstk := ((commitAll e0).pc, stWord (commitAll e0) 0) :: (commitAll e0).pcstk, ie := false, pc := 2, winDue := false, idle := 0,
        slot := (commitAll e0).slot + 3 } s.m))) ∧
  (∀ s die n e0, getDsp s.m die n = some e0 → e0.state = 1 → e0.started = true → e0.delay = false → e0.ie = true →
    (e0.winEn && e0.winDue) = false → (e0.parEn && e0.parDue) = true → e0.c3 = false → (commitAll e0).pcstk.length < 16 →
    exec (.dspInterruptEntry die n) s = .next (after s (setDsp die n
      { commitAll e0 with
        pcstk := ((commitAll e0).pc, stWord (commitAll e0) 0) :: (commitAll e0).pcstk, ie := false, pc := 4, parDue := false, idle := 0,
        slot := (commitAll e0).slot + 3 } s.m))) ∧
  (∀ s die n e0 c, getDsp s.m die n = some e0 → mayIssue e0 (opOf (progAt (commit e0) (commit e0).pc)) = true →
    wordFault (commit e0) (progAt (commit e0) (commit e0).pc) = some c →
    exec (.dspFault die n) s = .next (after s (dspHalt die n c (setDsp die n (commit e0) s.m))))

/-! ## Memory, pins, compound units, pairing, structure, links -/

/-- R376 to R382: the memory's commands and rows. -/
def Obligations.MemoryRowsComplete : Prop :=
  Completes .memRateSet memRateSetSpec
    (fun d m => ({ m with mem.rateTarget := pay d 0 1 }, { reply stOK 0 0xFF with plain := some (m.mem.rateTarget, pay d 0 1) })) ∧
  Completes .memEccSet memEccSetSpec
    (fun d m => (poolSize (oidDie (oid d)) { m with mem.poolEcc := tset m.mem.poolEcc (oidDie (oid d)) (payBit d 0 0) },
      { reply stOK 0 0xFF with plain := some (b2n (poolEccOn m (oidDie (oid d))), pay d 0 1) })) ∧
  Completes .memActSet memActSetSpec
    (fun d m => ({ m with mem.threshold := tset m.mem.threshold (oidDie (oid d)) (pay d 0 2) },
      { reply stOK 0 0xFF with plain := some (dieThreshold m (oidDie (oid d)), pay d 0 2) })) ∧
  (∀ s die ch, (∀ c, tget? s.m.mem.chans (memKey die ch) = some c → c.state = 2) →
    exec (.memRefresh die ch) s = .next (after s
      (updChan (memKey die ch) (fun c => { c with rotor := (c.rotor + 1) % 16, lastRefresh := s.m.vault.mono }) s.m))) ∧
  (∀ s die dev t, tickOpen s.m (tkTemp die dev) 10000000 = true →
    ∃ u, exec (.memTempRead die dev t) s = .next u ∧
      ∀ c, tget? s.m.mem.chans (memKey die (2 * dev + 1)) = some c → c.state = 2 →
        tget? u.m.mem.chans (memKey die (2 * dev + 1)) = some { c with temp := hold 255 t.toNat, hot := decide (95 < t) }) ∧
  (∀ s die ch bank c, getChan s.m (memKey die ch) = some c → (getTracker s.m (trackKey die ch bank)).since + trackNs ≤ s.m.vault.mono →
    exec (.actWindowEnd die ch bank) s = .next (after s { s.m with
      mem.trackers := tset s.m.mem.trackers (trackKey die ch bank)
        { rows := [], since := s.m.vault.mono, threshold := dieThreshold s.m die },
      mem.throttles := s.m.mem.throttles.filter fun t => t.1 != memKey die ch || decide (s.m.vault.mono < t.2.2.2) })) ∧
  (∀ s die ch bank row rd ru c t, getChan s.m (memKey die ch) = some c → c.state = 2 →
    t = (let t0 := getTracker s.m (trackKey die ch bank)
      { t0 with rows := row.sampled.foldl trackRun t0.rows }) →
    t.threshold ≤ rowEstimate t.rows row.row →
    ∃ u m1, exec (.rowActivationThreshold die ch bank row rd ru) s = .next (after s u) ∧ Reports m1 u ∧
      m1 = { s.m with
        mem.trackers := tset s.m.mem.trackers (trackKey die ch bank) { t with rows := t.rows.filter fun r => r.1 != row.row },
        mem.throttles := (s.m.mem.throttles.filter fun x => !(x.1 == memKey die ch && x.2.1 == rd && x.2.2.1 == ru)) ++
          [(memKey die ch, rd, ru, t.since + 2 * trackNs)] }) ∧
  (∀ s die ch bank row rd ru c t, getChan s.m (memKey die ch) = some c → c.state = 2 →
    t = (let t0 := getTracker s.m (trackKey die ch bank)
      { t0 with rows := row.sampled.foldl trackRun t0.rows }) →
    rowEstimate t.rows row.row < t.threshold →
    exec (.rowActivationThreshold die ch bank row rd ru) s =
      .next (after s { s.m with mem.trackers := tset s.m.mem.trackers (trackKey die ch bank) t })) ∧
  (∀ s die ch link w c, getChan s.m (memKey die ch) = some c → c.state = 2 → (die = 0 ∨ dieRun s.m die = true) →
    (link = true ∨ memProtected s.m die w = true) → (die = 0 ↔ memRegion w = 3) → hubHolds s.m ch w = true →
    ∃ m3 log, exec (.memEccUncorrectable die ch link w) s = .next (after s (memOutcome die w m3)) ∧
      Reports { s.m with mem.eccSince := tset s.m.mem.eccSince (memKey die ch) log } m3)

/-- R106, R107, R392 and R451 to R460: the pin commands, the monitors and the I3C port; R21 to R23: the links of the Fold. -/
def Obligations.PinRowsComplete : Prop :=
  Completes .pinLoopbackSet pinLoopbackSetSpec
    (fun d m =>
      ({ m with join.loops := if pay d 1 1 = 0 then tdel m.join.loops (loopKey d) else tset m.join.loops (loopKey d) (pay d 1 1, false) },
       { reply stOK 0 0xFF with plain := some (laneMode m (loopPort d), pay d 1 1) })) ∧
  (∀ g, CompletesIf .pinGpioSet pinGpioSetSpec
    (fun d m => gpioPin m (gpioNo d) = g ∧ g.output = payBit d 1 0 ∧ g.driven = payBit d 1 1 ∧ g.fault = 0)
    (fun d m =>
      let g1 := { g with openTest := payBit d 1 2, openRun := if g.openTest && payBit d 1 2 then g.openRun else 0 }
      (gpioOut (gpioNo d) (setGpio (gpioNo d) g1 m), { reply stOK 0 0xFF with plain := some (gpioByte g, gpioByte g1) }))) ∧
  (∀ g, CompletesIf .pinGpioSet pinGpioSetSpec
    (fun d m => gpioPin m (gpioNo d) = g ∧ g.fault = 0 ∧ ¬ (g.output = payBit d 1 0 ∧ g.driven = payBit d 1 1))
    (fun d m =>
      let g1 := { g with output := payBit d 1 0, driven := payBit d 1 1, openTest := payBit d 1 2, mismatchRun := 0,
                         openRun := if g.openTest && payBit d 1 2 then g.openRun else 0, settleUntil := m.vault.mono + 4000 }
      (gpioOut (gpioNo d) (setGpio (gpioNo d) g1 m), { reply stOK 0 0xFF with plain := some (gpioByte g, gpioByte g1) }))) ∧
  CompletesIf .pinRestore pinRestoreSpec (fun d _ => pay d 0 1 = 0)
    (fun d m => (setLanePin (oidDie (oid d)) (pay d 1 1) { lanePin m (oidDie (oid d)) (pay d 1 1) with tx := 0 } m,
      { reply stOK 0 0xFF with plain := some (5, 0) })) ∧
  CompletesIf .pinRestore pinRestoreSpec (fun d _ => pay d 0 1 ≠ 0)
    (fun d m =>
      let n := pay d 1 1
      let g := gpioPin m n
      (gpioOut n (pinClear 0 1 n 5 (setGpio n { g with fault := 0, mismatchRun := 0, settleUntil := m.vault.mono + 4000 } m)),
       { reply stOK 0 0xFF with plain := some (gpioByte g, gpioByte g) })) ∧
  (∀ s die lane lock sig inv order, pinsOn s.m die = true → laneThere s.m die lane = true → lanePers (img s.m) die lane = 6 →
    (lock = true → sig = true) → orderOk order = true → ethPort s.m (die * 16 + lane) = false →
    exec (.ethBlockLockChange die lane lock sig inv order) s = .next (after s
      (setLanePin die lane
        { lanePin s.m die lane with los := !sig, rxInverted := if lock then inv else (lanePin s.m die lane).rxInverted } s.m))) ∧
  (∀ s die lane, pinsOn s.m die = true → laneThere s.m die lane = true → laneIdle s.m die lane = true → (lanePin s.m die lane).tx = 0 →
    exec (.txReceiverDetect die lane false) s = .next (after s
      (laneLost die lane (pinFault die 0 lane 1 (count .pinTxFaults die lane 0
        (setLanePin die lane { lanePin s.m die lane with tx := 1 } s.m)))))) ∧
  (∀ s die lane, pinsOn s.m die = true → laneThere s.m die lane = true → laneIdle s.m die lane = true → (lanePin s.m die lane).tx = 1 →
    exec (.txReceiverDetect die lane true) s = .next (after s
      (pinClear die 0 lane 1 (setLanePin die lane { lanePin s.m die lane with tx := 0 } s.m)))) ∧
  (∀ s die lane c, pinsOn s.m die = true → laneThere s.m die lane = true → 2 ≤ c → c ≤ 4 → (lanePin s.m die lane).tx < 2 →
    exec (.txShortDetect die lane c) s = .next (after s
      (laneLost die lane (pinFault die 0 lane c (driverOff die 0 lane c (count .pinTxFaults die lane 0
        (setLanePin die lane { lanePin s.m die lane with tx := c } s.m))))))) ∧
  (∀ s p lvl, pinsOn s.m 0 = true → p < 32 → (gpioPin s.m p).output = false →
    exec (.gpioReadbackSample p lvl) s = .next (after s (setGpio p { gpioPin s.m p with read := lvl } s.m))) ∧
  (∀ s p, pinsOn s.m 0 = true → p < 32 → (gpioPin s.m p).output = true → s.m.pair.excl = true →
    (gpioPin s.m p).settleUntil ≤ s.m.vault.mono → (gpioPin s.m p).fault ≠ 6 →
    exec (.gpioReadbackSample p (gpioPin s.m p).driven) s = .next (after s
      (setGpio p { gpioPin s.m p with read := (gpioPin s.m p).driven, mismatchRun := 0 } s.m))) ∧
  (∀ s p, pinsOn s.m 0 = true → inRun s.m = true → p < 32 → (gpioPin s.m p).output = false → (gpioPin s.m p).openTest = true →
    (gpioPin s.m p).openRun < 2 →
    exec (.gpioOpenTest p true false) s = .next (after s
      (setGpio p { gpioPin s.m p with openRun := (gpioPin s.m p).openRun + 1 } s.m))) ∧
  (∀ s die b, pinsOn s.m die = true → b < lsBits die → die ≤ s.m.part.media → bit (tget s.m.pin.ls die 0) b = false →
    exec (.lowSpeedReadbackSample die b false) s = .next (after s { s.m with pin.lsRun := tdel s.m.pin.lsRun (die * 16 + b) })) ∧
  (∀ s, pinsOn s.m 0 = true →
    exec .i3cSdaStuck s = .next (after s
      (pinFault 0 3 0 8 (count .i3cRecoveries 0 0 0 { s.m with i3c.pendingRead := false, pin.i3cStuck := 1 })))) ∧
  (∀ s ns, pinsOn s.m 0 = true → 1000000 < ns →
    exec (.i3cSclHeld ns) s = .next (after s
      (pinFault 0 3 0 9 (count .i3cRecoveries 0 0 0 { s.m with i3c.pendingRead := false, pin.i3cStuck := 2 })))) ∧
  (∀ s, pinsOn s.m 0 = true → exec (.i3cTargetReset false) s = .next (after s { s.m with i3c.pendingRead := false })) ∧
  (∀ s d len, imgI3cOwner (img s.m) = 0 → d.opcode ≠ 0x0701 →
    exec (.i3cPrivateWrite d len) s = .next (after s (emit .i3cNack (count .i3cRefused 0 0 0 s.m)))) ∧
  (∀ s d, imgI3cOwner (img s.m) ≠ 0 → s.m.start.phase = .ready → s.m.pwr.state < 3 → d.opcode ≠ 0x0701 → s.m.pin.i3cStuck = 0 →
    exec (.i3cPrivateWrite d 64) s = .next (after s (submit (runDesc specOf) { d with path := .i3c } s.m))) ∧
  (∀ s d len, imgI3cOwner (img s.m) ≠ 0 → s.m.start.phase = .ready → s.m.pwr.state < 3 → d.opcode ≠ 0x0701 →
    s.m.pin.i3cStuck = 0 → len ≠ 64 →
    exec (.i3cPrivateWrite d len) s = .next (after s (emit .i3cNack (count .i3cRefused 0 0 0 s.m)))) ∧
  (∀ s, s.m.start.phase = .ready → s.m.pwr.state < 3 → s.m.pin.i3cStuck = 0 →
    exec .i3cPrivateRead s = .next (after s
      (emit (.i3cRead (if s.m.i3c.busy then 1 else if s.m.i3c.pendingRead then 2 else 0) s.m.i3c.last)
        { s.m with i3c.pendingRead := false }))) ∧
  (∀ s, s.m.start.phase = .ready →
    exec .linkLoss s = .next (after s ((fnList s.m).foldl (fun x f => resetFn f 1 x)
      { s.m with host.linkSpeed := 0, host.linkWidth := 0, host.flit := false }))) ∧
  (∀ s d, conjLanes s.m = true → d.opcode ≠ 0x0701 →
    exec (.peerCommandReceived d) s = .next (after s (submit (runDesc specOf) { d with path := .peer } s.m))) ∧
  (∀ s l x, getLink s.m l = some x → x.state = 2 →
    ∃ t m1 y, exec (.foldAckTimeout l) s = .next t ∧ t.pending = s.pending ∧
      t.m = { lossCheck l 7 m1 with vault := s.m.vault } ∧ getLink m1 l = some y ∧ y.state = 3 ∧ y.downAt = s.m.vault.mono) ∧
  (∀ s l dir tr x, getLink s.m l = some x → x.state = 2 → retryOf x tr = none → restLink s.m l = false →
    ∃ t, exec (.foldIntegrityFail l { dir := dir, transfer := tr }) s = .next t ∧ t.pending = s.pending ∧
      t.m = { updLink l (fun y => { y with retry := y.retry ++ [(tr, dir)] })
                (alarmOnset 5 (count .foldIntegrity 0 l 0 s.m)) with vault := s.m.vault }) ∧
  (∀ s l tr x d0, getLink s.m l = some x → retryOf x tr = some d0 →
    ∃ t y, exec (.foldRetryDone { link := l, transfer := tr } true) s = .next t ∧ t.pending = s.pending ∧
      getLink t.m l = some y ∧ retryOf y tr = none ∧ y.state = x.state) ∧
  (∀ s l x, getLink s.m l = some x → x.state = 3 → x.retrainSpent = false → x.downAt + 100000000 ≤ s.m.vault.mono →
    ∃ t y, exec (.foldRetrainStart l) s = .next t ∧ t.pending = s.pending ∧
      getLink t.m l = some y ∧ y.state = 1 ∧ y.retrainSpent = true ∧ y.trainAt = s.m.vault.mono) ∧
  (∀ s l x e ok, getLink s.m l = some x → linkEnds s.m.part.media l = some e → x.state = 1 →
    s.m.vault.mono ≤ x.trainAt + 20000000 → dieOut s.m e.1 = false → dieOut s.m e.2 = false →
    ∃ t y, exec (.foldRetrainEnd l ok) s = .next t ∧ t.pending = s.pending ∧
      getLink t.m l = some y ∧ y.state = (if ok then 2 else 3) ∧ y.retrainSpent = x.retrainSpent)

/-- R385, R387 and R388: units join and part; R73 to R77, R419 and R423: structures are staged, chosen and re-structured. -/
def Obligations.CompoundRowsComplete : Prop :=
  Completes .codPair codPairSpec
    (fun d m =>
      let m1 := byCommand (oidDie (oid d)) { m with join.cod := joined (pairKey d 0) (wantJoin d) m.join.cod }
      (m1, { reply stOK 0 0xFF with plain := some (codUnitState d m, codUnitState d m1) })) ∧
  Completes .cmpPair cmpPairSpec
    (fun d m =>
      let m1 := cmpRelimit (cmpKey d)
        (byCommand (oidDie (oid d)) { m with join.cmp := joined (oidDie (oid d)) (wantJoin d) m.join.cmp })
      (m1, { reply stOK 0 0xFF with plain := some (cmpState d m, cmpState d m1) })) ∧
  (∀ p l, p ∈ joined p true l) ∧ (∀ p l, p ∉ joined p false l) ∧ (∀ p q b l, p ≠ q → (q ∈ joined p b l ↔ q ∈ l)) ∧
  (∀ i, ActsIf .synStage synStageSpec
    (fun d m => stageViol d m = none ∧ d.image = some i ∧ verifyOnly d = false ∧ stageTarget d = 0)
    (fun d _ m =>
      let m1 := setSlot? 0 none (bootPut (withHash 0 0) m)
      { m1 with syn.staging := some { d := d, target := 0, image := i }, syn.slotStA := (0, 0), deferred := m1.deferred ++ [d] })) ∧
  (∀ s g ok, s.m.syn.staging = some g →
    ∃ t, exec (.synStageWriteDone ok) s = .next t ∧ t.pending = s.pending ∧ t.m.syn.staging = none) ∧
  CompletesIf .synActivate synActivateSpec
    (fun d m => pay d 0 1 = 0 ∧ actSource d ≤ 1 ∧ payBit d 3 0 = false ∧ payBit d 3 1 = false ∧ slotViol m (actSource d) = none ∧
      bootInForce m.syn = none)
    (fun d m =>
      if flashReadOk m = true then (draw (slotStatus (actSource d) none m), reply stOK 0 0xFF)
      else (ruleFail 1 (headViol 0xF02) (draw (slotStatus (actSource d) (some (headViol 0xF02)) m)),
        reply stInvalid (violDetail (headViol 0xF02)) 0xFF)) ∧
  Completes .synBootSet synBootSetSpec
    (fun d m =>
      let ok := bootWriteOk m
      let m1 := if ok then bootPut (fun c => { c with limit := pay d 0 1, watchdogMs := pay d 2 2 }) (draw m) else draw m
      (m1, { reply (if ok then stOK else stTimeout) 0 0xFF with plain := some (bootPlain (bootNow m), bootPlain (bootNow m1)) })) ∧
  (∀ s n, s.m.start.otherVerify = some n →
    ∃ t, exec .otherSlotVerifyDone s = .next t ∧ t.pending = s.pending ∧
      t.m = { slotStatus n (slotViol s.m n) (bootPut (withHash n (foundHash s.m n)) { s.m with start.otherVerify := none }) with
              vault := s.m.vault }) ∧
  (∀ s r res, s.m.syn.rest = some r → r.step = 2 →
    ∃ t, exec (.restructureStepDone true res) s = .next t ∧ t.pending = s.pending ∧
      t.m = { s.m with syn.rest := some { r with step := 3 } }) ∧
  (∀ s r res, s.m.syn.rest = some r → r.step = 5 → res.hubLinkOk = true →
    ∃ t, exec (.restructureStepDone true res) s = .next t ∧ t.pending = s.pending ∧
      t.m = { linksTrain r.die s.m with syn.rest := some { r with step := 6 }, vault := s.m.vault }) ∧
  (∀ s r, s.m.syn.rest = some r → 2 ≤ r.step → r.rollback = false → r.t2 + 300000000 ≤ s.m.vault.mono →
    ∃ t q, exec .restructureTimeout s = .next t ∧ t.pending = s.pending ∧ t.m.syn.run = some r.prev ∧
      t.m.syn.rest = some q ∧ q.step = 3 ∧ q.rollback = true ∧ q.failStep = r.step ∧ q.t0 = s.m.vault.mono)

/-- R397 to R413: the pairing commands and rows. -/
def Obligations.PairingRowsComplete : Prop :=
  CompletesIf .pairConfig pairConfigSpec (fun d m => payBit d 0 0 = (m.pair.role != 0))
    (fun d m =>
      let m1 := { m with
        pair.c := pay d 2 2, pair.e := if m.pair.role = 0 || !payBit d 0 0 || m.pair.e != 0 then pay d 2 2 else 0 }
      (m1, { reply stOK 0 0xFF with plain := some (pairPlain m, pairPlain m1) })) ∧
  CompletesIf .pairConfig pairConfigSpec (fun d m => payBit d 0 0 ≠ (m.pair.role != 0))
    (fun d m =>
      let m1 := pairEnable (payBit d 0 0) { m with
        pair.c := pay d 2 2, pair.e := if m.pair.role = 0 || !payBit d 0 0 || m.pair.e != 0 then pay d 2 2 else 0 }
      (m1, { reply stOK 0 0xFF with plain := some (pairPlain m, pairPlain m1) })) ∧
  CompletesIf .pairClaim pairClaimSpec (fun d _ => pay d 0 1 = 1)
    (fun _ m => ({ m with pair.e := m.pair.c },
      { reply stOK 0 0xFF with plain := some (pairPlain m, pairPlain { m with pair.e := m.pair.c }) })) ∧
  ActsIf .pairClaim pairClaimSpec (fun d m => pay d 0 1 = 0 ∧ mayRelease m = true)
    (fun d _ m => { m with pair.e := 0, pair.release := some (d, m.vault.mono), deferred := m.deferred ++ [d] }) ∧
  CompletesIf .pairWake pairWakeSpec (fun d m => d.path ≠ .peer ∧ anyPathUp m = true)
    (fun _ m => (draw (emit (.peer 5 []) m),
      { reply stOK 0 0xFF with plain := some (pairPlain m, pairPlain (draw (emit (.peer 5 []) m))) })) ∧
  (∀ s d x m1, taken { d with opcode := 0x0903 } s.m = some (x, m1) → earlyFail pairWakeSpec x m1 = none → x.path ≠ .peer →
    anyPathUp m1 = false →
    exec (.pairWake d) s = .next (after s
      (if peerAsleep m1 then
        finish x false { reply stOK 0 0xFF with plain := some (pairPlain m1, pairPlain (draw (emit (.pin 3 0 true) m1))) }
          (draw (emit (.pin 3 0 true) m1))
       else rejectCmd pairWakeSpec x (stPeerRefused, 0) m1))) ∧
  (∀ s, pairActive s.m = true → tickOpen s.m 2 1000000 = true → conjLanes s.m = true →
    exec .heartbeatSend s = .next (after s
      (emit (.peer 1 [(0xA5 * 2 ^ 168 + beatBits s.m) * 2 ^ 16 + crc16 168 (beatBits s.m)])
        (emit (.peer 0 [1, beatBits s.m]) (emit (.peer 0 [0, beatBits s.m]) (tickMark 2 1000000 s.m)))))) ∧
  (∀ s path hb, pairActive s.m = true → conjLanes s.m = true → path ≤ 1 → hb.lane ≤ 1 → hb.crcOk = false → s.m.pair.peer = none →
    exec (.heartbeatReceived path hb) s = .next (after s
      (setBeat path hb.lane (beatBad (beatLane s.m path hb.lane)) (count .pairCrc 0 path 0 s.m)))) ∧
  (∀ s hb, pairActive s.m = true → conjLanes s.m = true → hb.lane ≤ 1 → hb.crcOk = true → hb.serial ≠ s.m.part.serial →
    s.m.pair.peer = none → (beatTake s.m.vault.mono s.m.pair.wire).up = false →
    exec (.heartbeatReceived 1 hb) s = .next (after s
      (pathChange 1 (pathState s.m 1)
        { s.m with pair.wire := beatTake s.m.vault.mono s.m.pair.wire, pair.heard := some s.m.vault.mono }))) ∧
  (∀ s, s.m.pair.role ≠ 0 →
    exec (.pairPathTimeout 1) s = .next (after s (pathChange 1 (pathState s.m 1)
      { s.m with pair.wire := match s.m.pair.wire.last with
          | some t => if t + downNs ≤ s.m.vault.mono then { s.m.pair.wire with run := 0, up := false } else s.m.pair.wire
          | none => s.m.pair.wire }))) ∧
  (∀ s, s.m.pair.role = 3 → s.m.pair.mismatch ≠ 2 → s.m.pair.heard = none →
    exec .pairTakeover s = .next (after s
      (setRole 1 1 (countPair 6 1 { s.m with pair.mismatch := 0, pair.e := s.m.pair.c })))) ∧
  (∀ s d t, s.m.pair.release = some (d, t) → t + 10000000 ≤ s.m.vault.mono → d.opcode ≠ 0x0302 →
    exec .pairClaimReleaseTimeout s = .next (after s
      (finish d false
        { reply stTimeout 0 0xFF with
          plain := some (s.m.pair.c + 2 * 65536, pairPlain { s.m with pair.e := s.m.pair.c, pair.release := none }) }
        { s.m with pair.e := s.m.pair.c, pair.release := none }))) ∧
  (∀ s, s.m.dev / replayNs s.m ≠ 0 → s.m.pair.window ≠ some (s.m.dev / replayNs s.m) → s.m.pair.role < 2 → s.m.pair.delayNext = none →
    exec .replayWindowEnd s = .next (after s (exclTake { s.m with pair.window := some (s.m.dev / replayNs s.m) }))) ∧
  (∀ s r, pairActive s.m = true → s.m.pair.role = 3 → (r.window + 2) * replayNs s.m ≤ s.m.dev →
    exec (.decisionRecordReceived r) s = .next (after s (peerClear (countPair 1 1 s.m)))) ∧
  (∀ s r, pairActive s.m = true → s.m.pair.role = 3 → s.m.dev < (r.window + 2) * replayNs s.m → r.mended = [] → r.agree = [] →
    exec (.decisionRecordReceived r) s = .next (after s
      (peerClear { r.outcomes.foldl replayOne s.m with pair.applied := some r.window }))) ∧
  (∀ s h, pairActive s.m = true → s.m.pair.role = 2 → (s.m.pair.unacked.filter fun w => decide (h.window < w)) ≠ [] →
    exec (.holdingsReceived h) s = .next (after s { s.m with
      pair.holdings := some h, pair.unacked := s.m.pair.unacked.filter fun w => decide (h.window < w) })) ∧
  (∀ s k, pairActive s.m = true → s.m.pair.role = 2 → outKind s.m k = 0 →
    exec (.resyncRequestReceived k) s = .next (after s (noteOut (.streamReset k) (instRestart k s.m)))) ∧
  (∀ s k, pairActive s.m = true → s.m.pair.role = 2 → outKind s.m k ≠ 0 →
    exec (.resyncRequestReceived k) s = .next (after s (refreshReq k 0 s.m)))

/-- R67 to R79 and R423: images, their activation, and re-structuring. Whether the flash answers is a free value, and both of its
answers are stated. -/
def Obligations.StructureRowsComplete : Prop :=
  (∀ i, CompletesIf .synStage synStageSpec
    (fun d m => stageViol d m = none ∧ d.image = some i ∧ verifyOnly d = false ∧ stageTarget d = 2)
    (fun _ m => (stagedEvent 2 i { m with syn.ram := some i, syn.ramDamaged := false }, reply stOK 0 0xFF))) ∧
  CompletesIf .synStage synStageSpec
    (fun d m => stageViol d m = none ∧ d.image.isSome ∧ verifyOnly d = true) (fun _ m => (m, reply stOK 0 0xFF)) ∧
  (∀ i, ActsIf .synStage synStageSpec
    (fun d m => stageViol d m = none ∧ d.image = some i ∧ verifyOnly d = false ∧ stageTarget d < 2)
    (fun d _ m =>
      let t := stageTarget d
      let m1 := setSlot? t none (bootPut (withHash t 0) m)
      { m1 with
        syn.staging := some { d := d, target := t, image := i },
        syn.slotStA := if t = 0 then (0, 0) else m1.syn.slotStA,
        syn.slotStB := if t = 1 then (0, 0) else m1.syn.slotStB,
        deferred := m1.deferred ++ [d] })) ∧
  (∀ v, CompletesIf .synStage synStageSpec (fun d m => stageViol d m = some v)
    (fun _ m => (ruleFail 0 v m, reply stInvalid (violDetail v) 0xFF))) ∧
  (∀ s g, s.m.syn.staging = some g → stageViol g.d s.m = none →
    exec (.synStageWriteDone true) s = .next (after s
      (finish g.d true (reply stOK 0 0xFF) (stagedEvent g.target g.image
        (slotStatus g.target none (bootPut (withHash g.target (slotHash g.image.hash))
          (setSlot? g.target (some g.image) { s.m with syn.staging := none }))))))) ∧
  (∀ s g v, s.m.syn.staging = some g → stageViol g.d s.m = some v →
    exec (.synStageWriteDone true) s = .next (after s
      (finish g.d true (reply stInvalid (violDetail v) 0xFF) (slotStatus g.target (some v)
        (ruleFail 0 v (setSlot? g.target (some g.image) { s.m with syn.staging := none })))))) ∧
  (∀ s g, s.m.syn.staging = some g →
    exec (.synStageWriteDone false) s = .next (after s
      (finish g.d true (reply stTimeout (violDetail (headViol 0xF01)) 0xFF)
        (slotStatus g.target (some (headViol 0xF01)) (ruleFail 0 (headViol 0xF01) { s.m with syn.staging := none }))))) ∧
  CompletesIf .synActivate synActivateSpec
    (fun d m => pay d 0 1 = 0 ∧ actSource d ≤ 1 ∧ slotViol m (actSource d) = none ∧
      (∀ c i, bootInForce m.syn = some c → slotImage m.syn (actSource d) = some i → slotHash i.hash = copyHash c.2 (actSource d)))
    (fun d m =>
      let w := headViol 0xF02
      let m1 := draw (slotStatus (actSource d) (if flashReadOk m then none else some w) m)
      let restart (x : M) : M := if payBit d 3 1 then { x with syn.restartAt := some (x.vault.mono + 10000000) } else x
      if flashReadOk m = false then (ruleFail 1 w m1, reply stInvalid (violDetail w) 0xFF)
      else if payBit d 3 0 = false then (restart m1, reply stOK 0 0xFF)
      else if bootWriteOk m1 = true then
        (restart (bootPut (fun c => { c with preferred := actSource d }) (draw m1)), reply stOK 0 0xFF)
      else (draw m1, reply stTimeout 0 0xFF)) ∧
  (∀ v, CompletesIf .synActivate synActivateSpec
    (fun d m => pay d 0 1 = 0 ∧ actSource d ≤ 1 ∧ slotViol m (actSource d) = some v)
    (fun d m =>
      let w := if flashReadOk m then v else headViol 0xF02
      (ruleFail 1 w (draw (slotStatus (actSource d) (some w) m)), reply stInvalid (violDetail w) 0xFF))) ∧
  (∀ i r, ActsIf .synActivate synActivateSpec
    (fun d m => pay d 0 1 ≠ 0 ∧ actSource d = 2 ∧ slotViol m 2 = none ∧ m.pair.role ≠ 2 ∧ img m = some r ∧ m.syn.ram = some i ∧
      rulesDie r i (actDie d) (audioGuards m) = none)
    (fun d _ m => { restStart d i r (draw m) with deferred := (restStart d i r (draw m)).deferred ++ [d] })) ∧
  (∀ s t, s.m.syn.restartAt = some t → t ≤ s.m.vault.mono →
    exec .activateRestartDue s = .next (after s (beginStart s.m))) ∧
  Completes .synBootSet synBootSetSpec
    (fun d m =>
      let old := bootPlain (bootNow m)
      let m1 := bootPut (fun c => { c with limit := pay d 0 1, watchdogMs := pay d 2 2 }) (draw m)
      if bootWriteOk m then (m1, { reply stOK 0 0xFF with plain := some (old, bootPlain (bootNow m1)) })
      else (draw m, { reply stTimeout 0 0xFF with plain := some (old, old) })) ∧
  (∀ s d x m1 k, Starts keyOwnerEnrolSpec d s.m x m1 → runOwner m1 = some k → s.m.vault.ownerKey = none →
    exec (.keyOwnerEnrol d) s = .next { s with m :=
      { finish x false (reply stOK 0 0xFF) (raise 0x0202 1 synOid [.u 8 (first8 k)] { m1 with vault.ownerKey := some k }) with
        vault := { s.m.vault with ownerKey := some k } } }) ∧
  (∀ s r res, s.m.syn.rest = some r → r.step = 1 → quiesceDue r s.m = true →
    exec (.restructureStepDone true res) s = .next (after s (restQuiesce r s.m))) ∧
  (∀ s r res, s.m.syn.rest = some r → r.step = 2 →
    exec (.restructureStepDone true res) s = .next (after s { s.m with syn.rest := some { r with step := 3 } })) ∧
  (∀ s r res, s.m.syn.rest = some r → r.step = 3 →
    exec (.restructureStepDone true res) s = .next (after s
      (let run := if r.rollback then r.prev else restructured r.prev r.image r.die
       { unitsForm r.die { s.m with syn.run := some run } with syn.rest := some { r with step := 4 } }))) ∧
  (∀ s r res m1, s.m.syn.rest = some r → r.step = 4 → m1 = poolSize r.die (memTrain r.die res.chans s.m) →
    memShort m1 r.die = false →
    exec (.restructureStepDone true res) s = .next (after s { m1 with syn.rest := some { r with step := 5 } })) ∧
  (∀ s r res, s.m.syn.rest = some r → r.step = 5 → res.hubLinkOk = true →
    exec (.restructureStepDone true res) s = .next (after s { linksTrain r.die s.m with syn.rest := some { r with step := 6 } })) ∧
  (∀ s r res, s.m.syn.rest = some r → r.step = 6 → lanesShort s.m r.die res.lanesOk = false →
    exec (.restructureStepDone true res) s = .next (after s (restDone r s.m))) ∧
  (∀ s r res, s.m.syn.rest = some r → r.rollback = false → 2 ≤ r.step →
    exec (.restructureStepDone false res) s = .next (after s { s.m with
      syn.run := some r.prev,
      syn.rest := some { r with step := 3, t0 := s.m.vault.mono, rollback := true, failStep := r.step } })) ∧
  (∀ s r, s.m.syn.rest = some r → 2 ≤ r.step → r.rollback = false → r.t2 + 300000000 ≤ s.m.vault.mono →
    exec .restructureTimeout s = .next (after s { s.m with
      syn.run := some r.prev,
      syn.rest := some { r with step := 3, t0 := s.m.vault.mono, rollback := true, failStep := r.step } })) ∧
  (∀ s r, s.m.syn.rest = some r → 2 ≤ r.step → r.rollback = true → r.t0 + 300000000 ≤ s.m.vault.mono →
    exec .restructureTimeout s = .next (after s (dieLost r.die none s.m)))

/-- R17 to R24: the Fold's rows. A transfer that failed once is retried; a second failure in a row makes its link DOWN. -/
def Obligations.FoldRowsComplete : Prop :=
  (∀ s l x, getLink s.m l = some x → x.state = 2 →
    exec (.foldAckTimeout l) s = .next (after s
      (let m1 := foldFlags (count .foldDown 0 l 0 (updLink l (fun y => { y with state := 3, downAt := s.m.vault.mono }) s.m))
       lossCheck l 7 (announce foldUnit 0x0D03 1 (infraOid 0) [.u 1 l, .u 1 0, .u 2 (linkMask (replacement m1 l))] 0 m1)))) ∧
  (∀ s l dir t x, getLink s.m l = some x → x.state = 2 → retryOf x t = none → restLink s.m l = false →
    exec (.foldIntegrityFail l { dir := dir, transfer := t }) s = .next (after s
      (updLink l (fun y => { y with retry := y.retry ++ [(t, dir)] }) (alarmOnset 5 (count .foldIntegrity 0 l 0 s.m))))) ∧
  (∀ s l dir t x d0, getLink s.m l = some x → retryOf x t = some d0 → restLink s.m l = false →
    exec (.foldIntegrityFail l { dir := dir, transfer := t }) s = .next (after s
      (linkGone l 1 (raise 0x0D01 0 (infraOid 0) [.u 1 l, .u 1 d0, .u 1 1]
        (updLink l (fun y => { y with retry := y.retry.filter fun p => p.1 != t })
          (alarmOnset 5 (count .foldIntegrity 0 l 0 s.m))))))) ∧
  (∀ s l t x d0, getLink s.m l = some x → retryOf x t = some d0 →
    exec (.foldRetryDone { link := l, transfer := t } true) s = .next (after s
      (raise 0x0D01 0 (infraOid 0) [.u 1 l, .u 1 d0, .u 1 0]
        (updLink l (fun y => { y with retry := y.retry.filter fun p => p.1 != t }) s.m)))) ∧
  (∀ s l t x d0, getLink s.m l = some x → retryOf x t = some d0 → restLink s.m l = false →
    exec (.foldRetryDone { link := l, transfer := t } false) s = .next (after s
      (linkGone l 1 (raise 0x0D01 0 (infraOid 0) [.u 1 l, .u 1 d0, .u 1 1]
        (updLink l (fun y => { y with retry := y.retry.filter fun p => p.1 != t })
          (alarmOnset 5 (count .foldIntegrity 0 l 0 s.m))))))) ∧
  (∀ s l x, getLink s.m l = some x → x.state = 3 → x.retrainSpent = false → x.downAt + 100000000 ≤ s.m.vault.mono →
    exec (.foldRetrainStart l) s = .next (after s
      (foldFlags (updLink l (fun y => { y with state := 1, retrainSpent := true, trainAt := s.m.vault.mono }) s.m)))) ∧
  (∀ s l x e, getLink s.m l = some x → linkEnds s.m.part.media l = some e → x.state = 1 → s.m.vault.mono ≤ x.trainAt + 20000000 →
    dieOut s.m e.1 = false → dieOut s.m e.2 = false →
    exec (.foldRetrainEnd l true) s = .next (after s
      (announce foldUnit 0x0D04 3 (infraOid 0) [.u 1 l] 0 (foldFlags (updLink l (fun y => { y with state := 2 }) s.m))))) ∧
  (∀ s l x e, getLink s.m l = some x → linkEnds s.m.part.media l = some e → x.state = 1 →
    exec (.foldRetrainEnd l false) s = .next (after s
      (foldFlags (count .foldDown 0 l 0 (updLink l (fun y => { y with state := 3 }) s.m)))))

/-- R141 and R142: SDI inputs. -/
def Obligations.SdiRowsComplete : Prop :=
  (∀ s die lane p, p = getPort s.m (die * 16 + lane) → lanePers (img s.m) die lane = 4 → lane < 8 → dieRun s.m die = true →
    p.linkUp = true →
    exec (.sdiLockChange die lane none none false) s = .next (after s
      (let m1 := raise 0x0B04 1 (infraOid die) [.u 1 (die * 16 + lane), .u 1 0, .u 1 0, .u 4 0]
          (setPort (die * 16 + lane) { p with linkUp := false, sdiRate := 0, sdiFrac := false, st352 := none } s.m)
       (sdiStreams m1 (die * 16 + lane)).foldl (fun x e => stallStream e.1 x) m1))) ∧
  (∀ s die lane r frac id inv p, p = getPort s.m (die * 16 + lane) → lanePers (img s.m) die lane = 4 → lane < 8 →
    dieRun s.m die = true → p.linkUp = false → 1 ≤ r → r ≤ 3 →
    exec (.sdiLockChange die lane (some (r, frac)) (some id) inv) s = .next (after s
      (raise 0x0B04 1 (infraOid die) [.u 1 (die * 16 + lane), .u 1 1, .u 1 r, .u 4 (id % 2 ^ 32)]
        (setPort (die * 16 + lane) { p with linkUp := true, sdiRate := r, sdiFrac := frac, st352 := some id }
          (laneSensed die lane inv s.m))))) ∧
  (∀ s die lane fmt id groups marks, sdiStreams s.m (die * 16 + lane) = [] →
    exec (.sdiFrameComplete die lane fmt id groups marks) s = .next s) ∧
  (∀ s die lane fmt id groups marks k x l, (getPort s.m (die * 16 + lane)).linkUp = true → lanePers (img s.m) die lane = 4 →
    laneMode s.m (die * 16 + lane) ≠ 3 → sdiStreams s.m (die * 16 + lane) = [(k, x)] → getLeg s.m (strmLeg k) = some l →
    x.kind = 7 → l.state = 3 → legCarries l = true →
    exec (.sdiFrameComplete die lane fmt id groups marks) s = .next (after s
      (sdiAudio k (getPort s.m (die * 16 + lane)).sdiRate x groups marks s.m))) ∧
  (∀ s die lane fmt id groups marks k x l, (getPort s.m (die * 16 + lane)).linkUp = true → lanePers (img s.m) die lane = 4 →
    laneMode s.m (die * 16 + lane) ≠ 3 → sdiStreams s.m (die * 16 + lane) = [(k, x)] → getLeg s.m (strmLeg k) = some l →
    x.kind = 6 → l.state = 3 → legCarries l = true → getStrm s.m k = some x → fmt = x.vfmt →
    exec (.sdiFrameComplete die lane fmt id groups marks) s = .next (after s
      (sdiTake k [] (updStream k (fun y => { y with mismatch := false }) s.m)))) ∧
  (∀ s die lane fmt id groups marks k x l, (getPort s.m (die * 16 + lane)).linkUp = true → lanePers (img s.m) die lane = 4 →
    laneMode s.m (die * 16 + lane) ≠ 3 → sdiStreams s.m (die * 16 + lane) = [(k, x)] → getLeg s.m (strmLeg k) = some l →
    x.kind = 6 → l.state = 3 → legCarries l = true → getStrm s.m k = some x → fmt ≠ x.vfmt → x.mismatch = false →
    exec (.sdiFrameComplete die lane fmt id groups marks) s = .next (after s
      (raise 0x0B05 2 (strmOid k) [.u 2 (keyIdx k), .u 4 (id % 2 ^ 32)]
        (stallStream k (updStream k (fun y => { y with mismatch := true }) s.m)))))

/-! ## Starting, Stem mode, power -/

/-- R14, R415 to R432 and R469: resets, attempts, Stem mode's registers. -/
def Obligations.StartRowsComplete : Prop :=
  (∀ s r, s.m.start.phase = .starting → s.m.start.begun = true → released s.m = true → thermalBad r s.m = false →
    exec (.startAttempt r) s = .next (after s (startTemps r (runSteps r 13 s.m)))) ∧
  (∀ s, s.m.start.porstLow = true →
    exec .porstNRelease s = .next (after s
      (if released { s.m with start.porstLow := false } then beginStart { s.m with start.porstLow := false }
       else { s.m with start.porstLow := false }))) ∧
  (∀ s, s.m.start.perstLow = true →
    exec .perstRelease s = .next (after s
      (if released { s.m with start.perstLow := false } then beginStart { s.m with start.perstLow := false }
       else { s.m with start.perstLow := false }))) ∧
  (∀ s, released s.m = true →
    exec (.resetAssert true) s = .next (after s (resetHold { s.m with start.perstLow := true }))) ∧
  (∀ s, released s.m = true →
    exec (.resetAssert false) s = .next (after s (resetHold { s.m with start.porstLow := true }))) ∧
  (∀ s rail, rail ≤ 7 → bit s.m.start.supplyLow rail = false → released s.m = true →
    exec (.supplyMonitorChange rail false) s = .next (after s
      (resetHold { s.m with start.supplyLow := s.m.start.supplyLow + 2 ^ rail }))) ∧
  (∀ s, s.m.start.phase = .starting → s.m.start.begun = true → s.m.start.t0 + s.m.start.watchdogMs * 1000000 ≤ s.m.vault.mono →
    exec .startWatchdogExpiry s = .next (after s (failStart 7 s.m))) ∧
  (∀ s t, s.m.start.restartBy = some t → exec .attemptRestart s = .next (after s (beginStart s.m))) ∧
  (∀ s n, s.m.start.otherVerify = some n →
    exec .otherSlotVerifyDone s = .next (after s
      (slotStatus n (slotViol s.m n) (bootPut (withHash n (foundHash s.m n)) { s.m with start.otherVerify := none })))) ∧
  (∀ s, ∃ t, exec .alwaysOnPowerUp s = .next t ∧ t.m.vault = { s.m.vault with mono := 0 } ∧ t.m.mem.rateTarget = 3 ∧
    t.m.key.latched = 0 ∧ t.m.key.count = 0 ∧ t.m.start.counter = startReset.counter ∧ t.m.start.porstLow = s.m.start.porstLow) ∧
  (∀ s n, s.m.start.phase = .stem → s.m.start.flashOp = none →
    exec .stmFlashErase s = .next (after s { s.m with start.flashOp := some { op := 1, addr := s.m.start.flashAddr, len := 0 } }) ∧
    exec (.stmFlashProgram n) s =
      .next (after s { s.m with start.flashOp := some { op := 2, addr := s.m.start.flashAddr, len := n % 2 ^ 24 } }) ∧
    exec (.stmFlashRead n) s =
      .next (after s { s.m with start.flashOp := some { op := 3, addr := s.m.start.flashAddr, len := n % 2 ^ 24 } }) ∧
    exec .stmFlashVerify s = .next (after s { s.m with start.flashOp := some { op := 4, addr := s.m.start.flashAddr, len := 0 } }) ∧
    exec .stmBootRecordWrite s =
      .next (after s { s.m with start.flashOp := some { op := 5, addr := s.m.start.flashAddr, len := 0 } })) ∧
  (∀ s ok i data o, s.m.start.flashOp = some o → (flashOutcome o ok s.m).1 = 0 →
    exec (.stmFlashOpDone ok i data) s = .next (after s
      (msixRaise 2 0 (stemRecord 0x02C2 o.addr (o.op * 2 ^ 56 + o.len) stOK
        { flashEffect o ok i data s.m with start.flashOp := none, start.flashOutcome := 0, start.flashRule := 0 })))) ∧
  (∀ s, s.m.start.phase = .stem → unlockOk s.m = true →
    exec .stmDebugUnlock s = .next (after s (stemRecord 0x02C3 0 1 stOK { s.m with start.debugUnlocked := true }))) ∧
  (∀ s, s.m.start.phase = .stem → unlockOk s.m = false →
    exec .stmDebugUnlock s = .next (after s
      (stemRecord 0x02C3 0 0 stOK { s.m with start.unlockRefused := hold 31 (s.m.start.unlockRefused + 1) }))) ∧
  (∀ s, s.m.start.phase = .stem → exec .stmRestart s = .next (after s (beginStart { s.m with start.counter := 0 }))) ∧
  (∀ s, exec .jtagCoreAccess s = .next (after s
    (emit (.read [if s.m.start.phase = .stem ∧ s.m.start.debugUnlocked = true then 1 else 0]) s.m)))

/-- R160, R161, R436 to R449 and R486: Comma state, its wake, the alarm and the thermal sensors. -/
def Obligations.PowerRowsComplete : Prop :=
  Completes .pwrWakeSet pwrWakeSetSpec
    (fun d m => ({ m with pwr.slots := tset m.pwr.slots (pay d 0 1) (wakeCfgOf d) },
      { reply stOK 0 0xFF with plain := some (wakePlain m (pay d 0 1), pay d 0 8) })) ∧
  ActsIf .pwrEnter pwrEnterSpec (fun _ m => m.pair.role ≠ 2)
    (fun d _ m =>
      let mask := pay d 0 2
      let m1 := enterQuiet { m with
        pwr.state := 2, pwr.mask := mask, pwr.latches := 0, pwr.first := none, pwr.runs := [], pwr.kept := [],
        pwr.entry := some d, pwr.entryStep := 1,
        pwr.entryVals := ((List.range 16).filter (bit mask)).map fun i => (i, wakeValue m (wakeCfg m i)),
        pwr.periodMs := if pay d 2 2 = 0 then 100 else pay d 2 2, pwr.aonPpm := if pay d 6 1 = 0 then 100 else pay d 6 1,
        pwr.tcxoPin := if payBit d 4 0 then some (pay d 5 1 % 32, payBit d 5 7) else none,
        pwr.entryMono := m.vault.mono, pwr.lastSample := m.vault.mono }
      { m1 with deferred := m1.deferred ++ [d] }) ∧
  (∀ s vals, (s.m.pwr.state = 2 ∨ s.m.pwr.state = 3) → s.m.pwr.lastSample + samplePeriod s.m ≤ s.m.vault.mono →
    exec (.wakeSample vals) s = .next (after s
      (wakeCheck ((List.range 16).foldl (fun x i => sampleSlot vals i x) { s.m with pwr.lastSample := s.m.vault.mono })))) ∧
  (∀ s slot up, slot < 16 → 2 ≤ s.m.pwr.state → bit s.m.pwr.mask slot = true → (wakeCfg s.m slot).kind = 9 →
    continuous 9 = true → s.m.pwr.entryMono + (wakeCfg s.m slot).delay * 1000000 ≤ s.m.vault.mono →
    exec (.wakeDetect slot up) s = .next (after s (wakeCheck (latchSet slot (Config.freeInt s.m.drawn) (draw s.m))))) ∧
  (∀ s d, s.m.pwr.entry = some d → s.m.pwr.state = 2 → s.m.pwr.entryStep = 5 → s.m.pwr.first = none →
    exec .commaEntryDone s = .next (after s
      (let m1 := finish d false (reply stOK 0 0xFF) s.m
       tcxoDrive false { m1 with
         pwr.state := 3, pwr.entry := none, pwr.entryDev := s.m.dev, pwr.handMono := s.m.vault.mono, pwr.aonTicks := 0 }))) ∧
  (∀ s d, s.m.pwr.entry = some d → s.m.pwr.state = 2 → s.m.pwr.entryStep = 5 → s.m.pwr.first.isSome →
    exec .commaEntryDone s = .next (after s (abandonEntry d s.m))) ∧
  (∀ s fn w, 3 ≤ s.m.pwr.state → s.m.pwr.kept.length < 64 →
    ((List.range 16).find? fun i => bit s.m.pwr.mask i && (wakeCfg s.m i).kind == 7) = none →
    exec (.commaBarWrite fn w true) s = .next (after s { s.m with pwr.kept := s.m.pwr.kept ++ [(fn, w)] })) ∧
  (∀ s dies, s.m.pwr.state = 4 →
    exec (.commaExit false dies) s = .next (after s (wakeRestart s.m))) ∧
  (∀ s dies, s.m.pwr.state = 4 →
    exec (.commaExit true dies) s = .next (after s
      (wakeDone (pairResume (enginesReload (timeResume
        ((runningDies (avsRequest (min s.m.avs.capMv 800) s.m)).foldl
          (fun x d => if dies.contains d then x else dieLost d none x)
          (avsRequest (min s.m.avs.capMv 800) s.m)))))))) ∧
  (∀ s t, s.m.pwr.wakeLow = some t → t + 1000000 ≤ s.m.vault.mono →
    exec .wakeNRelease s = .next (after s (emit (.pin 4 0 true) { s.m with pwr.wakeLow := none }))) ∧
  (∀ s src, sensorOff src s.m = false → (7 ≤ src ∨ bit s.m.key.present src = true ∨ s.m.key.armed = false ∨
      bit s.m.key.enabled src = false) →
    exec (.keyAlarmDetect src) s = .next (after s (alarmOnset src s.m))) ∧
  (∀ s src, bit s.m.key.present src = true →
    exec (.alarmConditionEnd src) s = .next (after s { s.m with key.present := s.m.key.present - 2 ^ src })) ∧
  (∀ s die t, die ≤ s.m.part.media → s.m.pwr.state < 3 → s.m.start.phase = .ready → -400 ≤ t → t ≤ 1500 →
    tempBeyond s.m t = false → bit s.m.key.hotDies die = false → tempOut s.m t = false →
    exec (.thermalReading die t) s = .next (after s { s.m with host.temp := tset s.m.host.temp die (s.m.vault.mono, t) }))

/-! ## The queue, the step, and what every step keeps -/

/-- A step takes the command at the front of the queue and runs it with the queue's rest; on an empty queue the block idles. -/
def Obligations.StepRunsTheFrontCommand : Prop :=
  (∀ c (s : State) rest, step { s with pending := c :: rest } = exec c { s with pending := rest }) ∧
  (∀ s, s.pending = [] → step s = idle s)

/-- Every step answers a next state, whose queue is the rest of the queue: nothing the part is given stops it. -/
def Obligations.EveryStepHasANextState : Prop :=
  ∀ s, ∃ t, step s = .next t ∧ t.pending = s.pending.tail

/-- R67: an enrolled owner key stays what it is in every step, and only a KEY_OWNER_ENROL, as a command of its row or as a
descriptor of its opcode, enrols one; a KEY_OWNER_ENROL that starts enrols the key the running image carries. -/
def Obligations.OwnerKeyIsPermanent : Prop :=
  (∀ s t k, step s = .next t → s.m.vault.ownerKey = some k → t.m.vault.ownerKey = some k) ∧
  (∀ s t c rest, s.pending = c :: rest → step s = .next t → t.m.vault.ownerKey ≠ s.m.vault.ownerKey →
    (∃ d, c = .keyOwnerEnrol d) ∨ (∃ d n, c = .i3cPrivateWrite d n ∧ d.opcode = 0x0701) ∨
    (∃ d, c = .peerCommandReceived d ∧ d.opcode = 0x0701)) ∧
  (∀ s t, s.pending = [] → step s = .next t → t.m.vault.ownerKey ≠ s.m.vault.ownerKey →
    ∃ d m1, nextDesc s.m = some (d, m1) ∧ d.opcode = 0x0701) ∧
  (∀ s d x m1 k, Starts keyOwnerEnrolSpec d s.m x m1 → runOwner m1 = some k → s.m.vault.ownerKey = none →
    ∃ t, exec (.keyOwnerEnrol d) s = .next t ∧ t.pending = s.pending ∧ t.m.vault.ownerKey = some k ∧
      t.m.vault.mono = s.m.vault.mono)

/-- R42: MONO starts at zero; no command but the loss of the always-on supply changes it, no reset and no step of device time among
them; and out of Comma state an idle step adds nothing or one nanosecond. -/
def Obligations.MonoOnlyCounts : Prop :=
  State.reset.m.vault.mono = 0 ∧
  (∀ s t, exec .alwaysOnPowerUp s = .next t → t.m.vault.mono = 0) ∧
  (∀ c s t, c ≠ .alwaysOnPowerUp → exec c s = .next t → t.m.vault.mono = s.m.vault.mono) ∧
  (∀ s t, s.m.pwr.state < 3 → idle s = .next t →
    t.m.vault.mono = s.m.vault.mono ∨ (nextDesc s.m = none ∧ t.m.vault.mono = s.m.vault.mono + 1))

/-- Along every run, an enrolled owner key stays, and the queue shrinks from its front alone. -/
def Obligations.RunsKeepTheOwnerKey : Prop :=
  ∀ s t, Relation.ReflTransGen Steps s t →
    (∀ k, s.m.vault.ownerKey = some k → t.m.vault.ownerKey = some k) ∧ t.pending <:+ s.pending

/-- What the spec says of the part as power comes: MONO at zero, no owner key, every key slot EMPTY with its generation counter at 0,
every wake slot of kind 0, every GPIO pin an input, 256 MiB of BAR4, and nothing in the queue. -/
def Obligations.ResetHoldsWhatTheSpecGives : Prop :=
  State.reset.m.vault.mono = 0 ∧ (∀ i, getSlot State.reset.m i = slotEmpty) ∧ (∀ i, (wakeCfg State.reset.m i).kind = 0) ∧
  (∀ p, (gpioPin State.reset.m p).output = false) ∧ State.reset.m.host.bar4Mib = 256 ∧ State.reset.m.key.enabled = 0x7F ∧
  State.reset.m.start.phase = .starting ∧ State.reset.pending = []

/-- R118, R151, R160, R416, R436 and R455: a start leaves every key slot EMPTY with its counter at 0, the ring empty, every alarm source
enabled, every wake slot of kind 0 and every GPIO pin an input; the owner key, MONO, the flash and the attempt counter are kept. The
rows that begin a start, end one or hold it in reset complete so, and START_ATTEMPT runs the steps one after another. -/
def Obligations.StartsAreClean : Prop :=
  (∀ m, released m = true →
    (∀ i, getSlot (beginStart m) i = slotEmpty) ∧ (beginStart m).jrn.ring = [] ∧ (beginStart m).key.enabled = 0x7F ∧
    (∀ i, (wakeCfg (beginStart m) i).kind = 0) ∧ (∀ p, (gpioPin (beginStart m) p).output = false) ∧
    (beginStart m).vault = m.vault ∧ (beginStart m).syn.slotA = m.syn.slotA ∧ (beginStart m).syn.slotB = m.syn.slotB ∧
    (beginStart m).syn.boot0 = m.syn.boot0 ∧ (beginStart m).syn.boot1 = m.syn.boot1 ∧ (beginStart m).jrn.mirror = m.jrn.mirror ∧
    (beginStart m).start.counter = m.start.counter ∧ (beginStart m).mem.rateTarget = m.mem.rateTarget ∧
    (beginStart m).start.step = 1 ∧ (beginStart m).pend = [] ∧ (beginStart m).owner = [] ∧ (beginStart m).key.slots = []) ∧
  (∀ s i,
    ((i = .porstNRelease ∧ s.m.start.porstLow = true ∧ released { s.m with start.porstLow := false } = true) ∨
     (i = .perstRelease ∧ s.m.start.perstLow = true ∧ released { s.m with start.perstLow := false } = true) ∨
     (∃ rail, i = .supplyMonitorChange rail true ∧ rail ≤ 7 ∧ bit s.m.start.supplyLow rail = true ∧
       released { s.m with start.supplyLow := s.m.start.supplyLow - 2 ^ rail } = true) ∨
     (i = .attemptRestart ∧ s.m.start.restartBy.isSome ∧ released s.m = true) ∨
     (i = .stmRestart ∧ s.m.start.phase = .stem ∧ released s.m = true) ∨
     (i = .activateRestartDue ∧ (∃ at_, s.m.syn.restartAt = some at_ ∧ at_ ≤ s.m.vault.mono) ∧ released s.m = true)) →
    ∃ t, exec i s = .next t ∧ t.pending = s.pending ∧ t.m.start.begun = true ∧ t.m.start.step = 1 ∧
      t.m.start.t0 = s.m.vault.mono ∧ t.m.pend = [] ∧ t.m.owner = [] ∧ t.m.key.slots = [] ∧ t.m.jrn.ring = [] ∧
      t.m.jrn.mirror = s.m.jrn.mirror ∧ t.m.vault = s.m.vault) ∧
  (∀ s i, released s.m = true →
    (i = .resetAssert true ∨ i = .resetAssert false ∨
     (∃ rail, i = .supplyMonitorChange rail false ∧ rail ≤ 7 ∧ bit s.m.start.supplyLow rail = false)) →
    ∃ t, exec i s = .next t ∧ t.pending = s.pending ∧ t.m.start.begun = false ∧ t.m.pend = [] ∧ t.m.owner = [] ∧
      t.m.key.slots = [] ∧ t.m.jrn.mirror = s.m.jrn.mirror ∧ t.m.vault = s.m.vault) ∧
  (∀ s, ∃ t, exec .alwaysOnPowerUp s = .next t ∧ t.pending = s.pending ∧ t.m.start.begun = false ∧ t.m.pend = [] ∧
    t.m.key.slots = [] ∧ t.m.key.latched = 0 ∧ t.m.vault.mono = 0 ∧ t.m.vault.ownerKey = s.m.vault.ownerKey) ∧
  (∀ s, s.m.start.phase = .starting → s.m.start.begun = true → s.m.start.t0 + s.m.start.watchdogMs * 1000000 ≤ s.m.vault.mono →
    ∃ t h, exec .startWatchdogExpiry s = .next t ∧ t.pending = s.pending ∧ t.m.start.begun = false ∧ t.m.pend = [] ∧
      t.m.start.history.head? = some h ∧ h.result = 7 ∧ t.m.vault = s.m.vault) ∧
  (∀ s r, s.m.start.phase = .starting → s.m.start.begun = true → released s.m = true → thermalBad r s.m = false →
    ∃ t, exec (.startAttempt r) s = .next t ∧ t.pending = s.pending ∧
      t.m = { startTemps r (runSteps r 13 s.m) with vault := s.m.vault }) ∧
  (∀ r k m, m.start.phase = .starting → m.start.begun = true → m.start.step < 13 → m.start.step < r.upTo →
    (startStep r (m.start.step + 1) { m with start.step := m.start.step + 1 }).2 = none →
    runSteps r (k + 1) m = runSteps r k (startStep r (m.start.step + 1) { m with start.step := m.start.step + 1 }).1) ∧
  (∀ r k m reason, m.start.phase = .starting → m.start.begun = true → m.start.step < 13 → m.start.step < r.upTo →
    (startStep r (m.start.step + 1) { m with start.step := m.start.step + 1 }).2 = some reason →
    runSteps r (k + 1) m = failStart reason (startStep r (m.start.step + 1) { m with start.step := m.start.step + 1 }).1)

/-- With nothing to take, an idle step out of Comma state moves MONO by one nanosecond and device time by none to two, and changes
nothing but them, the slewing and the holdover, and what a report of a second of authentication failures that has ended touches; a
descriptor that can be taken is executed instead. -/
def Obligations.IdleStepsAreTicks : Prop :=
  (∀ s, s.pending = [] → s.m.pwr.state < 3 → nextDesc s.m = none →
    ∃ t, step s = .next t ∧ t.pending = [] ∧ t.m.vault = { s.m.vault with mono := s.m.vault.mono + 1 } ∧
      s.m.dev ≤ t.m.dev ∧ t.m.dev ≤ s.m.dev + 2 ∧ (s.m.tim.slewLeft = 0 → s.m.tim.quality ≠ 1 →
        s.m.tim.freqAcc.natAbs < 1000000000 → t.m.dev = s.m.dev + 1) ∧
      Reports { s.m with dev := t.m.dev, tim := t.m.tim, vault := t.m.vault, auth := t.m.auth } t.m ∧
      ((∀ a ∈ s.m.auth, ∀ b n, a.2.second = some (b, n) → s.m.vault.mono + 1 < b + nsPerS) →
        t.m = { s.m with dev := t.m.dev, tim := t.m.tim, vault := t.m.vault })) ∧
  (∀ s d m1, s.pending = [] → s.m.pwr.state < 3 → nextDesc s.m = some (d, m1) → d.opcode ≠ 0x0701 →
    step s = .next { s with m := { runDesc specOf d m1 with vault := { s.m.vault with mono := m1.vault.mono } } })

/-! ## Reports, refusals, records -/

/-- Events, records, completions and counts touch only what a report may touch. -/
def Obligations.ReportsTouchOnlyReports : Prop :=
  (∀ type level obj data m, Reports m (raise type level obj data m)) ∧
  (∀ i m, Reports m (jrnAppend i m)) ∧
  (∀ unit code obj old new m, Reports m (action unit code obj old new m)) ∧
  (∀ unit type level obj data old m, Reports m (announce unit type level obj data old m)) ∧
  (∀ d ptr r m, Reports m (finish d ptr r m)) ∧
  (∀ d r m, Reports m (finishQuiet d r m)) ∧
  (∀ d order seq m, Reports m (noteApplied d order seq m)) ∧
  (∀ r i j k m, Reports m (count r i j k m))

/-- R88 and R96: a command of any host row that fails one of its checks changes nothing but what a report touches, and its
submission queue. -/
def Obligations.RefusedCommandsHaveNoEffect : Prop :=
  (∀ i d sp, hostSpec i = some (d, sp) → ∀ s x m1 f,
    taken { d with opcode := sp.opcode } s.m = some (x, m1) → earlyFail sp x m1 = some f →
    ∃ t, exec i s = .next t ∧ t.pending = s.pending ∧ Reports s.m t.m) ∧
  (∀ i d sp, hostSpec i = some (d, sp) → ∀ s x m1 f,
    taken { d with opcode := sp.opcode } s.m = some (x, m1) → earlyFail sp x m1 = none → sp.onExec x m1 = m1 →
    lateFail sp x m1 = some f →
    ∃ t, exec i s = .next t ∧ t.pending = s.pending ∧ Reports s.m t.m)

/-- R96: the checks in their order, each reached only when those before it pass, with its status. -/
def Obligations.ChecksFollowTheirOrder : Prop :=
  (∀ sp d m, d.flags / 8 ≠ 0 → ∃ dt, earlyFail sp d m = some (stReserved, dt)) ∧
  (∀ sp d m, d.flags / 8 = 0 → d.rsvd ≠ 0 → ∃ dt, earlyFail sp d m = some (stReserved, dt)) ∧
  (∀ d m, specOf d.opcode = none → d.flags / 8 = 0 → d.rsvd = 0 →
    runDesc specOf d m = finish d (isPtr d) (reply stInvalid 0 0xFF) m) ∧
  (∀ sp d m b, d.flags / 8 = 0 → d.rsvd = 0 → reservedByte sp d m = some b → earlyFail sp d m = some (stReserved, b)) ∧
  (∀ sp d m, oidCls (oid d) = 5 → bits (oid d) 10 6 ≠ 0 → reservedByte sp d m = some 5) ∧
  (∀ sp d m b, (oidCls (oid d) ≠ 5 ∨ bits (oid d) 10 6 = 0) → payReserved d (if sp.ptr then mb 0 12 else sp.mask) = some b →
    reservedByte sp d m = some (24 + b)) ∧
  (∀ sp d m, d.flags / 8 = 0 → d.rsvd = 0 → reservedByte sp d m = none → sp.ptr = false →
    (permitted m sp.perm d = false ∨ ownOk sp d m = false) → earlyFail sp d m = some (stDenied, pathDomain m d.path % 8)) ∧
  (∀ sp d m, d.flags / 8 = 0 → d.rsvd = 0 → reservedByte sp d m = none → sp.ptr = false →
    permitted m sp.perm d = true → ownOk sp d m = true → sp.deny d m = false → sp.obj d m = false →
    earlyFail sp d m = some (stInvalid, 4)) ∧
  (∀ sp d m, d.flags / 8 = 0 → d.rsvd = 0 → reservedByte sp d m = none → sp.ptr = false →
    permitted m sp.perm d = true → ownOk sp d m = true → sp.deny d m = false → sp.obj d m = true →
    earlyFail sp d m = match commonFields sp d m with
      | some dt => some (stInvalid, dt)
      | none => (sp.fields d m).map fun dt => (namedOut sp d m dt).getD (stInvalid, dt)) ∧
  (∀ sp d m f, earlyFail sp d m = some f → runSpec sp d m = rejectCmd sp d f m) ∧
  (∀ sp d m f, earlyFail sp d m = none → lateFail sp d (sp.onExec d m) = some f → runSpec sp d m = rejectCmd sp d f (sp.onExec d m)) ∧
  (∀ sp d m, earlyFail sp d m = none → lateFail sp d (sp.onExec d m) = none → runSpec sp d m = dispatchCmd sp d (sp.onExec d m))

/-- R99: at most 4,096 commands are held; the one due first is applied first, commands due together in their order of execution; and
one that fails steps 7 to 9 again has no effect. -/
def Obligations.HeldCommandsApplyInOrder : Prop :=
  (∀ sp d m b, sp.when d m = some b → 4096 ≤ m.pend.length → dispatchCmd sp d m = rejectCmd sp d (stBusy, 0) m) ∧
  (∀ sp d m b, sp.when d m = some b → m.pend.length < 4096 →
    (dispatchCmd sp d m).pend.length = m.pend.length + 1 ∧ (dispatchCmd sp d m).jrn = m.jrn) ∧
  (∀ now ps p, dueFirst now ps = some p →
    p.waits = false ∧ p.due ≤ now ∧
    ∃ a b, ps = a ++ p :: b ∧ (∀ q ∈ a, q.waits = false → q.due ≤ now → p.due < q.due) ∧
      (∀ q ∈ b, q.waits = false → q.due ≤ now → p.due ≤ q.due)) ∧
  (∀ now ps, dueFirst now ps = none → ∀ q ∈ ps, q.waits = true ∨ now < q.due) ∧
  (∀ sp p m f, lateFail sp p.d (dropPend p.order m) = some f → Reports (dropPend p.order m) (applyPend sp p m))

/-- R49: the commit time of a held command. -/
def Obligations.CommitTimesNameTheirBoundary : Prop :=
  (∀ sp d m, sp.anyCommit = false → d.commitNs < nsPerS → m.dev + 60 * nsPerS < commitAt d → ∃ dt, commonFields sp d m = some dt) ∧
  (∀ sp d b m, sp.notBefore d m = 0 → commitAt d = 0 → heldLate d b m = false ∧ heldDue sp d b m = firstAfter b m.dev) ∧
  (∀ sp d b m, sp.notBefore d m = 0 → m.dev < commitAt d → m.dev < firstAt b (commitAt d) →
    heldLate d b m = false ∧ heldDue sp d b m = firstAt b (commitAt d)) ∧
  (∀ sp d b m, sp.notBefore d m = 0 → commitAt d ≠ 0 → commitAt d < m.dev →
    heldLate d b m = true ∧ heldDue sp d b m = firstAfter b m.dev) ∧
  (∀ state, (lateReply true (reply stOK 0 state)).status = 0x01) ∧
  (∀ d m, payBit d 0 0 = false → mixCommitSpec.when d m = some .sample)

/-- R43, R44 and R49: the first boundary at or after a device time is a boundary, not before it, and none lies between. -/
def Obligations.FirstBoundaries : Prop :=
  ∀ b t,
    (match b with
     | .audio n => 0 < n
     | .grid n => 0 < n
     | .video num den => 0 < num ∧ 0 < den
     | _ => True) →
    t ≤ firstAt b t ∧ (∃ k, firstAt b t = boundaryAt b k) ∧ (∀ k, t ≤ boundaryAt b k → firstAt b t ≤ boundaryAt b k) ∧
    t < firstAfter b t ∧ (∀ k, t < boundaryAt b k → firstAfter b t ≤ boundaryAt b k)

/-- R43: audio windows and samples. -/
def Obligations.AudioWindowsAndSamples : Prop :=
  (∀ im die, dieWindow im die = 1000000 ∨ dieWindow im die = 250000) ∧
  (∀ im die, dieWindow im die = 250000 ↔ (imgMixer im die).1 = 1) ∧
  (∀ len k, boundaryAt (.audio len) k = k * len) ∧
  (∀ n, boundaryAt .sample n * 48000 < n * 1000000000 + 48000 ∧ n * 1000000000 ≤ boundaryAt .sample n * 48000) ∧
  (∀ n k, (boundaryAt (.audio 1000000) k ≤ boundaryAt .sample n ∧ boundaryAt .sample n < boundaryAt (.audio 1000000) (k + 1)) ↔
    (48 * k ≤ n ∧ n ≤ 48 * k + 47)) ∧
  (∀ n k, (boundaryAt (.audio 250000) k ≤ boundaryAt .sample n ∧ boundaryAt .sample n < boundaryAt (.audio 250000) (k + 1)) ↔
    (12 * k ≤ n ∧ n ≤ 12 * k + 11))

/-- R44: video windows. -/
def Obligations.VideoWindows : Prop :=
  (∀ num den k n, 0 < num → (boundaryAt (.video num den) k ≤ n ↔ k * den * 1000000000 ≤ n * num)) ∧
  (∀ num den k t, 0 < num → 0 < den →
    (boundaryNo (.video num den) t = k ↔ boundaryAt (.video num den) k ≤ t ∧ t < boundaryAt (.video num den) (k + 1))) ∧
  (∀ f, formatWindow f = .video (formatRate f).1 (formatRate f).2) ∧ (∀ c : Ctx, ctxWindow c = .video c.num c.den) ∧
  boundaryAt (.video 60000 1001) 1 = 16683334 ∧ boundaryAt (.video 60000 1001) 3 = 50050000 ∧
  (∀ k, boundaryAt (.video 60000 1001) (k + 3) = boundaryAt (.video 60000 1001) k + 50050000) ∧
  (∀ j k, boundaryAt (.video 60000 1001) (j + 1) - boundaryAt (.video 60000 1001) j ≤
    boundaryAt (.video 60000 1001) (k + 1) - boundaryAt (.video 60000 1001) k + 1)

/-- R116: the chain of the journal. -/
def Obligations.JournalChain : Prop :=
  (∀ i m, ∃ r : JRec,
    (jrnPut i m).jrn.lastChain = r.chain ∧
    r.chain = BitVec.ofNat 128 (shaFirst 16 (leBytes 16 m.jrn.lastChain.toNat ++ recBytes r)) ∧
    (leBytes 16 m.jrn.lastChain.toNat ++ recBytes r).length = 64 ∧ r.seq = m.jrn.head ∧ (jrnPut i m).jrn.head = m.jrn.head + 1 ∧
    (m.jrn.ringUp = true → (jrnPut i m).jrn.ring = (r :: m.jrn.ring).take 16777216) ∧
    (m.jrn.ringUp = false → (jrnPut i m).jrn.buffer = r :: m.jrn.buffer)) ∧
  (∀ m r, mirrorNewest m.jrn = some r → r ∈ m.jrn.mirror ∧ isMirrorGap r = false ∧
    (∀ x ∈ m.jrn.mirror, isMirrorGap x = false → x.seq ≤ r.seq) ∧ (jrnStart m).jrn.lastChain = r.chain) ∧
  (∀ m, mirrorNewest m.jrn = none → (∀ x ∈ m.jrn.mirror, isMirrorGap x = true) ∧ (jrnStart m).jrn.lastChain = 0)

/-- R96 and R111: the end of a command writes one record, with its result, at the next sequence number (a checkpoint may follow it,
R119), and the completion carries that number. -/
def Obligations.CommandsAreRecordedOnce : Prop :=
  (∀ d ptr r m, (finish d ptr r m).jrn.head = m.jrn.head + 
    (if m.jrn.head % 2 ^ 20 = 0 ∧ ¬ (d.opcode % 65536 = 0x04C0 ∧ pathDomain m d.path = 0) then 2 else 1)) ∧
  (∀ d ptr r m, ∃ rec : JRec, rec.seq = m.jrn.head ∧ rec.result = r.status ∧ rec.opcode = d.opcode % 65536 ∧ rec.obj = oid d ∧
    rec.path = pathField d.path ∧ (rec ∈ (finish d ptr r m).jrn.ring ∨ rec ∈ (finish d ptr r m).jrn.buffer)) ∧
  (∀ d ptr r m, d.path = .i3c → (finish d ptr r m).i3c.last =
    some { tag := tagN d, status := r.status, ostate := r.after, seqLo := m.jrn.head % 2 ^ 32, detail := r.detail % 2 ^ 48 }) ∧
  (∀ d ptr r m f c, d.path = .host f 0x3FF c → c / 1024 = (getFn m f).epoch → (getFn (finish d ptr r m) f).directFifo =
    (getFn m f).directFifo ++
      [{ tag := tagN d, status := r.status, ostate := r.after, seqLo := m.jrn.head % 2 ^ 32, detail := r.detail % 2 ^ 48 }])

/-- R101: an event queue holds 512 records; a full one loses the oldest record of the lowest priority present, the arriving record
among them. -/
def Obligations.EventQueueInsertion : Prop :=
  (∀ recs r, recs.length < 512 → evqInsert recs r = { recs := recs ++ [r], lost := none, held := true }) ∧
  (∀ recs r, recs.length ≤ 512 → (evqInsert recs r).recs.length ≤ 512) ∧
  (∀ recs r, 512 ≤ recs.length → ∃ w, (evqInsert recs r).lost = some w ∧ (∀ e ∈ r :: recs, e.level ≤ w) ∧
    ((∃ e ∈ recs, e.level = w) → ∃ a e b, recs = a ++ e :: b ∧ e.level = w ∧ (∀ x ∈ a, x.level ≠ w) ∧
      (evqInsert recs r).recs = a ++ b ++ [r] ∧ (evqInsert recs r).held = true) ∧
    ((∀ e ∈ recs, e.level ≠ w) → r.level = w ∧ (evqInsert recs r).recs = recs ∧ (evqInsert recs r).held = false))

/-- R466: a read of an RC field after an increment returns the value that includes it, clears the field, and touches no other. -/
def Obligations.ReadClearsTheCount : Prop :=
  (∀ (s : State) i n, s.m.pwr.state < 3 → s.m.start.phase ≠ .starting → windowDark (cntAdd i n s.m) i = false →
    exec (.rcFieldRead i) { s with m := cntAdd i n s.m } = .next
      { s with m := emit (.read [hold (cntTop i.reg) (cntGet s.m i + n)]) (cntClear i (cntAdd i n s.m)) }) ∧
  (∀ m i, cntGet (cntClear i m) i = 0) ∧
  (∀ m i j n, j ≠ i → cntGet (cntClear i m) j = cntGet m j ∧ cntGet (cntAdd i n m) j = cntGet m j)

/-! ## Signal engines -/

/-- R343 and R356: a store into X or Y memory is read back by the lane and address that reach its place, and by no other; the sparse
form of a memory is kept. -/
def Obligations.DspMemoryReadsBack : Prop :=
  (∀ e y l a v, l ≤ 1 → memGet (memPut y l a v e) y l a = v) ∧
  (∀ e y l a v y' l' a', l ≤ 1 → l' ≤ 1 → ¬ (y' = y ∧ memLane e l' a' = memLane e l a ∧ a' % 16384 = a % 16384) →
    memGet (memPut y l a v e) y' l' a' = memGet e y' l' a') ∧
  (∀ (t : Tbl Word) a v, tSorted t = true → (∀ p ∈ t, p.2 ≠ 0) → tSorted (wordSet t a v) = true ∧ ∀ p ∈ wordSet t a v, p.2 ≠ 0)

/-- R346: a multiply forms the exact product, and MPY of one lane sends it to its accumulator. -/
def Obligations.DspMultiply : Prop :=
  (∀ x y, prod63 x y = x.toInt * y.toInt * 2) ∧
  (∀ x y, accMin ≤ prod63 x y ∧ prod63 x y ≤ accMax) ∧
  (∀ x y, (BitVec.ofNat 72 (tc 72 (prod63 x y))).toInt = prod63 x y) ∧
  prod63 0x80000000#32 0x80000000#32 = 2 ^ 63 ∧
  (∀ w e, pMove w = 0 → xMove w = 0 → yMove w = 0 → e.wide = false →
    (mpyBody w e).1.flight = e.flight ++
      [{ due := e.slot + 3, lane := 0, tgt := .acc (adOf w),
         val := tc 72 (prod63 (dReg e 0 (xOf w)) (dReg e 0 (yOf w))), mac := true }])

/-- R347: accumulating operations, and ADD, SUB, ADDA, NEG, ABS, ASL, MAC and MSU as they use them. -/
def Obligations.DspAccumulate : Prop :=
  (∀ b i, accMin ≤ i → i ≤ accMax → (BitVec.ofNat 72 (accumulate b i).val).toInt = i ∧ (accumulate b i).gv = false ∧
    (accumulate b i).sv = false) ∧
  (∀ i, (i < accMin ∨ accMax < i) → BitVec.ofNat 72 (accumulate false i).val = BitVec.ofInt 72 i ∧ (accumulate false i).gv = true ∧
    (accumulate false i).sv = false) ∧
  (∀ i, (i < accMin ∨ accMax < i) → (BitVec.ofNat 72 (accumulate true i).val).toInt = (if i < accMin then accMin else accMax) ∧
    (accumulate true i).sv = true ∧ (accumulate true i).gv = false) ∧
  (∀ (xs : List Int) (a : BitVec 72), accMin ≤ acc2i a + xs.sum → acc2i a + xs.sum ≤ accMax →
    acc2i (xs.foldl (fun v x => BitVec.ofNat 72 (accumulate false (acc2i v + x)).val) a) = acc2i a + xs.sum) ∧
  (∀ w e body i, pMove w = 0 → xMove w = 0 → yMove w = 0 → e.wide = false → 0 < e.lanes.length → (getLane e 0).a.length = 4 →
    ((body = addBody 1 ∧ i = acc2i (aReg e 0 (adOf w)) + word2i (dReg e 0 (xOf w)) * 2 ^ 32) ∨
     (body = addBody (-1) ∧ i = acc2i (aReg e 0 (adOf w)) - word2i (dReg e 0 (xOf w)) * 2 ^ 32) ∨
     (body = addaBody ∧ i = acc2i (aReg e 0 (adOf w)) + acc2i (aReg e 0 (asOf w))) ∨
     (body = negBody ∧ i = -acc2i (aReg e 0 (adOf w))) ∨
     (body = absBody ∧ i = ((acc2i (aReg e 0 (adOf w))).natAbs : Int)) ∨
     (body = aslBody ∧ i = acc2i (aReg e 0 (adOf w)) * 2 ^ (yOf w + 1))) →
    aReg (body w e).1 0 (adOf w) = BitVec.ofNat 72 (accumulate (sOf w) i).val ∧
    (getLane (body w e).1 0).gv = ((getLane e 0).gv || (accumulate (sOf w) i).gv) ∧
    (getLane (body w e).1 0).sv = ((getLane e 0).sv || (accumulate (sOf w) i).sv)) ∧
  (∀ w e sign, pMove w = 0 → xMove w = 0 → yMove w = 0 → e.wide = false →
    { due := e.slot + 3, lane := 0, tgt := .acc (adOf w),
      val := (accumulate (sOf w) (acc2i (accFwd e 0 (adOf w)) + sign * prod63 (dReg e 0 (xOf w)) (dReg e 0 (yOf w)))).val,
      mac := true } ∈ (macBody false sign w e).1.flight)

/-- R348: EXT, ASR, ADDD and SUBD. -/
def Obligations.DspExtract : Prop :=
  (∀ b a k, k ≤ 8 → (bits a.toNat (63 + k) (9 - k) = 0 ∨ bits a.toNat (63 + k) (9 - k) = 2 ^ (9 - k) - 1) →
    extract b a k = { val := bits a.toNat (32 + k) 32, gv := false, sv := false, ov := false }) ∧
  (∀ a k, k ≤ 8 → bits a.toNat (63 + k) (9 - k) ≠ 0 → bits a.toNat (63 + k) (9 - k) ≠ 2 ^ (9 - k) - 1 →
    extract true a k = { val := if a.toInt < 0 then 0x80000000 else 0x7FFFFFFF, gv := false, sv := true, ov := false } ∧
    extract false a k = { val := bits a.toNat (32 + k) 32, gv := false, sv := false, ov := true }) ∧
  (∀ a k, k ≤ 8 → (bits a.toNat (63 + k) (9 - k) = 0 ∨ bits a.toNat (63 + k) (9 - k) = 2 ^ (9 - k) - 1) →
    sext 32 (extract false a k).val = a.toInt / 2 ^ (32 + k)) ∧
  (∀ w e, pMove w = 0 → xMove w = 0 → yMove w = 0 → e.wide = false → 0 < e.lanes.length → (getLane e 0).d.length = 16 →
    dReg (extBody w e).1 0 (dOf w) = BitVec.ofNat 32 (extract (sOf w) (aReg e 0 (asOf w)) (yOf w)).val) ∧
  (∀ w e, pMove w = 0 → xMove w = 0 → yMove w = 0 → e.wide = false → 0 < e.lanes.length → (getLane e 0).a.length = 4 →
    (aReg (asrBody w e).1 0 (adOf w)).toInt = (aReg e 0 (adOf w)).toInt / 2 ^ (yOf w + 1)) ∧
  (∀ w e sign, pMove w = 0 → xMove w = 0 → yMove w = 0 → e.wide = false → 0 < e.lanes.length → (getLane e 0).d.length = 16 →
    dReg (arith32Body sign w e).1 0 (dOf w) =
      BitVec.ofNat 32 (result32 (sOf w) (word2i (dReg e 0 (xOf w)) + sign * word2i (dReg e 0 (yOf w)))).val) ∧
  (∀ i, (i < -(2 ^ 31) ∨ 2 ^ 31 - 1 < i) →
    BitVec.ofNat 32 (result32 false i).val = BitVec.ofInt 32 i ∧ (result32 false i).ov = true ∧
    (BitVec.ofNat 32 (result32 true i).val).toInt = (if i < 0 then -(2 ^ 31) else 2 ^ 31 - 1) ∧ (result32 true i).sv = true)

/-! ## Flows and ramps -/

/-- R326: an ordered flow hands on, in token order, the items before its first item that is neither complete nor void, and those
alone. -/
def Obligations.OrderedFlowsHandOnInOrder : Prop :=
  ∀ now f, ∃ front rest : List FItem, f.items = front ++ rest ∧ (∀ i ∈ front, i.st ≠ 0) ∧ (∀ i, rest.head? = some i → i.st = 0) ∧
    (flowHand now f).2 = (front.filter fun i => i.st == 1).map FItem.body ∧
    (flowHand now f).1.items.map FItem.token = rest.map FItem.token ∧ (flowHand now f).1.items.map FItem.st = rest.map FItem.st

/-- R229: the code of a ramp at sample k of N. -/
def Obligations.RampsFollowTheirForm : Prop :=
  (∀ r k, r.n = 0 → rampCode r k = r.b) ∧ (∀ r k, r.n < k → rampCode r k = r.b) ∧
  (∀ r k, 1 ≤ k → k ≤ r.n → (r.a ≤ 65 ∨ r.b ≤ 65) →
    (rampCode r k : Int) = (r.a : Int) + ((r.b : Int) - r.a) * k / (r.n : Int)) ∧
  (∀ r k, 1 ≤ k → k ≤ r.n → 65 < r.a → 65 < r.b → r.a < 2 ^ 20 → r.b < 2 ^ 20 →
    rampCode r k ^ r.n ≤ r.a ^ (r.n - k) * r.b ^ k ∧ r.a ^ (r.n - k) * r.b ^ k < (rampCode r k + 1) ^ r.n)
end

