-- ==== Sys2Proof/Laws/Tables.lean ====
section
/-!
SUPPORT. The laws of sparse tables: a read after a write, what a write leaves alone, and that the canonical form, keys strictly
rising, is kept.
-/
namespace Sys2Proof.Machine

variable {α : Type}

@[simp] theorem tget?_nil (i : Nat) : tget? ([] : Tbl α) i = none := rfl

@[simp] theorem tget?_tset_same (t : Tbl α) (i : Nat) (a : α) : tget? (tset t i a) i = some a := by
  induction t with
  | nil => simp [tset, tget?]
  | cons p r ih =>
    obtain ⟨k, v⟩ := p
    simp only [tset]
    split
    · simp [tget?]
    · split
      · simp [tget?]
      · rename_i h1 h2
        simp [tget?, ih, Ne.symm h2]

theorem tget?_tset_other (t : Tbl α) {i j : Nat} (a : α) (h : j ≠ i) : tget? (tset t i a) j = tget? t j := by
  induction t with
  | nil => simp [tset, tget?, Ne.symm h]
  | cons p r ih =>
    obtain ⟨k, v⟩ := p
    simp only [tset]
    split
    · simp [tget?, Ne.symm h]
    · split
      · rename_i h1 h2
        subst h2
        simp [tget?, Ne.symm h]
      · simp [tget?, ih]

@[simp] theorem tget?_tdel_same (t : Tbl α) (i : Nat) : tget? (tdel t i) i = none := by
  induction t with
  | nil => rfl
  | cons p r ih =>
    obtain ⟨k, v⟩ := p
    simp only [tdel]
    split
    · exact ih
    · rename_i h
      simp [tget?, h, ih]

theorem tget?_tdel_other (t : Tbl α) {i j : Nat} (h : j ≠ i) : tget? (tdel t i) j = tget? t j := by
  induction t with
  | nil => rfl
  | cons p r ih =>
    obtain ⟨k, v⟩ := p
    simp only [tdel]
    split
    · rename_i hk
      subst hk
      simp [tget?, ih, Ne.symm h]
    · simp [tget?, ih]

@[simp] theorem tget_tset_same (t : Tbl α) (i : Nat) (a dflt : α) : tget (tset t i a) i dflt = a := by simp [tget]

theorem tget_tset_other (t : Tbl α) {i j : Nat} (a dflt : α) (h : j ≠ i) : tget (tset t i a) j dflt = tget t j dflt := by
  simp [tget, tget?_tset_other t a h]

/-- Every key of a table is at least a bound. -/
theorem tSorted_cons_iff (k : Nat) (v : α) (r : Tbl α) :
    tSorted ((k, v) :: r) = true ↔ (∀ p ∈ r, k < p.1) ∧ tSorted r = true := by
  induction r generalizing k v with
  | nil => simp [tSorted]
  | cons q r ih =>
    obtain ⟨k2, v2⟩ := q
    simp only [tSorted, Bool.and_eq_true, decide_eq_true_eq]
    constructor
    · intro ⟨h1, h2⟩
      refine ⟨?_, h2⟩
      intro p hp
      rcases List.mem_cons.mp hp with rfl | hp
      · exact h1
      · exact Nat.lt_trans h1 (((ih k2 v2).mp h2).1 p hp)
    · intro ⟨h1, h2⟩
      exact ⟨h1 _ (List.mem_cons_self ..), h2⟩

theorem mem_tset {t : Tbl α} {i : Nat} {a : α} {p : Nat × α} (h : p ∈ tset t i a) : p = (i, a) ∨ p ∈ t := by
  induction t with
  | nil => simp [tset] at h; exact .inl h
  | cons q r ih =>
    obtain ⟨k, v⟩ := q
    simp only [tset] at h
    split at h
    · rcases List.mem_cons.mp h with h | h
      · exact .inl h
      · exact .inr h
    · split at h
      · rcases List.mem_cons.mp h with h | h
        · exact .inl h
        · exact .inr (List.mem_cons_of_mem _ h)
      · rcases List.mem_cons.mp h with h | h
        · exact .inr (h ▸ List.mem_cons_self ..)
        · rcases ih h with h | h
          · exact .inl h
          · exact .inr (List.mem_cons_of_mem _ h)

theorem mem_tdel {t : Tbl α} {i : Nat} {p : Nat × α} (h : p ∈ tdel t i) : p ∈ t ∧ p.1 ≠ i := by
  induction t with
  | nil => simp [tdel] at h
  | cons q r ih =>
    obtain ⟨k, v⟩ := q
    simp only [tdel] at h
    split at h
    · exact ⟨List.mem_cons_of_mem _ (ih h).1, (ih h).2⟩
    · rcases List.mem_cons.mp h with h | h
      · subst h
        exact ⟨List.mem_cons_self .., by assumption⟩
      · exact ⟨List.mem_cons_of_mem _ (ih h).1, (ih h).2⟩

theorem tset_sorted {t : Tbl α} (i : Nat) (a : α) (h : tSorted t = true) : tSorted (tset t i a) = true := by
  induction t with
  | nil => rfl
  | cons q r ih =>
    obtain ⟨k, v⟩ := q
    obtain ⟨h1, h2⟩ := (tSorted_cons_iff k v r).mp h
    simp only [tset]
    split
    · rename_i hlt
      refine (tSorted_cons_iff _ _ _).mpr ⟨?_, h⟩
      intro p hp
      rcases List.mem_cons.mp hp with rfl | hp
      · exact hlt
      · exact Nat.lt_trans hlt (h1 p hp)
    · split
      · rename_i h3
        subst h3
        exact (tSorted_cons_iff _ _ _).mpr ⟨h1, h2⟩
      · rename_i h3 h4
        refine (tSorted_cons_iff _ _ _).mpr ⟨?_, ih h2⟩
        intro p hp
        rcases mem_tset hp with rfl | hp
        · show k < i
          omega
        · exact h1 p hp

theorem tdel_sorted {t : Tbl α} (i : Nat) (h : tSorted t = true) : tSorted (tdel t i) = true := by
  induction t with
  | nil => rfl
  | cons q r ih =>
    obtain ⟨k, v⟩ := q
    obtain ⟨h1, h2⟩ := (tSorted_cons_iff k v r).mp h
    simp only [tdel]
    split
    · exact ih h2
    · exact (tSorted_cons_iff _ _ _).mpr ⟨fun p hp => h1 p (mem_tdel hp).1, ih h2⟩

theorem tmod_sorted {t : Tbl α} (i : Nat) (dflt : α) (f : α → α) (h : tSorted t = true) : tSorted (tmod t i dflt f) = true :=
  tset_sorted i _ h

theorem tupd_sorted {t : Tbl α} (i : Nat) (f : α → α) (h : tSorted t = true) : tSorted (tupd t i f) = true := by
  unfold tupd
  split
  · exact tset_sorted i _ h
  · exact h

end Sys2Proof.Machine
end

