-- ==== Sys2Proof/Laws/Memory.lean ====
section
/-!
SUPPORT. The laws of the memory behind BAR4: its canonical form holds at reset, and the operation that writes it keeps it.
-/
namespace Sys2Proof.Machine

/-- A table is in canonical form when its keys rise strictly along the list. -/
theorem tSorted_iff_pairwise {α : Type} (t : Tbl α) : tSorted t = true ↔ t.Pairwise fun p q => p.1 < q.1 := by
  induction t with
  | nil => simp [tSorted]
  | cons p r ih => rw [List.pairwise_cons, ← ih]; exact tSorted_cons_iff p.1 p.2 r

theorem Memory.wf_iff (w : List Host.Cell) :
    Memory.wf w = true ↔ (w.Pairwise fun p q => p.1 < q.1) ∧ ∀ c ∈ w, c.2 ≠ 0#8 := by
  simp [Memory.wf, tSorted_iff_pairwise]

/-- The bytes a block lists, from an address on: in order, within the block, none of them zero. -/
theorem block_cells (a n : Nat) (l : List Nat) :
    let b : List Host.Cell :=
      (l.zipIdx n).filterMap fun p => if BitVec.ofNat 8 p.1 = 0#8 then none else some (a + p.2, BitVec.ofNat 8 p.1)
    (b.Pairwise fun p q => p.1 < q.1) ∧ ∀ c ∈ b, c.2 ≠ 0#8 ∧ a + n ≤ c.1 ∧ c.1 < a + n + l.length := by
  induction l generalizing n with
  | nil => simp
  | cons x r ih =>
    obtain ⟨h1, h2⟩ := ih (n + 1)
    simp only [List.zipIdx_cons, List.filterMap_cons]
    split
    · exact ⟨h1, fun c hc => ⟨(h2 c hc).1, by have := h2 c hc; omega, by have := h2 c hc; simp only [List.length_cons]; omega⟩⟩
    · rename_i v hv
      split at hv
      · cases hv
      · rename_i hx
        cases hv
        refine ⟨List.pairwise_cons.mpr ⟨fun c hc => by have := h2 c hc; show a + n < c.1; omega, h1⟩, ?_⟩
        intro c hc
        rcases List.mem_cons.mp hc with rfl | hc
        · exact ⟨hx, by simp, by simp only [List.length_cons]; omega⟩
        · have := h2 c hc
          exact ⟨this.1, by omega, by simp only [List.length_cons]; omega⟩

/-- Writing bytes keeps the canonical form. -/
theorem cellsBlock_wf (a : Nat) (l : List Nat) {w : List Host.Cell} (h : Memory.wf w = true) : Memory.wf (cellsBlock a l w) = true := by
  obtain ⟨h1, h2⟩ := (Memory.wf_iff w).mp h
  obtain ⟨h3, h4⟩ := block_cells a 0 l
  refine (Memory.wf_iff _).mpr ⟨?_, ?_⟩
  · refine List.pairwise_append.mpr ⟨List.pairwise_append.mpr ⟨h1.filter _, h3, ?_⟩, h1.filter _, ?_⟩
    · intro p hp q hq
      have := h4 q hq
      have := (List.mem_filter.mp hp).2
      simp at this
      omega
    · intro p hp q hq
      have hq2 := (List.mem_filter.mp hq).2
      simp at hq2
      rcases List.mem_append.mp hp with hp | hp
      · have := (List.mem_filter.mp hp).2
        simp at this
        omega
      · have := h4 p hp
        omega
  · intro c hc
    rcases List.mem_append.mp hc with hc | hc
    · rcases List.mem_append.mp hc with hc | hc
      · exact h2 c (List.mem_filter.mp hc).1
      · exact (h4 c hc).1
    · exact h2 c (List.mem_filter.mp hc).1

theorem reset_backing_wf : Memory.wf State.reset.m.host.backing = true := rfl

/-- A snapshot's copy keeps it. -/
theorem copyPicture_wf (die n a : Nat) {m : M} (h : Memory.wf m.host.backing = true) :
    Memory.wf (copyPicture die n a m).host.backing = true := by
  unfold copyPicture
  split
  · exact cellsBlock_wf a _ h
  · exact h

end Sys2Proof.Machine
end

