-- ==== Sys2Proof/Laws/State.lean ====
section
/-!
SUPPORT. What each update of one piece of the state leaves alone: one equation for each update and field, and for each update
that sets a field, the field it sets.
-/
namespace Sys2Proof.Machine

/-! ### emit -/

@[simp] theorem emit_part (o : Out) (m : M) : (emit o m).part = m.part := rfl
@[simp] theorem emit_vault (o : Out) (m : M) : (emit o m).vault = m.vault := rfl
@[simp] theorem emit_dev (o : Out) (m : M) : (emit o m).dev = m.dev := rfl
@[simp] theorem emit_tim (o : Out) (m : M) : (emit o m).tim = m.tim := rfl
@[simp] theorem emit_pace (o : Out) (m : M) : (emit o m).pace = m.pace := rfl
@[simp] theorem emit_avs (o : Out) (m : M) : (emit o m).avs = m.avs := rfl
@[simp] theorem emit_fold (o : Out) (m : M) : (emit o m).fold = m.fold := rfl
@[simp] theorem emit_syn (o : Out) (m : M) : (emit o m).syn = m.syn := rfl
@[simp] theorem emit_host (o : Out) (m : M) : (emit o m).host = m.host := rfl
@[simp] theorem emit_jrn (o : Out) (m : M) : (emit o m).jrn = m.jrn := rfl
@[simp] theorem emit_i3c (o : Out) (m : M) : (emit o m).i3c = m.i3c := rfl
@[simp] theorem emit_key (o : Out) (m : M) : (emit o m).key = m.key := rfl
@[simp] theorem emit_auth (o : Out) (m : M) : (emit o m).auth = m.auth := rfl
@[simp] theorem emit_mem (o : Out) (m : M) : (emit o m).mem = m.mem := rfl
@[simp] theorem emit_start (o : Out) (m : M) : (emit o m).start = m.start := rfl
@[simp] theorem emit_pwr (o : Out) (m : M) : (emit o m).pwr = m.pwr := rfl
@[simp] theorem emit_pin (o : Out) (m : M) : (emit o m).pin = m.pin := rfl
@[simp] theorem emit_refout (o : Out) (m : M) : (emit o m).refout = m.refout := rfl
@[simp] theorem emit_cnt (o : Out) (m : M) : (emit o m).cnt = m.cnt := rfl
@[simp] theorem emit_lim (o : Out) (m : M) : (emit o m).lim = m.lim := rfl
@[simp] theorem emit_pend (o : Out) (m : M) : (emit o m).pend = m.pend := rfl
@[simp] theorem emit_deferred (o : Out) (m : M) : (emit o m).deferred = m.deferred := rfl
@[simp] theorem emit_owner (o : Out) (m : M) : (emit o m).owner = m.owner := rfl
@[simp] theorem emit_net (o : Out) (m : M) : (emit o m).net = m.net := rfl
@[simp] theorem emit_mix (o : Out) (m : M) : (emit o m).mix = m.mix := rfl
@[simp] theorem emit_cod (o : Out) (m : M) : (emit o m).cod = m.cod := rfl
@[simp] theorem emit_cmp (o : Out) (m : M) : (emit o m).cmp = m.cmp := rfl
@[simp] theorem emit_enc (o : Out) (m : M) : (emit o m).enc = m.enc := rfl
@[simp] theorem emit_snd (o : Out) (m : M) : (emit o m).snd = m.snd := rfl
@[simp] theorem emit_tsk (o : Out) (m : M) : (emit o m).tsk = m.tsk := rfl
@[simp] theorem emit_dsp (o : Out) (m : M) : (emit o m).dsp = m.dsp := rfl
@[simp] theorem emit_join (o : Out) (m : M) : (emit o m).join = m.join := rfl
@[simp] theorem emit_pair (o : Out) (m : M) : (emit o m).pair = m.pair := rfl
@[simp] theorem emit_ticks (o : Out) (m : M) : (emit o m).ticks = m.ticks := rfl
@[simp] theorem emit_sent (o : Out) (m : M) : (emit o m).sent = o :: m.sent := rfl
@[simp] theorem emit_drawn (o : Out) (m : M) : (emit o m).drawn = m.drawn := rfl

/-! ### draw -/

@[simp] theorem draw_part (m : M) : (draw m).part = m.part := rfl
@[simp] theorem draw_vault (m : M) : (draw m).vault = m.vault := rfl
@[simp] theorem draw_dev (m : M) : (draw m).dev = m.dev := rfl
@[simp] theorem draw_tim (m : M) : (draw m).tim = m.tim := rfl
@[simp] theorem draw_pace (m : M) : (draw m).pace = m.pace := rfl
@[simp] theorem draw_avs (m : M) : (draw m).avs = m.avs := rfl
@[simp] theorem draw_fold (m : M) : (draw m).fold = m.fold := rfl
@[simp] theorem draw_syn (m : M) : (draw m).syn = m.syn := rfl
@[simp] theorem draw_host (m : M) : (draw m).host = m.host := rfl
@[simp] theorem draw_jrn (m : M) : (draw m).jrn = m.jrn := rfl
@[simp] theorem draw_i3c (m : M) : (draw m).i3c = m.i3c := rfl
@[simp] theorem draw_key (m : M) : (draw m).key = m.key := rfl
@[simp] theorem draw_auth (m : M) : (draw m).auth = m.auth := rfl
@[simp] theorem draw_mem (m : M) : (draw m).mem = m.mem := rfl
@[simp] theorem draw_start (m : M) : (draw m).start = m.start := rfl
@[simp] theorem draw_pwr (m : M) : (draw m).pwr = m.pwr := rfl
@[simp] theorem draw_pin (m : M) : (draw m).pin = m.pin := rfl
@[simp] theorem draw_refout (m : M) : (draw m).refout = m.refout := rfl
@[simp] theorem draw_cnt (m : M) : (draw m).cnt = m.cnt := rfl
@[simp] theorem draw_lim (m : M) : (draw m).lim = m.lim := rfl
@[simp] theorem draw_pend (m : M) : (draw m).pend = m.pend := rfl
@[simp] theorem draw_deferred (m : M) : (draw m).deferred = m.deferred := rfl
@[simp] theorem draw_owner (m : M) : (draw m).owner = m.owner := rfl
@[simp] theorem draw_net (m : M) : (draw m).net = m.net := rfl
@[simp] theorem draw_mix (m : M) : (draw m).mix = m.mix := rfl
@[simp] theorem draw_cod (m : M) : (draw m).cod = m.cod := rfl
@[simp] theorem draw_cmp (m : M) : (draw m).cmp = m.cmp := rfl
@[simp] theorem draw_enc (m : M) : (draw m).enc = m.enc := rfl
@[simp] theorem draw_snd (m : M) : (draw m).snd = m.snd := rfl
@[simp] theorem draw_tsk (m : M) : (draw m).tsk = m.tsk := rfl
@[simp] theorem draw_dsp (m : M) : (draw m).dsp = m.dsp := rfl
@[simp] theorem draw_join (m : M) : (draw m).join = m.join := rfl
@[simp] theorem draw_pair (m : M) : (draw m).pair = m.pair := rfl
@[simp] theorem draw_ticks (m : M) : (draw m).ticks = m.ticks := rfl
@[simp] theorem draw_sent (m : M) : (draw m).sent = m.sent := rfl
@[simp] theorem draw_drawn (m : M) : (draw m).drawn = m.drawn + 1 := rfl

/-! ### cntAdd -/

@[simp] theorem cntAdd_part (i : CntId) (n : Nat) (m : M) : (cntAdd i n m).part = m.part := rfl
@[simp] theorem cntAdd_vault (i : CntId) (n : Nat) (m : M) : (cntAdd i n m).vault = m.vault := rfl
@[simp] theorem cntAdd_dev (i : CntId) (n : Nat) (m : M) : (cntAdd i n m).dev = m.dev := rfl
@[simp] theorem cntAdd_tim (i : CntId) (n : Nat) (m : M) : (cntAdd i n m).tim = m.tim := rfl
@[simp] theorem cntAdd_pace (i : CntId) (n : Nat) (m : M) : (cntAdd i n m).pace = m.pace := rfl
@[simp] theorem cntAdd_avs (i : CntId) (n : Nat) (m : M) : (cntAdd i n m).avs = m.avs := rfl
@[simp] theorem cntAdd_fold (i : CntId) (n : Nat) (m : M) : (cntAdd i n m).fold = m.fold := rfl
@[simp] theorem cntAdd_syn (i : CntId) (n : Nat) (m : M) : (cntAdd i n m).syn = m.syn := rfl
@[simp] theorem cntAdd_host (i : CntId) (n : Nat) (m : M) : (cntAdd i n m).host = m.host := rfl
@[simp] theorem cntAdd_jrn (i : CntId) (n : Nat) (m : M) : (cntAdd i n m).jrn = m.jrn := rfl
@[simp] theorem cntAdd_i3c (i : CntId) (n : Nat) (m : M) : (cntAdd i n m).i3c = m.i3c := rfl
@[simp] theorem cntAdd_key (i : CntId) (n : Nat) (m : M) : (cntAdd i n m).key = m.key := rfl
@[simp] theorem cntAdd_auth (i : CntId) (n : Nat) (m : M) : (cntAdd i n m).auth = m.auth := rfl
@[simp] theorem cntAdd_mem (i : CntId) (n : Nat) (m : M) : (cntAdd i n m).mem = m.mem := rfl
@[simp] theorem cntAdd_start (i : CntId) (n : Nat) (m : M) : (cntAdd i n m).start = m.start := rfl
@[simp] theorem cntAdd_pwr (i : CntId) (n : Nat) (m : M) : (cntAdd i n m).pwr = m.pwr := rfl
@[simp] theorem cntAdd_pin (i : CntId) (n : Nat) (m : M) : (cntAdd i n m).pin = m.pin := rfl
@[simp] theorem cntAdd_refout (i : CntId) (n : Nat) (m : M) : (cntAdd i n m).refout = m.refout := rfl
@[simp] theorem cntAdd_cnt (i : CntId) (n : Nat) (m : M) : (cntAdd i n m).cnt = cntPut m.cnt i (hold (cntTop i.reg) (cntGet m i + n)) := rfl
@[simp] theorem cntAdd_lim (i : CntId) (n : Nat) (m : M) : (cntAdd i n m).lim = m.lim := rfl
@[simp] theorem cntAdd_pend (i : CntId) (n : Nat) (m : M) : (cntAdd i n m).pend = m.pend := rfl
@[simp] theorem cntAdd_deferred (i : CntId) (n : Nat) (m : M) : (cntAdd i n m).deferred = m.deferred := rfl
@[simp] theorem cntAdd_owner (i : CntId) (n : Nat) (m : M) : (cntAdd i n m).owner = m.owner := rfl
@[simp] theorem cntAdd_net (i : CntId) (n : Nat) (m : M) : (cntAdd i n m).net = m.net := rfl
@[simp] theorem cntAdd_mix (i : CntId) (n : Nat) (m : M) : (cntAdd i n m).mix = m.mix := rfl
@[simp] theorem cntAdd_cod (i : CntId) (n : Nat) (m : M) : (cntAdd i n m).cod = m.cod := rfl
@[simp] theorem cntAdd_cmp (i : CntId) (n : Nat) (m : M) : (cntAdd i n m).cmp = m.cmp := rfl
@[simp] theorem cntAdd_enc (i : CntId) (n : Nat) (m : M) : (cntAdd i n m).enc = m.enc := rfl
@[simp] theorem cntAdd_snd (i : CntId) (n : Nat) (m : M) : (cntAdd i n m).snd = m.snd := rfl
@[simp] theorem cntAdd_tsk (i : CntId) (n : Nat) (m : M) : (cntAdd i n m).tsk = m.tsk := rfl
@[simp] theorem cntAdd_dsp (i : CntId) (n : Nat) (m : M) : (cntAdd i n m).dsp = m.dsp := rfl
@[simp] theorem cntAdd_join (i : CntId) (n : Nat) (m : M) : (cntAdd i n m).join = m.join := rfl
@[simp] theorem cntAdd_pair (i : CntId) (n : Nat) (m : M) : (cntAdd i n m).pair = m.pair := rfl
@[simp] theorem cntAdd_ticks (i : CntId) (n : Nat) (m : M) : (cntAdd i n m).ticks = m.ticks := rfl
@[simp] theorem cntAdd_sent (i : CntId) (n : Nat) (m : M) : (cntAdd i n m).sent = m.sent := rfl
@[simp] theorem cntAdd_drawn (i : CntId) (n : Nat) (m : M) : (cntAdd i n m).drawn = m.drawn := rfl

/-! ### count -/

@[simp] theorem count_part (r : CntReg) (i j k : Nat) (m : M) : (count r i j k m).part = m.part := rfl
@[simp] theorem count_vault (r : CntReg) (i j k : Nat) (m : M) : (count r i j k m).vault = m.vault := rfl
@[simp] theorem count_dev (r : CntReg) (i j k : Nat) (m : M) : (count r i j k m).dev = m.dev := rfl
@[simp] theorem count_tim (r : CntReg) (i j k : Nat) (m : M) : (count r i j k m).tim = m.tim := rfl
@[simp] theorem count_pace (r : CntReg) (i j k : Nat) (m : M) : (count r i j k m).pace = m.pace := rfl
@[simp] theorem count_avs (r : CntReg) (i j k : Nat) (m : M) : (count r i j k m).avs = m.avs := rfl
@[simp] theorem count_fold (r : CntReg) (i j k : Nat) (m : M) : (count r i j k m).fold = m.fold := rfl
@[simp] theorem count_syn (r : CntReg) (i j k : Nat) (m : M) : (count r i j k m).syn = m.syn := rfl
@[simp] theorem count_host (r : CntReg) (i j k : Nat) (m : M) : (count r i j k m).host = m.host := rfl
@[simp] theorem count_jrn (r : CntReg) (i j k : Nat) (m : M) : (count r i j k m).jrn = m.jrn := rfl
@[simp] theorem count_i3c (r : CntReg) (i j k : Nat) (m : M) : (count r i j k m).i3c = m.i3c := rfl
@[simp] theorem count_key (r : CntReg) (i j k : Nat) (m : M) : (count r i j k m).key = m.key := rfl
@[simp] theorem count_auth (r : CntReg) (i j k : Nat) (m : M) : (count r i j k m).auth = m.auth := rfl
@[simp] theorem count_mem (r : CntReg) (i j k : Nat) (m : M) : (count r i j k m).mem = m.mem := rfl
@[simp] theorem count_start (r : CntReg) (i j k : Nat) (m : M) : (count r i j k m).start = m.start := rfl
@[simp] theorem count_pwr (r : CntReg) (i j k : Nat) (m : M) : (count r i j k m).pwr = m.pwr := rfl
@[simp] theorem count_pin (r : CntReg) (i j k : Nat) (m : M) : (count r i j k m).pin = m.pin := rfl
@[simp] theorem count_refout (r : CntReg) (i j k : Nat) (m : M) : (count r i j k m).refout = m.refout := rfl
@[simp] theorem count_lim (r : CntReg) (i j k : Nat) (m : M) : (count r i j k m).lim = m.lim := rfl
@[simp] theorem count_pend (r : CntReg) (i j k : Nat) (m : M) : (count r i j k m).pend = m.pend := rfl
@[simp] theorem count_deferred (r : CntReg) (i j k : Nat) (m : M) : (count r i j k m).deferred = m.deferred := rfl
@[simp] theorem count_owner (r : CntReg) (i j k : Nat) (m : M) : (count r i j k m).owner = m.owner := rfl
@[simp] theorem count_net (r : CntReg) (i j k : Nat) (m : M) : (count r i j k m).net = m.net := rfl
@[simp] theorem count_mix (r : CntReg) (i j k : Nat) (m : M) : (count r i j k m).mix = m.mix := rfl
@[simp] theorem count_cod (r : CntReg) (i j k : Nat) (m : M) : (count r i j k m).cod = m.cod := rfl
@[simp] theorem count_cmp (r : CntReg) (i j k : Nat) (m : M) : (count r i j k m).cmp = m.cmp := rfl
@[simp] theorem count_enc (r : CntReg) (i j k : Nat) (m : M) : (count r i j k m).enc = m.enc := rfl
@[simp] theorem count_snd (r : CntReg) (i j k : Nat) (m : M) : (count r i j k m).snd = m.snd := rfl
@[simp] theorem count_tsk (r : CntReg) (i j k : Nat) (m : M) : (count r i j k m).tsk = m.tsk := rfl
@[simp] theorem count_dsp (r : CntReg) (i j k : Nat) (m : M) : (count r i j k m).dsp = m.dsp := rfl
@[simp] theorem count_join (r : CntReg) (i j k : Nat) (m : M) : (count r i j k m).join = m.join := rfl
@[simp] theorem count_pair (r : CntReg) (i j k : Nat) (m : M) : (count r i j k m).pair = m.pair := rfl
@[simp] theorem count_ticks (r : CntReg) (i j k : Nat) (m : M) : (count r i j k m).ticks = m.ticks := rfl
@[simp] theorem count_sent (r : CntReg) (i j k : Nat) (m : M) : (count r i j k m).sent = m.sent := rfl
@[simp] theorem count_drawn (r : CntReg) (i j k : Nat) (m : M) : (count r i j k m).drawn = m.drawn := rfl

/-! ### cntClear -/

@[simp] theorem cntClear_part (i : CntId) (m : M) : (cntClear i m).part = m.part := rfl
@[simp] theorem cntClear_vault (i : CntId) (m : M) : (cntClear i m).vault = m.vault := rfl
@[simp] theorem cntClear_dev (i : CntId) (m : M) : (cntClear i m).dev = m.dev := rfl
@[simp] theorem cntClear_tim (i : CntId) (m : M) : (cntClear i m).tim = m.tim := rfl
@[simp] theorem cntClear_pace (i : CntId) (m : M) : (cntClear i m).pace = m.pace := rfl
@[simp] theorem cntClear_avs (i : CntId) (m : M) : (cntClear i m).avs = m.avs := rfl
@[simp] theorem cntClear_fold (i : CntId) (m : M) : (cntClear i m).fold = m.fold := rfl
@[simp] theorem cntClear_syn (i : CntId) (m : M) : (cntClear i m).syn = m.syn := rfl
@[simp] theorem cntClear_host (i : CntId) (m : M) : (cntClear i m).host = m.host := rfl
@[simp] theorem cntClear_jrn (i : CntId) (m : M) : (cntClear i m).jrn = m.jrn := rfl
@[simp] theorem cntClear_i3c (i : CntId) (m : M) : (cntClear i m).i3c = m.i3c := rfl
@[simp] theorem cntClear_key (i : CntId) (m : M) : (cntClear i m).key = m.key := rfl
@[simp] theorem cntClear_auth (i : CntId) (m : M) : (cntClear i m).auth = m.auth := rfl
@[simp] theorem cntClear_mem (i : CntId) (m : M) : (cntClear i m).mem = m.mem := rfl
@[simp] theorem cntClear_start (i : CntId) (m : M) : (cntClear i m).start = m.start := rfl
@[simp] theorem cntClear_pwr (i : CntId) (m : M) : (cntClear i m).pwr = m.pwr := rfl
@[simp] theorem cntClear_pin (i : CntId) (m : M) : (cntClear i m).pin = m.pin := rfl
@[simp] theorem cntClear_refout (i : CntId) (m : M) : (cntClear i m).refout = m.refout := rfl
@[simp] theorem cntClear_cnt (i : CntId) (m : M) : (cntClear i m).cnt = cntPut m.cnt i 0 := rfl
@[simp] theorem cntClear_lim (i : CntId) (m : M) : (cntClear i m).lim = m.lim := rfl
@[simp] theorem cntClear_pend (i : CntId) (m : M) : (cntClear i m).pend = m.pend := rfl
@[simp] theorem cntClear_deferred (i : CntId) (m : M) : (cntClear i m).deferred = m.deferred := rfl
@[simp] theorem cntClear_owner (i : CntId) (m : M) : (cntClear i m).owner = m.owner := rfl
@[simp] theorem cntClear_net (i : CntId) (m : M) : (cntClear i m).net = m.net := rfl
@[simp] theorem cntClear_mix (i : CntId) (m : M) : (cntClear i m).mix = m.mix := rfl
@[simp] theorem cntClear_cod (i : CntId) (m : M) : (cntClear i m).cod = m.cod := rfl
@[simp] theorem cntClear_cmp (i : CntId) (m : M) : (cntClear i m).cmp = m.cmp := rfl
@[simp] theorem cntClear_enc (i : CntId) (m : M) : (cntClear i m).enc = m.enc := rfl
@[simp] theorem cntClear_snd (i : CntId) (m : M) : (cntClear i m).snd = m.snd := rfl
@[simp] theorem cntClear_tsk (i : CntId) (m : M) : (cntClear i m).tsk = m.tsk := rfl
@[simp] theorem cntClear_dsp (i : CntId) (m : M) : (cntClear i m).dsp = m.dsp := rfl
@[simp] theorem cntClear_join (i : CntId) (m : M) : (cntClear i m).join = m.join := rfl
@[simp] theorem cntClear_pair (i : CntId) (m : M) : (cntClear i m).pair = m.pair := rfl
@[simp] theorem cntClear_ticks (i : CntId) (m : M) : (cntClear i m).ticks = m.ticks := rfl
@[simp] theorem cntClear_sent (i : CntId) (m : M) : (cntClear i m).sent = m.sent := rfl
@[simp] theorem cntClear_drawn (i : CntId) (m : M) : (cntClear i m).drawn = m.drawn := rfl

/-! ### setFn -/

@[simp] theorem setFn_part (f : Nat) (x : Fn) (m : M) : (setFn f x m).part = m.part := rfl
@[simp] theorem setFn_vault (f : Nat) (x : Fn) (m : M) : (setFn f x m).vault = m.vault := rfl
@[simp] theorem setFn_dev (f : Nat) (x : Fn) (m : M) : (setFn f x m).dev = m.dev := rfl
@[simp] theorem setFn_tim (f : Nat) (x : Fn) (m : M) : (setFn f x m).tim = m.tim := rfl
@[simp] theorem setFn_pace (f : Nat) (x : Fn) (m : M) : (setFn f x m).pace = m.pace := rfl
@[simp] theorem setFn_avs (f : Nat) (x : Fn) (m : M) : (setFn f x m).avs = m.avs := rfl
@[simp] theorem setFn_fold (f : Nat) (x : Fn) (m : M) : (setFn f x m).fold = m.fold := rfl
@[simp] theorem setFn_syn (f : Nat) (x : Fn) (m : M) : (setFn f x m).syn = m.syn := rfl
@[simp] theorem setFn_jrn (f : Nat) (x : Fn) (m : M) : (setFn f x m).jrn = m.jrn := rfl
@[simp] theorem setFn_i3c (f : Nat) (x : Fn) (m : M) : (setFn f x m).i3c = m.i3c := rfl
@[simp] theorem setFn_key (f : Nat) (x : Fn) (m : M) : (setFn f x m).key = m.key := rfl
@[simp] theorem setFn_auth (f : Nat) (x : Fn) (m : M) : (setFn f x m).auth = m.auth := rfl
@[simp] theorem setFn_mem (f : Nat) (x : Fn) (m : M) : (setFn f x m).mem = m.mem := rfl
@[simp] theorem setFn_start (f : Nat) (x : Fn) (m : M) : (setFn f x m).start = m.start := rfl
@[simp] theorem setFn_pwr (f : Nat) (x : Fn) (m : M) : (setFn f x m).pwr = m.pwr := rfl
@[simp] theorem setFn_pin (f : Nat) (x : Fn) (m : M) : (setFn f x m).pin = m.pin := rfl
@[simp] theorem setFn_refout (f : Nat) (x : Fn) (m : M) : (setFn f x m).refout = m.refout := rfl
@[simp] theorem setFn_cnt (f : Nat) (x : Fn) (m : M) : (setFn f x m).cnt = m.cnt := rfl
@[simp] theorem setFn_lim (f : Nat) (x : Fn) (m : M) : (setFn f x m).lim = m.lim := rfl
@[simp] theorem setFn_pend (f : Nat) (x : Fn) (m : M) : (setFn f x m).pend = m.pend := rfl
@[simp] theorem setFn_deferred (f : Nat) (x : Fn) (m : M) : (setFn f x m).deferred = m.deferred := rfl
@[simp] theorem setFn_owner (f : Nat) (x : Fn) (m : M) : (setFn f x m).owner = m.owner := rfl
@[simp] theorem setFn_net (f : Nat) (x : Fn) (m : M) : (setFn f x m).net = m.net := rfl
@[simp] theorem setFn_mix (f : Nat) (x : Fn) (m : M) : (setFn f x m).mix = m.mix := rfl
@[simp] theorem setFn_cod (f : Nat) (x : Fn) (m : M) : (setFn f x m).cod = m.cod := rfl
@[simp] theorem setFn_cmp (f : Nat) (x : Fn) (m : M) : (setFn f x m).cmp = m.cmp := rfl
@[simp] theorem setFn_enc (f : Nat) (x : Fn) (m : M) : (setFn f x m).enc = m.enc := rfl
@[simp] theorem setFn_snd (f : Nat) (x : Fn) (m : M) : (setFn f x m).snd = m.snd := rfl
@[simp] theorem setFn_tsk (f : Nat) (x : Fn) (m : M) : (setFn f x m).tsk = m.tsk := rfl
@[simp] theorem setFn_dsp (f : Nat) (x : Fn) (m : M) : (setFn f x m).dsp = m.dsp := rfl
@[simp] theorem setFn_join (f : Nat) (x : Fn) (m : M) : (setFn f x m).join = m.join := rfl
@[simp] theorem setFn_pair (f : Nat) (x : Fn) (m : M) : (setFn f x m).pair = m.pair := rfl
@[simp] theorem setFn_ticks (f : Nat) (x : Fn) (m : M) : (setFn f x m).ticks = m.ticks := rfl
@[simp] theorem setFn_sent (f : Nat) (x : Fn) (m : M) : (setFn f x m).sent = m.sent := rfl
@[simp] theorem setFn_drawn (f : Nat) (x : Fn) (m : M) : (setFn f x m).drawn = m.drawn := rfl

/-! ### own -/

@[simp] theorem own_part (o fn : Nat) (m : M) : (own o fn m).part = m.part := rfl
@[simp] theorem own_vault (o fn : Nat) (m : M) : (own o fn m).vault = m.vault := rfl
@[simp] theorem own_dev (o fn : Nat) (m : M) : (own o fn m).dev = m.dev := rfl
@[simp] theorem own_tim (o fn : Nat) (m : M) : (own o fn m).tim = m.tim := rfl
@[simp] theorem own_pace (o fn : Nat) (m : M) : (own o fn m).pace = m.pace := rfl
@[simp] theorem own_avs (o fn : Nat) (m : M) : (own o fn m).avs = m.avs := rfl
@[simp] theorem own_fold (o fn : Nat) (m : M) : (own o fn m).fold = m.fold := rfl
@[simp] theorem own_syn (o fn : Nat) (m : M) : (own o fn m).syn = m.syn := rfl
@[simp] theorem own_host (o fn : Nat) (m : M) : (own o fn m).host = m.host := rfl
@[simp] theorem own_jrn (o fn : Nat) (m : M) : (own o fn m).jrn = m.jrn := rfl
@[simp] theorem own_i3c (o fn : Nat) (m : M) : (own o fn m).i3c = m.i3c := rfl
@[simp] theorem own_key (o fn : Nat) (m : M) : (own o fn m).key = m.key := rfl
@[simp] theorem own_auth (o fn : Nat) (m : M) : (own o fn m).auth = m.auth := rfl
@[simp] theorem own_mem (o fn : Nat) (m : M) : (own o fn m).mem = m.mem := rfl
@[simp] theorem own_start (o fn : Nat) (m : M) : (own o fn m).start = m.start := rfl
@[simp] theorem own_pwr (o fn : Nat) (m : M) : (own o fn m).pwr = m.pwr := rfl
@[simp] theorem own_pin (o fn : Nat) (m : M) : (own o fn m).pin = m.pin := rfl
@[simp] theorem own_refout (o fn : Nat) (m : M) : (own o fn m).refout = m.refout := rfl
@[simp] theorem own_cnt (o fn : Nat) (m : M) : (own o fn m).cnt = m.cnt := rfl
@[simp] theorem own_lim (o fn : Nat) (m : M) : (own o fn m).lim = m.lim := rfl
@[simp] theorem own_pend (o fn : Nat) (m : M) : (own o fn m).pend = m.pend := rfl
@[simp] theorem own_deferred (o fn : Nat) (m : M) : (own o fn m).deferred = m.deferred := rfl
@[simp] theorem own_owner (o fn : Nat) (m : M) : (own o fn m).owner = tset m.owner o fn := rfl
@[simp] theorem own_net (o fn : Nat) (m : M) : (own o fn m).net = m.net := rfl
@[simp] theorem own_mix (o fn : Nat) (m : M) : (own o fn m).mix = m.mix := rfl
@[simp] theorem own_cod (o fn : Nat) (m : M) : (own o fn m).cod = m.cod := rfl
@[simp] theorem own_cmp (o fn : Nat) (m : M) : (own o fn m).cmp = m.cmp := rfl
@[simp] theorem own_enc (o fn : Nat) (m : M) : (own o fn m).enc = m.enc := rfl
@[simp] theorem own_snd (o fn : Nat) (m : M) : (own o fn m).snd = m.snd := rfl
@[simp] theorem own_tsk (o fn : Nat) (m : M) : (own o fn m).tsk = m.tsk := rfl
@[simp] theorem own_dsp (o fn : Nat) (m : M) : (own o fn m).dsp = m.dsp := rfl
@[simp] theorem own_join (o fn : Nat) (m : M) : (own o fn m).join = m.join := rfl
@[simp] theorem own_pair (o fn : Nat) (m : M) : (own o fn m).pair = m.pair := rfl
@[simp] theorem own_ticks (o fn : Nat) (m : M) : (own o fn m).ticks = m.ticks := rfl
@[simp] theorem own_sent (o fn : Nat) (m : M) : (own o fn m).sent = m.sent := rfl
@[simp] theorem own_drawn (o fn : Nat) (m : M) : (own o fn m).drawn = m.drawn := rfl

/-! ### disown -/

@[simp] theorem disown_part (o : Nat) (m : M) : (disown o m).part = m.part := rfl
@[simp] theorem disown_vault (o : Nat) (m : M) : (disown o m).vault = m.vault := rfl
@[simp] theorem disown_dev (o : Nat) (m : M) : (disown o m).dev = m.dev := rfl
@[simp] theorem disown_tim (o : Nat) (m : M) : (disown o m).tim = m.tim := rfl
@[simp] theorem disown_pace (o : Nat) (m : M) : (disown o m).pace = m.pace := rfl
@[simp] theorem disown_avs (o : Nat) (m : M) : (disown o m).avs = m.avs := rfl
@[simp] theorem disown_fold (o : Nat) (m : M) : (disown o m).fold = m.fold := rfl
@[simp] theorem disown_syn (o : Nat) (m : M) : (disown o m).syn = m.syn := rfl
@[simp] theorem disown_host (o : Nat) (m : M) : (disown o m).host = m.host := rfl
@[simp] theorem disown_jrn (o : Nat) (m : M) : (disown o m).jrn = m.jrn := rfl
@[simp] theorem disown_i3c (o : Nat) (m : M) : (disown o m).i3c = m.i3c := rfl
@[simp] theorem disown_key (o : Nat) (m : M) : (disown o m).key = m.key := rfl
@[simp] theorem disown_auth (o : Nat) (m : M) : (disown o m).auth = m.auth := rfl
@[simp] theorem disown_mem (o : Nat) (m : M) : (disown o m).mem = m.mem := rfl
@[simp] theorem disown_start (o : Nat) (m : M) : (disown o m).start = m.start := rfl
@[simp] theorem disown_pwr (o : Nat) (m : M) : (disown o m).pwr = m.pwr := rfl
@[simp] theorem disown_pin (o : Nat) (m : M) : (disown o m).pin = m.pin := rfl
@[simp] theorem disown_refout (o : Nat) (m : M) : (disown o m).refout = m.refout := rfl
@[simp] theorem disown_cnt (o : Nat) (m : M) : (disown o m).cnt = m.cnt := rfl
@[simp] theorem disown_lim (o : Nat) (m : M) : (disown o m).lim = m.lim := rfl
@[simp] theorem disown_pend (o : Nat) (m : M) : (disown o m).pend = m.pend := rfl
@[simp] theorem disown_deferred (o : Nat) (m : M) : (disown o m).deferred = m.deferred := rfl
@[simp] theorem disown_owner (o : Nat) (m : M) : (disown o m).owner = tdel m.owner o := rfl
@[simp] theorem disown_net (o : Nat) (m : M) : (disown o m).net = m.net := rfl
@[simp] theorem disown_mix (o : Nat) (m : M) : (disown o m).mix = m.mix := rfl
@[simp] theorem disown_cod (o : Nat) (m : M) : (disown o m).cod = m.cod := rfl
@[simp] theorem disown_cmp (o : Nat) (m : M) : (disown o m).cmp = m.cmp := rfl
@[simp] theorem disown_enc (o : Nat) (m : M) : (disown o m).enc = m.enc := rfl
@[simp] theorem disown_snd (o : Nat) (m : M) : (disown o m).snd = m.snd := rfl
@[simp] theorem disown_tsk (o : Nat) (m : M) : (disown o m).tsk = m.tsk := rfl
@[simp] theorem disown_dsp (o : Nat) (m : M) : (disown o m).dsp = m.dsp := rfl
@[simp] theorem disown_join (o : Nat) (m : M) : (disown o m).join = m.join := rfl
@[simp] theorem disown_pair (o : Nat) (m : M) : (disown o m).pair = m.pair := rfl
@[simp] theorem disown_ticks (o : Nat) (m : M) : (disown o m).ticks = m.ticks := rfl
@[simp] theorem disown_sent (o : Nat) (m : M) : (disown o m).sent = m.sent := rfl
@[simp] theorem disown_drawn (o : Nat) (m : M) : (disown o m).drawn = m.drawn := rfl

/-! ### exportSet -/

@[simp] theorem exportSet_part (q : Nat) (e : ExportQ) (m : M) : (exportSet q e m).part = m.part := rfl
@[simp] theorem exportSet_vault (q : Nat) (e : ExportQ) (m : M) : (exportSet q e m).vault = m.vault := rfl
@[simp] theorem exportSet_dev (q : Nat) (e : ExportQ) (m : M) : (exportSet q e m).dev = m.dev := rfl
@[simp] theorem exportSet_tim (q : Nat) (e : ExportQ) (m : M) : (exportSet q e m).tim = m.tim := rfl
@[simp] theorem exportSet_pace (q : Nat) (e : ExportQ) (m : M) : (exportSet q e m).pace = m.pace := rfl
@[simp] theorem exportSet_avs (q : Nat) (e : ExportQ) (m : M) : (exportSet q e m).avs = m.avs := rfl
@[simp] theorem exportSet_fold (q : Nat) (e : ExportQ) (m : M) : (exportSet q e m).fold = m.fold := rfl
@[simp] theorem exportSet_syn (q : Nat) (e : ExportQ) (m : M) : (exportSet q e m).syn = m.syn := rfl
@[simp] theorem exportSet_host (q : Nat) (e : ExportQ) (m : M) : (exportSet q e m).host = m.host := rfl
@[simp] theorem exportSet_i3c (q : Nat) (e : ExportQ) (m : M) : (exportSet q e m).i3c = m.i3c := rfl
@[simp] theorem exportSet_key (q : Nat) (e : ExportQ) (m : M) : (exportSet q e m).key = m.key := rfl
@[simp] theorem exportSet_auth (q : Nat) (e : ExportQ) (m : M) : (exportSet q e m).auth = m.auth := rfl
@[simp] theorem exportSet_mem (q : Nat) (e : ExportQ) (m : M) : (exportSet q e m).mem = m.mem := rfl
@[simp] theorem exportSet_start (q : Nat) (e : ExportQ) (m : M) : (exportSet q e m).start = m.start := rfl
@[simp] theorem exportSet_pwr (q : Nat) (e : ExportQ) (m : M) : (exportSet q e m).pwr = m.pwr := rfl
@[simp] theorem exportSet_pin (q : Nat) (e : ExportQ) (m : M) : (exportSet q e m).pin = m.pin := rfl
@[simp] theorem exportSet_refout (q : Nat) (e : ExportQ) (m : M) : (exportSet q e m).refout = m.refout := rfl
@[simp] theorem exportSet_cnt (q : Nat) (e : ExportQ) (m : M) : (exportSet q e m).cnt = m.cnt := rfl
@[simp] theorem exportSet_lim (q : Nat) (e : ExportQ) (m : M) : (exportSet q e m).lim = m.lim := rfl
@[simp] theorem exportSet_pend (q : Nat) (e : ExportQ) (m : M) : (exportSet q e m).pend = m.pend := rfl
@[simp] theorem exportSet_deferred (q : Nat) (e : ExportQ) (m : M) : (exportSet q e m).deferred = m.deferred := rfl
@[simp] theorem exportSet_owner (q : Nat) (e : ExportQ) (m : M) : (exportSet q e m).owner = m.owner := rfl
@[simp] theorem exportSet_net (q : Nat) (e : ExportQ) (m : M) : (exportSet q e m).net = m.net := rfl
@[simp] theorem exportSet_mix (q : Nat) (e : ExportQ) (m : M) : (exportSet q e m).mix = m.mix := rfl
@[simp] theorem exportSet_cod (q : Nat) (e : ExportQ) (m : M) : (exportSet q e m).cod = m.cod := rfl
@[simp] theorem exportSet_cmp (q : Nat) (e : ExportQ) (m : M) : (exportSet q e m).cmp = m.cmp := rfl
@[simp] theorem exportSet_enc (q : Nat) (e : ExportQ) (m : M) : (exportSet q e m).enc = m.enc := rfl
@[simp] theorem exportSet_snd (q : Nat) (e : ExportQ) (m : M) : (exportSet q e m).snd = m.snd := rfl
@[simp] theorem exportSet_tsk (q : Nat) (e : ExportQ) (m : M) : (exportSet q e m).tsk = m.tsk := rfl
@[simp] theorem exportSet_dsp (q : Nat) (e : ExportQ) (m : M) : (exportSet q e m).dsp = m.dsp := rfl
@[simp] theorem exportSet_join (q : Nat) (e : ExportQ) (m : M) : (exportSet q e m).join = m.join := rfl
@[simp] theorem exportSet_pair (q : Nat) (e : ExportQ) (m : M) : (exportSet q e m).pair = m.pair := rfl
@[simp] theorem exportSet_ticks (q : Nat) (e : ExportQ) (m : M) : (exportSet q e m).ticks = m.ticks := rfl
@[simp] theorem exportSet_sent (q : Nat) (e : ExportQ) (m : M) : (exportSet q e m).sent = m.sent := rfl
@[simp] theorem exportSet_drawn (q : Nat) (e : ExportQ) (m : M) : (exportSet q e m).drawn = m.drawn := rfl

/-! ### jrnPut -/

@[simp] theorem jrnPut_part (i : JIn) (m : M) : (jrnPut i m).part = m.part := rfl
@[simp] theorem jrnPut_vault (i : JIn) (m : M) : (jrnPut i m).vault = m.vault := rfl
@[simp] theorem jrnPut_dev (i : JIn) (m : M) : (jrnPut i m).dev = m.dev := rfl
@[simp] theorem jrnPut_tim (i : JIn) (m : M) : (jrnPut i m).tim = m.tim := rfl
@[simp] theorem jrnPut_pace (i : JIn) (m : M) : (jrnPut i m).pace = m.pace := rfl
@[simp] theorem jrnPut_avs (i : JIn) (m : M) : (jrnPut i m).avs = m.avs := rfl
@[simp] theorem jrnPut_fold (i : JIn) (m : M) : (jrnPut i m).fold = m.fold := rfl
@[simp] theorem jrnPut_syn (i : JIn) (m : M) : (jrnPut i m).syn = m.syn := rfl
@[simp] theorem jrnPut_host (i : JIn) (m : M) : (jrnPut i m).host = m.host := rfl
@[simp] theorem jrnPut_i3c (i : JIn) (m : M) : (jrnPut i m).i3c = m.i3c := rfl
@[simp] theorem jrnPut_key (i : JIn) (m : M) : (jrnPut i m).key = m.key := rfl
@[simp] theorem jrnPut_auth (i : JIn) (m : M) : (jrnPut i m).auth = m.auth := rfl
@[simp] theorem jrnPut_mem (i : JIn) (m : M) : (jrnPut i m).mem = m.mem := rfl
@[simp] theorem jrnPut_start (i : JIn) (m : M) : (jrnPut i m).start = m.start := rfl
@[simp] theorem jrnPut_pwr (i : JIn) (m : M) : (jrnPut i m).pwr = m.pwr := rfl
@[simp] theorem jrnPut_pin (i : JIn) (m : M) : (jrnPut i m).pin = m.pin := rfl
@[simp] theorem jrnPut_refout (i : JIn) (m : M) : (jrnPut i m).refout = m.refout := rfl
@[simp] theorem jrnPut_cnt (i : JIn) (m : M) : (jrnPut i m).cnt = m.cnt := rfl
@[simp] theorem jrnPut_lim (i : JIn) (m : M) : (jrnPut i m).lim = m.lim := rfl
@[simp] theorem jrnPut_pend (i : JIn) (m : M) : (jrnPut i m).pend = m.pend := rfl
@[simp] theorem jrnPut_deferred (i : JIn) (m : M) : (jrnPut i m).deferred = m.deferred := rfl
@[simp] theorem jrnPut_owner (i : JIn) (m : M) : (jrnPut i m).owner = m.owner := rfl
@[simp] theorem jrnPut_net (i : JIn) (m : M) : (jrnPut i m).net = m.net := rfl
@[simp] theorem jrnPut_mix (i : JIn) (m : M) : (jrnPut i m).mix = m.mix := rfl
@[simp] theorem jrnPut_cod (i : JIn) (m : M) : (jrnPut i m).cod = m.cod := rfl
@[simp] theorem jrnPut_cmp (i : JIn) (m : M) : (jrnPut i m).cmp = m.cmp := rfl
@[simp] theorem jrnPut_enc (i : JIn) (m : M) : (jrnPut i m).enc = m.enc := rfl
@[simp] theorem jrnPut_snd (i : JIn) (m : M) : (jrnPut i m).snd = m.snd := rfl
@[simp] theorem jrnPut_tsk (i : JIn) (m : M) : (jrnPut i m).tsk = m.tsk := rfl
@[simp] theorem jrnPut_dsp (i : JIn) (m : M) : (jrnPut i m).dsp = m.dsp := rfl
@[simp] theorem jrnPut_join (i : JIn) (m : M) : (jrnPut i m).join = m.join := rfl
@[simp] theorem jrnPut_pair (i : JIn) (m : M) : (jrnPut i m).pair = m.pair := rfl
@[simp] theorem jrnPut_ticks (i : JIn) (m : M) : (jrnPut i m).ticks = m.ticks := rfl
@[simp] theorem jrnPut_sent (i : JIn) (m : M) : (jrnPut i m).sent = m.sent := rfl
@[simp] theorem jrnPut_drawn (i : JIn) (m : M) : (jrnPut i m).drawn = m.drawn := rfl

/-! ### setSlot -/

@[simp] theorem setSlot_part (i : Nat) (k : KeySlot) (m : M) : (setSlot i k m).part = m.part := rfl
@[simp] theorem setSlot_vault (i : Nat) (k : KeySlot) (m : M) : (setSlot i k m).vault = m.vault := rfl
@[simp] theorem setSlot_dev (i : Nat) (k : KeySlot) (m : M) : (setSlot i k m).dev = m.dev := rfl
@[simp] theorem setSlot_tim (i : Nat) (k : KeySlot) (m : M) : (setSlot i k m).tim = m.tim := rfl
@[simp] theorem setSlot_pace (i : Nat) (k : KeySlot) (m : M) : (setSlot i k m).pace = m.pace := rfl
@[simp] theorem setSlot_avs (i : Nat) (k : KeySlot) (m : M) : (setSlot i k m).avs = m.avs := rfl
@[simp] theorem setSlot_fold (i : Nat) (k : KeySlot) (m : M) : (setSlot i k m).fold = m.fold := rfl
@[simp] theorem setSlot_syn (i : Nat) (k : KeySlot) (m : M) : (setSlot i k m).syn = m.syn := rfl
@[simp] theorem setSlot_host (i : Nat) (k : KeySlot) (m : M) : (setSlot i k m).host = m.host := rfl
@[simp] theorem setSlot_jrn (i : Nat) (k : KeySlot) (m : M) : (setSlot i k m).jrn = m.jrn := rfl
@[simp] theorem setSlot_i3c (i : Nat) (k : KeySlot) (m : M) : (setSlot i k m).i3c = m.i3c := rfl
@[simp] theorem setSlot_auth (i : Nat) (k : KeySlot) (m : M) : (setSlot i k m).auth = m.auth := rfl
@[simp] theorem setSlot_mem (i : Nat) (k : KeySlot) (m : M) : (setSlot i k m).mem = m.mem := rfl
@[simp] theorem setSlot_start (i : Nat) (k : KeySlot) (m : M) : (setSlot i k m).start = m.start := rfl
@[simp] theorem setSlot_pwr (i : Nat) (k : KeySlot) (m : M) : (setSlot i k m).pwr = m.pwr := rfl
@[simp] theorem setSlot_pin (i : Nat) (k : KeySlot) (m : M) : (setSlot i k m).pin = m.pin := rfl
@[simp] theorem setSlot_refout (i : Nat) (k : KeySlot) (m : M) : (setSlot i k m).refout = m.refout := rfl
@[simp] theorem setSlot_cnt (i : Nat) (k : KeySlot) (m : M) : (setSlot i k m).cnt = m.cnt := rfl
@[simp] theorem setSlot_lim (i : Nat) (k : KeySlot) (m : M) : (setSlot i k m).lim = m.lim := rfl
@[simp] theorem setSlot_pend (i : Nat) (k : KeySlot) (m : M) : (setSlot i k m).pend = m.pend := rfl
@[simp] theorem setSlot_deferred (i : Nat) (k : KeySlot) (m : M) : (setSlot i k m).deferred = m.deferred := rfl
@[simp] theorem setSlot_owner (i : Nat) (k : KeySlot) (m : M) : (setSlot i k m).owner = m.owner := rfl
@[simp] theorem setSlot_net (i : Nat) (k : KeySlot) (m : M) : (setSlot i k m).net = m.net := rfl
@[simp] theorem setSlot_mix (i : Nat) (k : KeySlot) (m : M) : (setSlot i k m).mix = m.mix := rfl
@[simp] theorem setSlot_cod (i : Nat) (k : KeySlot) (m : M) : (setSlot i k m).cod = m.cod := rfl
@[simp] theorem setSlot_cmp (i : Nat) (k : KeySlot) (m : M) : (setSlot i k m).cmp = m.cmp := rfl
@[simp] theorem setSlot_enc (i : Nat) (k : KeySlot) (m : M) : (setSlot i k m).enc = m.enc := rfl
@[simp] theorem setSlot_snd (i : Nat) (k : KeySlot) (m : M) : (setSlot i k m).snd = m.snd := rfl
@[simp] theorem setSlot_tsk (i : Nat) (k : KeySlot) (m : M) : (setSlot i k m).tsk = m.tsk := rfl
@[simp] theorem setSlot_dsp (i : Nat) (k : KeySlot) (m : M) : (setSlot i k m).dsp = m.dsp := rfl
@[simp] theorem setSlot_join (i : Nat) (k : KeySlot) (m : M) : (setSlot i k m).join = m.join := rfl
@[simp] theorem setSlot_pair (i : Nat) (k : KeySlot) (m : M) : (setSlot i k m).pair = m.pair := rfl
@[simp] theorem setSlot_ticks (i : Nat) (k : KeySlot) (m : M) : (setSlot i k m).ticks = m.ticks := rfl
@[simp] theorem setSlot_sent (i : Nat) (k : KeySlot) (m : M) : (setSlot i k m).sent = m.sent := rfl
@[simp] theorem setSlot_drawn (i : Nat) (k : KeySlot) (m : M) : (setSlot i k m).drawn = m.drawn := rfl

/-! ### setDsp -/

@[simp] theorem setDsp_part (die n : Nat) (e : Dsp) (m : M) : (setDsp die n e m).part = m.part := rfl
@[simp] theorem setDsp_vault (die n : Nat) (e : Dsp) (m : M) : (setDsp die n e m).vault = m.vault := rfl
@[simp] theorem setDsp_dev (die n : Nat) (e : Dsp) (m : M) : (setDsp die n e m).dev = m.dev := rfl
@[simp] theorem setDsp_tim (die n : Nat) (e : Dsp) (m : M) : (setDsp die n e m).tim = m.tim := rfl
@[simp] theorem setDsp_pace (die n : Nat) (e : Dsp) (m : M) : (setDsp die n e m).pace = m.pace := rfl
@[simp] theorem setDsp_avs (die n : Nat) (e : Dsp) (m : M) : (setDsp die n e m).avs = m.avs := rfl
@[simp] theorem setDsp_fold (die n : Nat) (e : Dsp) (m : M) : (setDsp die n e m).fold = m.fold := rfl
@[simp] theorem setDsp_syn (die n : Nat) (e : Dsp) (m : M) : (setDsp die n e m).syn = m.syn := rfl
@[simp] theorem setDsp_host (die n : Nat) (e : Dsp) (m : M) : (setDsp die n e m).host = m.host := rfl
@[simp] theorem setDsp_jrn (die n : Nat) (e : Dsp) (m : M) : (setDsp die n e m).jrn = m.jrn := rfl
@[simp] theorem setDsp_i3c (die n : Nat) (e : Dsp) (m : M) : (setDsp die n e m).i3c = m.i3c := rfl
@[simp] theorem setDsp_key (die n : Nat) (e : Dsp) (m : M) : (setDsp die n e m).key = m.key := rfl
@[simp] theorem setDsp_auth (die n : Nat) (e : Dsp) (m : M) : (setDsp die n e m).auth = m.auth := rfl
@[simp] theorem setDsp_mem (die n : Nat) (e : Dsp) (m : M) : (setDsp die n e m).mem = m.mem := rfl
@[simp] theorem setDsp_start (die n : Nat) (e : Dsp) (m : M) : (setDsp die n e m).start = m.start := rfl
@[simp] theorem setDsp_pwr (die n : Nat) (e : Dsp) (m : M) : (setDsp die n e m).pwr = m.pwr := rfl
@[simp] theorem setDsp_pin (die n : Nat) (e : Dsp) (m : M) : (setDsp die n e m).pin = m.pin := rfl
@[simp] theorem setDsp_refout (die n : Nat) (e : Dsp) (m : M) : (setDsp die n e m).refout = m.refout := rfl
@[simp] theorem setDsp_cnt (die n : Nat) (e : Dsp) (m : M) : (setDsp die n e m).cnt = m.cnt := rfl
@[simp] theorem setDsp_lim (die n : Nat) (e : Dsp) (m : M) : (setDsp die n e m).lim = m.lim := rfl
@[simp] theorem setDsp_pend (die n : Nat) (e : Dsp) (m : M) : (setDsp die n e m).pend = m.pend := rfl
@[simp] theorem setDsp_deferred (die n : Nat) (e : Dsp) (m : M) : (setDsp die n e m).deferred = m.deferred := rfl
@[simp] theorem setDsp_owner (die n : Nat) (e : Dsp) (m : M) : (setDsp die n e m).owner = m.owner := rfl
@[simp] theorem setDsp_net (die n : Nat) (e : Dsp) (m : M) : (setDsp die n e m).net = m.net := rfl
@[simp] theorem setDsp_mix (die n : Nat) (e : Dsp) (m : M) : (setDsp die n e m).mix = m.mix := rfl
@[simp] theorem setDsp_cod (die n : Nat) (e : Dsp) (m : M) : (setDsp die n e m).cod = m.cod := rfl
@[simp] theorem setDsp_cmp (die n : Nat) (e : Dsp) (m : M) : (setDsp die n e m).cmp = m.cmp := rfl
@[simp] theorem setDsp_enc (die n : Nat) (e : Dsp) (m : M) : (setDsp die n e m).enc = m.enc := rfl
@[simp] theorem setDsp_snd (die n : Nat) (e : Dsp) (m : M) : (setDsp die n e m).snd = m.snd := rfl
@[simp] theorem setDsp_tsk (die n : Nat) (e : Dsp) (m : M) : (setDsp die n e m).tsk = m.tsk := rfl
@[simp] theorem setDsp_join (die n : Nat) (e : Dsp) (m : M) : (setDsp die n e m).join = m.join := rfl
@[simp] theorem setDsp_pair (die n : Nat) (e : Dsp) (m : M) : (setDsp die n e m).pair = m.pair := rfl
@[simp] theorem setDsp_ticks (die n : Nat) (e : Dsp) (m : M) : (setDsp die n e m).ticks = m.ticks := rfl
@[simp] theorem setDsp_sent (die n : Nat) (e : Dsp) (m : M) : (setDsp die n e m).sent = m.sent := rfl
@[simp] theorem setDsp_drawn (die n : Nat) (e : Dsp) (m : M) : (setDsp die n e m).drawn = m.drawn := rfl

/-! ### updLeg -/

@[simp] theorem updLeg_part (k : Nat) (f : Leg → Leg) (m : M) : (updLeg k f m).part = m.part := rfl
@[simp] theorem updLeg_vault (k : Nat) (f : Leg → Leg) (m : M) : (updLeg k f m).vault = m.vault := rfl
@[simp] theorem updLeg_dev (k : Nat) (f : Leg → Leg) (m : M) : (updLeg k f m).dev = m.dev := rfl
@[simp] theorem updLeg_tim (k : Nat) (f : Leg → Leg) (m : M) : (updLeg k f m).tim = m.tim := rfl
@[simp] theorem updLeg_pace (k : Nat) (f : Leg → Leg) (m : M) : (updLeg k f m).pace = m.pace := rfl
@[simp] theorem updLeg_avs (k : Nat) (f : Leg → Leg) (m : M) : (updLeg k f m).avs = m.avs := rfl
@[simp] theorem updLeg_fold (k : Nat) (f : Leg → Leg) (m : M) : (updLeg k f m).fold = m.fold := rfl
@[simp] theorem updLeg_syn (k : Nat) (f : Leg → Leg) (m : M) : (updLeg k f m).syn = m.syn := rfl
@[simp] theorem updLeg_host (k : Nat) (f : Leg → Leg) (m : M) : (updLeg k f m).host = m.host := rfl
@[simp] theorem updLeg_jrn (k : Nat) (f : Leg → Leg) (m : M) : (updLeg k f m).jrn = m.jrn := rfl
@[simp] theorem updLeg_i3c (k : Nat) (f : Leg → Leg) (m : M) : (updLeg k f m).i3c = m.i3c := rfl
@[simp] theorem updLeg_key (k : Nat) (f : Leg → Leg) (m : M) : (updLeg k f m).key = m.key := rfl
@[simp] theorem updLeg_auth (k : Nat) (f : Leg → Leg) (m : M) : (updLeg k f m).auth = m.auth := rfl
@[simp] theorem updLeg_mem (k : Nat) (f : Leg → Leg) (m : M) : (updLeg k f m).mem = m.mem := rfl
@[simp] theorem updLeg_start (k : Nat) (f : Leg → Leg) (m : M) : (updLeg k f m).start = m.start := rfl
@[simp] theorem updLeg_pwr (k : Nat) (f : Leg → Leg) (m : M) : (updLeg k f m).pwr = m.pwr := rfl
@[simp] theorem updLeg_pin (k : Nat) (f : Leg → Leg) (m : M) : (updLeg k f m).pin = m.pin := rfl
@[simp] theorem updLeg_refout (k : Nat) (f : Leg → Leg) (m : M) : (updLeg k f m).refout = m.refout := rfl
@[simp] theorem updLeg_cnt (k : Nat) (f : Leg → Leg) (m : M) : (updLeg k f m).cnt = m.cnt := rfl
@[simp] theorem updLeg_lim (k : Nat) (f : Leg → Leg) (m : M) : (updLeg k f m).lim = m.lim := rfl
@[simp] theorem updLeg_pend (k : Nat) (f : Leg → Leg) (m : M) : (updLeg k f m).pend = m.pend := rfl
@[simp] theorem updLeg_deferred (k : Nat) (f : Leg → Leg) (m : M) : (updLeg k f m).deferred = m.deferred := rfl
@[simp] theorem updLeg_owner (k : Nat) (f : Leg → Leg) (m : M) : (updLeg k f m).owner = m.owner := rfl
@[simp] theorem updLeg_mix (k : Nat) (f : Leg → Leg) (m : M) : (updLeg k f m).mix = m.mix := rfl
@[simp] theorem updLeg_cod (k : Nat) (f : Leg → Leg) (m : M) : (updLeg k f m).cod = m.cod := rfl
@[simp] theorem updLeg_cmp (k : Nat) (f : Leg → Leg) (m : M) : (updLeg k f m).cmp = m.cmp := rfl
@[simp] theorem updLeg_enc (k : Nat) (f : Leg → Leg) (m : M) : (updLeg k f m).enc = m.enc := rfl
@[simp] theorem updLeg_snd (k : Nat) (f : Leg → Leg) (m : M) : (updLeg k f m).snd = m.snd := rfl
@[simp] theorem updLeg_tsk (k : Nat) (f : Leg → Leg) (m : M) : (updLeg k f m).tsk = m.tsk := rfl
@[simp] theorem updLeg_dsp (k : Nat) (f : Leg → Leg) (m : M) : (updLeg k f m).dsp = m.dsp := rfl
@[simp] theorem updLeg_join (k : Nat) (f : Leg → Leg) (m : M) : (updLeg k f m).join = m.join := rfl
@[simp] theorem updLeg_pair (k : Nat) (f : Leg → Leg) (m : M) : (updLeg k f m).pair = m.pair := rfl
@[simp] theorem updLeg_ticks (k : Nat) (f : Leg → Leg) (m : M) : (updLeg k f m).ticks = m.ticks := rfl
@[simp] theorem updLeg_sent (k : Nat) (f : Leg → Leg) (m : M) : (updLeg k f m).sent = m.sent := rfl
@[simp] theorem updLeg_drawn (k : Nat) (f : Leg → Leg) (m : M) : (updLeg k f m).drawn = m.drawn := rfl

/-! ### updStream -/

@[simp] theorem updStream_part (k : Nat) (f : Strm → Strm) (m : M) : (updStream k f m).part = m.part := rfl
@[simp] theorem updStream_vault (k : Nat) (f : Strm → Strm) (m : M) : (updStream k f m).vault = m.vault := rfl
@[simp] theorem updStream_dev (k : Nat) (f : Strm → Strm) (m : M) : (updStream k f m).dev = m.dev := rfl
@[simp] theorem updStream_tim (k : Nat) (f : Strm → Strm) (m : M) : (updStream k f m).tim = m.tim := rfl
@[simp] theorem updStream_pace (k : Nat) (f : Strm → Strm) (m : M) : (updStream k f m).pace = m.pace := rfl
@[simp] theorem updStream_avs (k : Nat) (f : Strm → Strm) (m : M) : (updStream k f m).avs = m.avs := rfl
@[simp] theorem updStream_fold (k : Nat) (f : Strm → Strm) (m : M) : (updStream k f m).fold = m.fold := rfl
@[simp] theorem updStream_syn (k : Nat) (f : Strm → Strm) (m : M) : (updStream k f m).syn = m.syn := rfl
@[simp] theorem updStream_host (k : Nat) (f : Strm → Strm) (m : M) : (updStream k f m).host = m.host := rfl
@[simp] theorem updStream_jrn (k : Nat) (f : Strm → Strm) (m : M) : (updStream k f m).jrn = m.jrn := rfl
@[simp] theorem updStream_i3c (k : Nat) (f : Strm → Strm) (m : M) : (updStream k f m).i3c = m.i3c := rfl
@[simp] theorem updStream_key (k : Nat) (f : Strm → Strm) (m : M) : (updStream k f m).key = m.key := rfl
@[simp] theorem updStream_auth (k : Nat) (f : Strm → Strm) (m : M) : (updStream k f m).auth = m.auth := rfl
@[simp] theorem updStream_mem (k : Nat) (f : Strm → Strm) (m : M) : (updStream k f m).mem = m.mem := rfl
@[simp] theorem updStream_start (k : Nat) (f : Strm → Strm) (m : M) : (updStream k f m).start = m.start := rfl
@[simp] theorem updStream_pwr (k : Nat) (f : Strm → Strm) (m : M) : (updStream k f m).pwr = m.pwr := rfl
@[simp] theorem updStream_pin (k : Nat) (f : Strm → Strm) (m : M) : (updStream k f m).pin = m.pin := rfl
@[simp] theorem updStream_refout (k : Nat) (f : Strm → Strm) (m : M) : (updStream k f m).refout = m.refout := rfl
@[simp] theorem updStream_cnt (k : Nat) (f : Strm → Strm) (m : M) : (updStream k f m).cnt = m.cnt := rfl
@[simp] theorem updStream_lim (k : Nat) (f : Strm → Strm) (m : M) : (updStream k f m).lim = m.lim := rfl
@[simp] theorem updStream_pend (k : Nat) (f : Strm → Strm) (m : M) : (updStream k f m).pend = m.pend := rfl
@[simp] theorem updStream_deferred (k : Nat) (f : Strm → Strm) (m : M) : (updStream k f m).deferred = m.deferred := rfl
@[simp] theorem updStream_owner (k : Nat) (f : Strm → Strm) (m : M) : (updStream k f m).owner = m.owner := rfl
@[simp] theorem updStream_mix (k : Nat) (f : Strm → Strm) (m : M) : (updStream k f m).mix = m.mix := rfl
@[simp] theorem updStream_cod (k : Nat) (f : Strm → Strm) (m : M) : (updStream k f m).cod = m.cod := rfl
@[simp] theorem updStream_cmp (k : Nat) (f : Strm → Strm) (m : M) : (updStream k f m).cmp = m.cmp := rfl
@[simp] theorem updStream_enc (k : Nat) (f : Strm → Strm) (m : M) : (updStream k f m).enc = m.enc := rfl
@[simp] theorem updStream_snd (k : Nat) (f : Strm → Strm) (m : M) : (updStream k f m).snd = m.snd := rfl
@[simp] theorem updStream_tsk (k : Nat) (f : Strm → Strm) (m : M) : (updStream k f m).tsk = m.tsk := rfl
@[simp] theorem updStream_dsp (k : Nat) (f : Strm → Strm) (m : M) : (updStream k f m).dsp = m.dsp := rfl
@[simp] theorem updStream_join (k : Nat) (f : Strm → Strm) (m : M) : (updStream k f m).join = m.join := rfl
@[simp] theorem updStream_pair (k : Nat) (f : Strm → Strm) (m : M) : (updStream k f m).pair = m.pair := rfl
@[simp] theorem updStream_ticks (k : Nat) (f : Strm → Strm) (m : M) : (updStream k f m).ticks = m.ticks := rfl
@[simp] theorem updStream_sent (k : Nat) (f : Strm → Strm) (m : M) : (updStream k f m).sent = m.sent := rfl
@[simp] theorem updStream_drawn (k : Nat) (f : Strm → Strm) (m : M) : (updStream k f m).drawn = m.drawn := rfl

/-! ### setMixer -/

@[simp] theorem setMixer_part (die : Nat) (x : Mixer) (m : M) : (setMixer die x m).part = m.part := rfl
@[simp] theorem setMixer_vault (die : Nat) (x : Mixer) (m : M) : (setMixer die x m).vault = m.vault := rfl
@[simp] theorem setMixer_dev (die : Nat) (x : Mixer) (m : M) : (setMixer die x m).dev = m.dev := rfl
@[simp] theorem setMixer_tim (die : Nat) (x : Mixer) (m : M) : (setMixer die x m).tim = m.tim := rfl
@[simp] theorem setMixer_pace (die : Nat) (x : Mixer) (m : M) : (setMixer die x m).pace = m.pace := rfl
@[simp] theorem setMixer_avs (die : Nat) (x : Mixer) (m : M) : (setMixer die x m).avs = m.avs := rfl
@[simp] theorem setMixer_fold (die : Nat) (x : Mixer) (m : M) : (setMixer die x m).fold = m.fold := rfl
@[simp] theorem setMixer_syn (die : Nat) (x : Mixer) (m : M) : (setMixer die x m).syn = m.syn := rfl
@[simp] theorem setMixer_host (die : Nat) (x : Mixer) (m : M) : (setMixer die x m).host = m.host := rfl
@[simp] theorem setMixer_jrn (die : Nat) (x : Mixer) (m : M) : (setMixer die x m).jrn = m.jrn := rfl
@[simp] theorem setMixer_i3c (die : Nat) (x : Mixer) (m : M) : (setMixer die x m).i3c = m.i3c := rfl
@[simp] theorem setMixer_key (die : Nat) (x : Mixer) (m : M) : (setMixer die x m).key = m.key := rfl
@[simp] theorem setMixer_auth (die : Nat) (x : Mixer) (m : M) : (setMixer die x m).auth = m.auth := rfl
@[simp] theorem setMixer_mem (die : Nat) (x : Mixer) (m : M) : (setMixer die x m).mem = m.mem := rfl
@[simp] theorem setMixer_start (die : Nat) (x : Mixer) (m : M) : (setMixer die x m).start = m.start := rfl
@[simp] theorem setMixer_pwr (die : Nat) (x : Mixer) (m : M) : (setMixer die x m).pwr = m.pwr := rfl
@[simp] theorem setMixer_pin (die : Nat) (x : Mixer) (m : M) : (setMixer die x m).pin = m.pin := rfl
@[simp] theorem setMixer_refout (die : Nat) (x : Mixer) (m : M) : (setMixer die x m).refout = m.refout := rfl
@[simp] theorem setMixer_cnt (die : Nat) (x : Mixer) (m : M) : (setMixer die x m).cnt = m.cnt := rfl
@[simp] theorem setMixer_lim (die : Nat) (x : Mixer) (m : M) : (setMixer die x m).lim = m.lim := rfl
@[simp] theorem setMixer_pend (die : Nat) (x : Mixer) (m : M) : (setMixer die x m).pend = m.pend := rfl
@[simp] theorem setMixer_deferred (die : Nat) (x : Mixer) (m : M) : (setMixer die x m).deferred = m.deferred := rfl
@[simp] theorem setMixer_owner (die : Nat) (x : Mixer) (m : M) : (setMixer die x m).owner = m.owner := rfl
@[simp] theorem setMixer_net (die : Nat) (x : Mixer) (m : M) : (setMixer die x m).net = m.net := rfl
@[simp] theorem setMixer_cod (die : Nat) (x : Mixer) (m : M) : (setMixer die x m).cod = m.cod := rfl
@[simp] theorem setMixer_cmp (die : Nat) (x : Mixer) (m : M) : (setMixer die x m).cmp = m.cmp := rfl
@[simp] theorem setMixer_enc (die : Nat) (x : Mixer) (m : M) : (setMixer die x m).enc = m.enc := rfl
@[simp] theorem setMixer_snd (die : Nat) (x : Mixer) (m : M) : (setMixer die x m).snd = m.snd := rfl
@[simp] theorem setMixer_tsk (die : Nat) (x : Mixer) (m : M) : (setMixer die x m).tsk = m.tsk := rfl
@[simp] theorem setMixer_dsp (die : Nat) (x : Mixer) (m : M) : (setMixer die x m).dsp = m.dsp := rfl
@[simp] theorem setMixer_join (die : Nat) (x : Mixer) (m : M) : (setMixer die x m).join = m.join := rfl
@[simp] theorem setMixer_pair (die : Nat) (x : Mixer) (m : M) : (setMixer die x m).pair = m.pair := rfl
@[simp] theorem setMixer_ticks (die : Nat) (x : Mixer) (m : M) : (setMixer die x m).ticks = m.ticks := rfl
@[simp] theorem setMixer_sent (die : Nat) (x : Mixer) (m : M) : (setMixer die x m).sent = m.sent := rfl
@[simp] theorem setMixer_drawn (die : Nat) (x : Mixer) (m : M) : (setMixer die x m).drawn = m.drawn := rfl

/-! ### updComp -/

@[simp] theorem updComp_part (k : Nat) (f : Comp → Comp) (m : M) : (updComp k f m).part = m.part := rfl
@[simp] theorem updComp_vault (k : Nat) (f : Comp → Comp) (m : M) : (updComp k f m).vault = m.vault := rfl
@[simp] theorem updComp_dev (k : Nat) (f : Comp → Comp) (m : M) : (updComp k f m).dev = m.dev := rfl
@[simp] theorem updComp_tim (k : Nat) (f : Comp → Comp) (m : M) : (updComp k f m).tim = m.tim := rfl
@[simp] theorem updComp_pace (k : Nat) (f : Comp → Comp) (m : M) : (updComp k f m).pace = m.pace := rfl
@[simp] theorem updComp_avs (k : Nat) (f : Comp → Comp) (m : M) : (updComp k f m).avs = m.avs := rfl
@[simp] theorem updComp_fold (k : Nat) (f : Comp → Comp) (m : M) : (updComp k f m).fold = m.fold := rfl
@[simp] theorem updComp_syn (k : Nat) (f : Comp → Comp) (m : M) : (updComp k f m).syn = m.syn := rfl
@[simp] theorem updComp_host (k : Nat) (f : Comp → Comp) (m : M) : (updComp k f m).host = m.host := rfl
@[simp] theorem updComp_jrn (k : Nat) (f : Comp → Comp) (m : M) : (updComp k f m).jrn = m.jrn := rfl
@[simp] theorem updComp_i3c (k : Nat) (f : Comp → Comp) (m : M) : (updComp k f m).i3c = m.i3c := rfl
@[simp] theorem updComp_key (k : Nat) (f : Comp → Comp) (m : M) : (updComp k f m).key = m.key := rfl
@[simp] theorem updComp_auth (k : Nat) (f : Comp → Comp) (m : M) : (updComp k f m).auth = m.auth := rfl
@[simp] theorem updComp_mem (k : Nat) (f : Comp → Comp) (m : M) : (updComp k f m).mem = m.mem := rfl
@[simp] theorem updComp_start (k : Nat) (f : Comp → Comp) (m : M) : (updComp k f m).start = m.start := rfl
@[simp] theorem updComp_pwr (k : Nat) (f : Comp → Comp) (m : M) : (updComp k f m).pwr = m.pwr := rfl
@[simp] theorem updComp_pin (k : Nat) (f : Comp → Comp) (m : M) : (updComp k f m).pin = m.pin := rfl
@[simp] theorem updComp_refout (k : Nat) (f : Comp → Comp) (m : M) : (updComp k f m).refout = m.refout := rfl
@[simp] theorem updComp_cnt (k : Nat) (f : Comp → Comp) (m : M) : (updComp k f m).cnt = m.cnt := rfl
@[simp] theorem updComp_lim (k : Nat) (f : Comp → Comp) (m : M) : (updComp k f m).lim = m.lim := rfl
@[simp] theorem updComp_pend (k : Nat) (f : Comp → Comp) (m : M) : (updComp k f m).pend = m.pend := rfl
@[simp] theorem updComp_deferred (k : Nat) (f : Comp → Comp) (m : M) : (updComp k f m).deferred = m.deferred := rfl
@[simp] theorem updComp_owner (k : Nat) (f : Comp → Comp) (m : M) : (updComp k f m).owner = m.owner := rfl
@[simp] theorem updComp_net (k : Nat) (f : Comp → Comp) (m : M) : (updComp k f m).net = m.net := rfl
@[simp] theorem updComp_mix (k : Nat) (f : Comp → Comp) (m : M) : (updComp k f m).mix = m.mix := rfl
@[simp] theorem updComp_cod (k : Nat) (f : Comp → Comp) (m : M) : (updComp k f m).cod = m.cod := rfl
@[simp] theorem updComp_enc (k : Nat) (f : Comp → Comp) (m : M) : (updComp k f m).enc = m.enc := rfl
@[simp] theorem updComp_snd (k : Nat) (f : Comp → Comp) (m : M) : (updComp k f m).snd = m.snd := rfl
@[simp] theorem updComp_tsk (k : Nat) (f : Comp → Comp) (m : M) : (updComp k f m).tsk = m.tsk := rfl
@[simp] theorem updComp_dsp (k : Nat) (f : Comp → Comp) (m : M) : (updComp k f m).dsp = m.dsp := rfl
@[simp] theorem updComp_join (k : Nat) (f : Comp → Comp) (m : M) : (updComp k f m).join = m.join := rfl
@[simp] theorem updComp_pair (k : Nat) (f : Comp → Comp) (m : M) : (updComp k f m).pair = m.pair := rfl
@[simp] theorem updComp_ticks (k : Nat) (f : Comp → Comp) (m : M) : (updComp k f m).ticks = m.ticks := rfl
@[simp] theorem updComp_sent (k : Nat) (f : Comp → Comp) (m : M) : (updComp k f m).sent = m.sent := rfl
@[simp] theorem updComp_drawn (k : Nat) (f : Comp → Comp) (m : M) : (updComp k f m).drawn = m.drawn := rfl

/-! ### updCtx -/

@[simp] theorem updCtx_part (k : Nat) (f : Ctx → Ctx) (m : M) : (updCtx k f m).part = m.part := rfl
@[simp] theorem updCtx_vault (k : Nat) (f : Ctx → Ctx) (m : M) : (updCtx k f m).vault = m.vault := rfl
@[simp] theorem updCtx_dev (k : Nat) (f : Ctx → Ctx) (m : M) : (updCtx k f m).dev = m.dev := rfl
@[simp] theorem updCtx_tim (k : Nat) (f : Ctx → Ctx) (m : M) : (updCtx k f m).tim = m.tim := rfl
@[simp] theorem updCtx_pace (k : Nat) (f : Ctx → Ctx) (m : M) : (updCtx k f m).pace = m.pace := rfl
@[simp] theorem updCtx_avs (k : Nat) (f : Ctx → Ctx) (m : M) : (updCtx k f m).avs = m.avs := rfl
@[simp] theorem updCtx_fold (k : Nat) (f : Ctx → Ctx) (m : M) : (updCtx k f m).fold = m.fold := rfl
@[simp] theorem updCtx_syn (k : Nat) (f : Ctx → Ctx) (m : M) : (updCtx k f m).syn = m.syn := rfl
@[simp] theorem updCtx_host (k : Nat) (f : Ctx → Ctx) (m : M) : (updCtx k f m).host = m.host := rfl
@[simp] theorem updCtx_jrn (k : Nat) (f : Ctx → Ctx) (m : M) : (updCtx k f m).jrn = m.jrn := rfl
@[simp] theorem updCtx_i3c (k : Nat) (f : Ctx → Ctx) (m : M) : (updCtx k f m).i3c = m.i3c := rfl
@[simp] theorem updCtx_key (k : Nat) (f : Ctx → Ctx) (m : M) : (updCtx k f m).key = m.key := rfl
@[simp] theorem updCtx_auth (k : Nat) (f : Ctx → Ctx) (m : M) : (updCtx k f m).auth = m.auth := rfl
@[simp] theorem updCtx_mem (k : Nat) (f : Ctx → Ctx) (m : M) : (updCtx k f m).mem = m.mem := rfl
@[simp] theorem updCtx_start (k : Nat) (f : Ctx → Ctx) (m : M) : (updCtx k f m).start = m.start := rfl
@[simp] theorem updCtx_pwr (k : Nat) (f : Ctx → Ctx) (m : M) : (updCtx k f m).pwr = m.pwr := rfl
@[simp] theorem updCtx_pin (k : Nat) (f : Ctx → Ctx) (m : M) : (updCtx k f m).pin = m.pin := rfl
@[simp] theorem updCtx_refout (k : Nat) (f : Ctx → Ctx) (m : M) : (updCtx k f m).refout = m.refout := rfl
@[simp] theorem updCtx_cnt (k : Nat) (f : Ctx → Ctx) (m : M) : (updCtx k f m).cnt = m.cnt := rfl
@[simp] theorem updCtx_lim (k : Nat) (f : Ctx → Ctx) (m : M) : (updCtx k f m).lim = m.lim := rfl
@[simp] theorem updCtx_pend (k : Nat) (f : Ctx → Ctx) (m : M) : (updCtx k f m).pend = m.pend := rfl
@[simp] theorem updCtx_deferred (k : Nat) (f : Ctx → Ctx) (m : M) : (updCtx k f m).deferred = m.deferred := rfl
@[simp] theorem updCtx_owner (k : Nat) (f : Ctx → Ctx) (m : M) : (updCtx k f m).owner = m.owner := rfl
@[simp] theorem updCtx_net (k : Nat) (f : Ctx → Ctx) (m : M) : (updCtx k f m).net = m.net := rfl
@[simp] theorem updCtx_mix (k : Nat) (f : Ctx → Ctx) (m : M) : (updCtx k f m).mix = m.mix := rfl
@[simp] theorem updCtx_cmp (k : Nat) (f : Ctx → Ctx) (m : M) : (updCtx k f m).cmp = m.cmp := rfl
@[simp] theorem updCtx_enc (k : Nat) (f : Ctx → Ctx) (m : M) : (updCtx k f m).enc = m.enc := rfl
@[simp] theorem updCtx_snd (k : Nat) (f : Ctx → Ctx) (m : M) : (updCtx k f m).snd = m.snd := rfl
@[simp] theorem updCtx_tsk (k : Nat) (f : Ctx → Ctx) (m : M) : (updCtx k f m).tsk = m.tsk := rfl
@[simp] theorem updCtx_dsp (k : Nat) (f : Ctx → Ctx) (m : M) : (updCtx k f m).dsp = m.dsp := rfl
@[simp] theorem updCtx_join (k : Nat) (f : Ctx → Ctx) (m : M) : (updCtx k f m).join = m.join := rfl
@[simp] theorem updCtx_pair (k : Nat) (f : Ctx → Ctx) (m : M) : (updCtx k f m).pair = m.pair := rfl
@[simp] theorem updCtx_ticks (k : Nat) (f : Ctx → Ctx) (m : M) : (updCtx k f m).ticks = m.ticks := rfl
@[simp] theorem updCtx_sent (k : Nat) (f : Ctx → Ctx) (m : M) : (updCtx k f m).sent = m.sent := rfl
@[simp] theorem updCtx_drawn (k : Nat) (f : Ctx → Ctx) (m : M) : (updCtx k f m).drawn = m.drawn := rfl

/-! ### updEnc -/

@[simp] theorem updEnc_part (k : Nat) (f : Enc → Enc) (m : M) : (updEnc k f m).part = m.part := rfl
@[simp] theorem updEnc_vault (k : Nat) (f : Enc → Enc) (m : M) : (updEnc k f m).vault = m.vault := rfl
@[simp] theorem updEnc_dev (k : Nat) (f : Enc → Enc) (m : M) : (updEnc k f m).dev = m.dev := rfl
@[simp] theorem updEnc_tim (k : Nat) (f : Enc → Enc) (m : M) : (updEnc k f m).tim = m.tim := rfl
@[simp] theorem updEnc_pace (k : Nat) (f : Enc → Enc) (m : M) : (updEnc k f m).pace = m.pace := rfl
@[simp] theorem updEnc_avs (k : Nat) (f : Enc → Enc) (m : M) : (updEnc k f m).avs = m.avs := rfl
@[simp] theorem updEnc_fold (k : Nat) (f : Enc → Enc) (m : M) : (updEnc k f m).fold = m.fold := rfl
@[simp] theorem updEnc_syn (k : Nat) (f : Enc → Enc) (m : M) : (updEnc k f m).syn = m.syn := rfl
@[simp] theorem updEnc_host (k : Nat) (f : Enc → Enc) (m : M) : (updEnc k f m).host = m.host := rfl
@[simp] theorem updEnc_jrn (k : Nat) (f : Enc → Enc) (m : M) : (updEnc k f m).jrn = m.jrn := rfl
@[simp] theorem updEnc_i3c (k : Nat) (f : Enc → Enc) (m : M) : (updEnc k f m).i3c = m.i3c := rfl
@[simp] theorem updEnc_key (k : Nat) (f : Enc → Enc) (m : M) : (updEnc k f m).key = m.key := rfl
@[simp] theorem updEnc_auth (k : Nat) (f : Enc → Enc) (m : M) : (updEnc k f m).auth = m.auth := rfl
@[simp] theorem updEnc_mem (k : Nat) (f : Enc → Enc) (m : M) : (updEnc k f m).mem = m.mem := rfl
@[simp] theorem updEnc_start (k : Nat) (f : Enc → Enc) (m : M) : (updEnc k f m).start = m.start := rfl
@[simp] theorem updEnc_pwr (k : Nat) (f : Enc → Enc) (m : M) : (updEnc k f m).pwr = m.pwr := rfl
@[simp] theorem updEnc_pin (k : Nat) (f : Enc → Enc) (m : M) : (updEnc k f m).pin = m.pin := rfl
@[simp] theorem updEnc_refout (k : Nat) (f : Enc → Enc) (m : M) : (updEnc k f m).refout = m.refout := rfl
@[simp] theorem updEnc_cnt (k : Nat) (f : Enc → Enc) (m : M) : (updEnc k f m).cnt = m.cnt := rfl
@[simp] theorem updEnc_lim (k : Nat) (f : Enc → Enc) (m : M) : (updEnc k f m).lim = m.lim := rfl
@[simp] theorem updEnc_pend (k : Nat) (f : Enc → Enc) (m : M) : (updEnc k f m).pend = m.pend := rfl
@[simp] theorem updEnc_deferred (k : Nat) (f : Enc → Enc) (m : M) : (updEnc k f m).deferred = m.deferred := rfl
@[simp] theorem updEnc_owner (k : Nat) (f : Enc → Enc) (m : M) : (updEnc k f m).owner = m.owner := rfl
@[simp] theorem updEnc_net (k : Nat) (f : Enc → Enc) (m : M) : (updEnc k f m).net = m.net := rfl
@[simp] theorem updEnc_mix (k : Nat) (f : Enc → Enc) (m : M) : (updEnc k f m).mix = m.mix := rfl
@[simp] theorem updEnc_cod (k : Nat) (f : Enc → Enc) (m : M) : (updEnc k f m).cod = m.cod := rfl
@[simp] theorem updEnc_cmp (k : Nat) (f : Enc → Enc) (m : M) : (updEnc k f m).cmp = m.cmp := rfl
@[simp] theorem updEnc_snd (k : Nat) (f : Enc → Enc) (m : M) : (updEnc k f m).snd = m.snd := rfl
@[simp] theorem updEnc_tsk (k : Nat) (f : Enc → Enc) (m : M) : (updEnc k f m).tsk = m.tsk := rfl
@[simp] theorem updEnc_dsp (k : Nat) (f : Enc → Enc) (m : M) : (updEnc k f m).dsp = m.dsp := rfl
@[simp] theorem updEnc_join (k : Nat) (f : Enc → Enc) (m : M) : (updEnc k f m).join = m.join := rfl
@[simp] theorem updEnc_pair (k : Nat) (f : Enc → Enc) (m : M) : (updEnc k f m).pair = m.pair := rfl
@[simp] theorem updEnc_ticks (k : Nat) (f : Enc → Enc) (m : M) : (updEnc k f m).ticks = m.ticks := rfl
@[simp] theorem updEnc_sent (k : Nat) (f : Enc → Enc) (m : M) : (updEnc k f m).sent = m.sent := rfl
@[simp] theorem updEnc_drawn (k : Nat) (f : Enc → Enc) (m : M) : (updEnc k f m).drawn = m.drawn := rfl

/-! ### updSend -/

@[simp] theorem updSend_part (k : Nat) (f : Send → Send) (m : M) : (updSend k f m).part = m.part := rfl
@[simp] theorem updSend_vault (k : Nat) (f : Send → Send) (m : M) : (updSend k f m).vault = m.vault := rfl
@[simp] theorem updSend_dev (k : Nat) (f : Send → Send) (m : M) : (updSend k f m).dev = m.dev := rfl
@[simp] theorem updSend_tim (k : Nat) (f : Send → Send) (m : M) : (updSend k f m).tim = m.tim := rfl
@[simp] theorem updSend_pace (k : Nat) (f : Send → Send) (m : M) : (updSend k f m).pace = m.pace := rfl
@[simp] theorem updSend_avs (k : Nat) (f : Send → Send) (m : M) : (updSend k f m).avs = m.avs := rfl
@[simp] theorem updSend_fold (k : Nat) (f : Send → Send) (m : M) : (updSend k f m).fold = m.fold := rfl
@[simp] theorem updSend_syn (k : Nat) (f : Send → Send) (m : M) : (updSend k f m).syn = m.syn := rfl
@[simp] theorem updSend_host (k : Nat) (f : Send → Send) (m : M) : (updSend k f m).host = m.host := rfl
@[simp] theorem updSend_jrn (k : Nat) (f : Send → Send) (m : M) : (updSend k f m).jrn = m.jrn := rfl
@[simp] theorem updSend_i3c (k : Nat) (f : Send → Send) (m : M) : (updSend k f m).i3c = m.i3c := rfl
@[simp] theorem updSend_key (k : Nat) (f : Send → Send) (m : M) : (updSend k f m).key = m.key := rfl
@[simp] theorem updSend_auth (k : Nat) (f : Send → Send) (m : M) : (updSend k f m).auth = m.auth := rfl
@[simp] theorem updSend_mem (k : Nat) (f : Send → Send) (m : M) : (updSend k f m).mem = m.mem := rfl
@[simp] theorem updSend_start (k : Nat) (f : Send → Send) (m : M) : (updSend k f m).start = m.start := rfl
@[simp] theorem updSend_pwr (k : Nat) (f : Send → Send) (m : M) : (updSend k f m).pwr = m.pwr := rfl
@[simp] theorem updSend_pin (k : Nat) (f : Send → Send) (m : M) : (updSend k f m).pin = m.pin := rfl
@[simp] theorem updSend_refout (k : Nat) (f : Send → Send) (m : M) : (updSend k f m).refout = m.refout := rfl
@[simp] theorem updSend_cnt (k : Nat) (f : Send → Send) (m : M) : (updSend k f m).cnt = m.cnt := rfl
@[simp] theorem updSend_lim (k : Nat) (f : Send → Send) (m : M) : (updSend k f m).lim = m.lim := rfl
@[simp] theorem updSend_pend (k : Nat) (f : Send → Send) (m : M) : (updSend k f m).pend = m.pend := rfl
@[simp] theorem updSend_deferred (k : Nat) (f : Send → Send) (m : M) : (updSend k f m).deferred = m.deferred := rfl
@[simp] theorem updSend_owner (k : Nat) (f : Send → Send) (m : M) : (updSend k f m).owner = m.owner := rfl
@[simp] theorem updSend_net (k : Nat) (f : Send → Send) (m : M) : (updSend k f m).net = m.net := rfl
@[simp] theorem updSend_mix (k : Nat) (f : Send → Send) (m : M) : (updSend k f m).mix = m.mix := rfl
@[simp] theorem updSend_cod (k : Nat) (f : Send → Send) (m : M) : (updSend k f m).cod = m.cod := rfl
@[simp] theorem updSend_cmp (k : Nat) (f : Send → Send) (m : M) : (updSend k f m).cmp = m.cmp := rfl
@[simp] theorem updSend_enc (k : Nat) (f : Send → Send) (m : M) : (updSend k f m).enc = m.enc := rfl
@[simp] theorem updSend_tsk (k : Nat) (f : Send → Send) (m : M) : (updSend k f m).tsk = m.tsk := rfl
@[simp] theorem updSend_dsp (k : Nat) (f : Send → Send) (m : M) : (updSend k f m).dsp = m.dsp := rfl
@[simp] theorem updSend_join (k : Nat) (f : Send → Send) (m : M) : (updSend k f m).join = m.join := rfl
@[simp] theorem updSend_pair (k : Nat) (f : Send → Send) (m : M) : (updSend k f m).pair = m.pair := rfl
@[simp] theorem updSend_ticks (k : Nat) (f : Send → Send) (m : M) : (updSend k f m).ticks = m.ticks := rfl
@[simp] theorem updSend_sent (k : Nat) (f : Send → Send) (m : M) : (updSend k f m).sent = m.sent := rfl
@[simp] theorem updSend_drawn (k : Nat) (f : Send → Send) (m : M) : (updSend k f m).drawn = m.drawn := rfl

/-! ### setFlow -/

@[simp] theorem setFlow_part (die f : Nat) (x : OFlow) (m : M) : (setFlow die f x m).part = m.part := rfl
@[simp] theorem setFlow_vault (die f : Nat) (x : OFlow) (m : M) : (setFlow die f x m).vault = m.vault := rfl
@[simp] theorem setFlow_dev (die f : Nat) (x : OFlow) (m : M) : (setFlow die f x m).dev = m.dev := rfl
@[simp] theorem setFlow_tim (die f : Nat) (x : OFlow) (m : M) : (setFlow die f x m).tim = m.tim := rfl
@[simp] theorem setFlow_pace (die f : Nat) (x : OFlow) (m : M) : (setFlow die f x m).pace = m.pace := rfl
@[simp] theorem setFlow_avs (die f : Nat) (x : OFlow) (m : M) : (setFlow die f x m).avs = m.avs := rfl
@[simp] theorem setFlow_fold (die f : Nat) (x : OFlow) (m : M) : (setFlow die f x m).fold = m.fold := rfl
@[simp] theorem setFlow_syn (die f : Nat) (x : OFlow) (m : M) : (setFlow die f x m).syn = m.syn := rfl
@[simp] theorem setFlow_host (die f : Nat) (x : OFlow) (m : M) : (setFlow die f x m).host = m.host := rfl
@[simp] theorem setFlow_jrn (die f : Nat) (x : OFlow) (m : M) : (setFlow die f x m).jrn = m.jrn := rfl
@[simp] theorem setFlow_i3c (die f : Nat) (x : OFlow) (m : M) : (setFlow die f x m).i3c = m.i3c := rfl
@[simp] theorem setFlow_key (die f : Nat) (x : OFlow) (m : M) : (setFlow die f x m).key = m.key := rfl
@[simp] theorem setFlow_auth (die f : Nat) (x : OFlow) (m : M) : (setFlow die f x m).auth = m.auth := rfl
@[simp] theorem setFlow_mem (die f : Nat) (x : OFlow) (m : M) : (setFlow die f x m).mem = m.mem := rfl
@[simp] theorem setFlow_start (die f : Nat) (x : OFlow) (m : M) : (setFlow die f x m).start = m.start := rfl
@[simp] theorem setFlow_pwr (die f : Nat) (x : OFlow) (m : M) : (setFlow die f x m).pwr = m.pwr := rfl
@[simp] theorem setFlow_pin (die f : Nat) (x : OFlow) (m : M) : (setFlow die f x m).pin = m.pin := rfl
@[simp] theorem setFlow_refout (die f : Nat) (x : OFlow) (m : M) : (setFlow die f x m).refout = m.refout := rfl
@[simp] theorem setFlow_cnt (die f : Nat) (x : OFlow) (m : M) : (setFlow die f x m).cnt = m.cnt := rfl
@[simp] theorem setFlow_lim (die f : Nat) (x : OFlow) (m : M) : (setFlow die f x m).lim = m.lim := rfl
@[simp] theorem setFlow_pend (die f : Nat) (x : OFlow) (m : M) : (setFlow die f x m).pend = m.pend := rfl
@[simp] theorem setFlow_deferred (die f : Nat) (x : OFlow) (m : M) : (setFlow die f x m).deferred = m.deferred := rfl
@[simp] theorem setFlow_owner (die f : Nat) (x : OFlow) (m : M) : (setFlow die f x m).owner = m.owner := rfl
@[simp] theorem setFlow_net (die f : Nat) (x : OFlow) (m : M) : (setFlow die f x m).net = m.net := rfl
@[simp] theorem setFlow_mix (die f : Nat) (x : OFlow) (m : M) : (setFlow die f x m).mix = m.mix := rfl
@[simp] theorem setFlow_cod (die f : Nat) (x : OFlow) (m : M) : (setFlow die f x m).cod = m.cod := rfl
@[simp] theorem setFlow_cmp (die f : Nat) (x : OFlow) (m : M) : (setFlow die f x m).cmp = m.cmp := rfl
@[simp] theorem setFlow_enc (die f : Nat) (x : OFlow) (m : M) : (setFlow die f x m).enc = m.enc := rfl
@[simp] theorem setFlow_snd (die f : Nat) (x : OFlow) (m : M) : (setFlow die f x m).snd = m.snd := rfl
@[simp] theorem setFlow_dsp (die f : Nat) (x : OFlow) (m : M) : (setFlow die f x m).dsp = m.dsp := rfl
@[simp] theorem setFlow_join (die f : Nat) (x : OFlow) (m : M) : (setFlow die f x m).join = m.join := rfl
@[simp] theorem setFlow_pair (die f : Nat) (x : OFlow) (m : M) : (setFlow die f x m).pair = m.pair := rfl
@[simp] theorem setFlow_ticks (die f : Nat) (x : OFlow) (m : M) : (setFlow die f x m).ticks = m.ticks := rfl
@[simp] theorem setFlow_sent (die f : Nat) (x : OFlow) (m : M) : (setFlow die f x m).sent = m.sent := rfl
@[simp] theorem setFlow_drawn (die f : Nat) (x : OFlow) (m : M) : (setFlow die f x m).drawn = m.drawn := rfl

/-! ### A meaning lifted to the state -/

@[simp] theorem after_pending (s : State) (m : M) : (after s m).pending = s.pending := rfl
@[simp] theorem after_vault (s : State) (m : M) : (after s m).m.vault = s.m.vault := rfl
theorem lift_eq (f : M → M) (s : State) : lift f s = .next (after s (f s.m)) := rfl

end Sys2Proof.Machine
end

