-- ==== Sys2Proof/Laws/Ops.lean ====
section
/-!
SUPPORT. What the shared operations can do: the operations that only report touch only what a report may touch, and how a command's
row goes on from its checks.
-/
namespace Sys2Proof.Machine

/-! ## Reports -/

theorem Reports.refl (m : M) : Reports m m := rfl

theorem Reports.trans {a b c : M} (h1 : Reports a b) (h2 : Reports b c) : Reports a c := by
  unfold Reports at *
  rw [h2, h1]

theorem reports_emit (o : Out) (m : M) : Reports m (emit o m) := rfl
theorem reports_draw (m : M) : Reports m (draw m) := rfl
theorem reports_cntAdd (i : CntId) (n : Nat) (m : M) : Reports m (cntAdd i n m) := rfl
theorem reports_cntClear (i : CntId) (m : M) : Reports m (cntClear i m) := rfl
theorem reports_setFn (f : Nat) (x : Fn) (m : M) : Reports m (setFn f x m) := rfl
theorem reports_setEvq (f q : Nat) (e : Evq) (m : M) : Reports m (setEvq f q e m) := rfl
theorem reports_exportSet (q : Nat) (e : ExportQ) (m : M) : Reports m (exportSet q e m) := rfl
theorem reports_jrnPut (i : JIn) (m : M) : Reports m (jrnPut i m) := rfl
theorem reports_jrnOwn (code old new : Nat) (m : M) : Reports m (jrnOwn code old new m) := rfl

/-- A choice between two reports is a report. -/
theorem Reports.ite {m a b : M} (p : Prop) [Decidable p] (ha : Reports m a) (hb : Reports m b) : Reports m (if p then a else b) := by
  split
  · exact ha
  · exact hb

/-- Reports one after another are a report. -/
theorem Reports.foldl {β : Type} (f : M → β → M) (hf : ∀ m b, Reports m (f m b)) (l : List β) (m : M) : Reports m (l.foldl f m) := by
  induction l generalizing m with
  | nil => exact .refl m
  | cons b r ih => exact (hf m b).trans (ih _)

theorem reports_msixRaise (f v : Nat) (m : M) : Reports m (msixRaise f v m) := .ite _ rfl rfl

theorem reports_evqSignal (f q level : Nat) (m : M) : Reports m (evqSignal f q level m) :=
  .ite _ (reports_msixRaise ..) (.refl m)

theorem reports_evqTake (f q : Nat) (r : EvRec) (m : M) : Reports m (evqTake f q r m) := by
  simp only [evqTake]
  split
  · cases (evqInsert (getEvq m f q).recs r).lost with
    | none => exact .ite _ ((reports_setEvq ..).trans (reports_evqSignal ..)) (reports_setEvq ..)
    | some l =>
      exact .ite _ (((reports_setEvq f q _ m).trans (reports_cntAdd ..)).trans (reports_evqSignal ..))
        ((reports_setEvq f q _ m).trans (reports_cntAdd ..))
  · exact .refl m

theorem reports_evDeliver (r : EvRec) (m : M) : Reports m (evDeliver r m) :=
  .foldl _ (fun _ _ => .foldl _ (fun _ _ => reports_evqTake ..) _ _) _ _

theorem reports_limited (i : LimId) (p : Nat) (f : M → M) (hf : ∀ m, Reports m (f m)) (m : M) : Reports m (limited i p f m) := by
  unfold limited
  split
  · have h : Reports m { m with lim := limPut m.lim i m.vault.mono } := rfl
    exact h.trans (hf _)
  · exact .refl m

theorem reports_exportWrite (q : Nat) (r : JRec) (m : M) : Reports m (exportWrite q r m) := by
  simp only [exportWrite]
  split
  · exact .refl m
  · exact .ite _ (((reports_exportSet ..).trans (reports_emit ..)).trans (reports_msixRaise ..)) rfl

/-! ## Completions -/

theorem reports_cqWrite (f q : Nat) (c : Completion) (m : M) : Reports m (cqWrite f q c m) := by
  simp only [cqWrite]
  split
  · exact .refl m
  · exact .ite _ rfl (.ite _ (((reports_setFn ..).trans (reports_emit ..)).trans (reports_msixRaise ..)) rfl)

theorem reports_post (p : Path) (c : Completion) (m : M) : Reports m (post p c m) := by
  cases p with
  | host f r cq => exact .ite _ (.refl m) (.ite _ rfl (reports_cqWrite ..))
  | i3c => rfl
  | peer => rfl

/-! ## A command from its row to its effect (R96, R99) -/

theorem submit_eq (run : Desc → M → M) (d : Desc) (m : M) {x : Desc} {m1 : M} (h : taken d m = some (x, m1)) :
    submit run d m = run x m1 := by
  simp [submit, h]

/-- A row whose command starts dispatches it: at once, or held. -/
theorem Starts.dispatch {sp : CmdSpec} {d : Desc} {m : M} {x : Desc} {m1 : M} (h : Starts sp d m x m1) :
    hostRow sp d m = dispatchCmd sp x (sp.onExec x m1) := by
  obtain ⟨h1, h2, h3⟩ := h
  simp only [hostRow, submit, h1, runSpec, h2, h3]

/-- A command refused at its first failing check. -/
theorem runSpec_early {sp : CmdSpec} {d : Desc} {m : M} {f : Nat × Nat} (h : earlyFail sp d m = some f) :
    runSpec sp d m = rejectCmd sp d f m := by
  simp [runSpec, h]

theorem runSpec_late {sp : CmdSpec} {d : Desc} {m : M} {f : Nat × Nat} (h : earlyFail sp d m = none)
    (hl : lateFail sp d (sp.onExec d m) = some f) : runSpec sp d m = rejectCmd sp d f (sp.onExec d m) := by
  simp [runSpec, h, hl]

/-- The held command due first is applied when it passes steps 7 to 9 again. -/
theorem Due.apply {sp : CmdSpec} {m : M} {p : Pend} (hspec : specOf sp.opcode = some sp) (h : Due sp m p) :
    timedApply m = noteApplied p.d p.order m.jrn.head (applyCmd sp p.d p.late (dropPend p.order m)) := by
  obtain ⟨h1, h2, h3, h4, h5⟩ := h
  have h2' : ¬ (3 ≤ m.pwr.state) := by omega
  unfold timedApply
  simp only [h1, h2', h3, h4, hspec]
  simp [applyPend, h5]
  rfl

/-- What a command with a spec of its own completes with, from the effect its spec gives it. -/
theorem completesIf_of {row : Desc → Instr} {sp : CmdSpec} {ok : Desc → M → Prop} {eff : Desc → M → M × Reply}
    (hrow : ∀ d s, exec (row d) s = .next (after s (hostRow sp d s.m))) (hspec : specOf sp.opcode = some sp)
    (heff : ∀ d m, ok d m → sp.apply d m = ((eff d m).1, .done (eff d m).2)) : CompletesIf row sp ok eff := by
  refine ⟨?_, ?_, ?_⟩
  · intro s d x m1 hs hw hok
    rw [hrow, hs.dispatch]
    simp [dispatchCmd, hw, applyCmd, heff _ _ hok, lateReply]
  · intro s d x m1 b hs hw hl
    rw [hrow, hs.dispatch]
    simp [dispatchCmd, hw, Nat.not_le.mpr hl]
  · intro s p h hl hok
    have : exec .timedCommandApply s = .next (after s (timedApply s.m)) := rfl
    rw [this, h.apply hspec]
    cases hp : p.late with
    | false => simp [applyCmd, heff _ _ hok]
    | true => simp [applyCmd, hl hp, heff _ _ hok]

theorem completes_of {row : Desc → Instr} {sp : CmdSpec} {eff : Desc → M → M × Reply}
    (hrow : ∀ d s, exec (row d) s = .next (after s (hostRow sp d s.m))) (hspec : specOf sp.opcode = some sp)
    (heff : ∀ d m, sp.apply d m = ((eff d m).1, .done (eff d m).2)) : Completes row sp eff :=
  completesIf_of hrow hspec fun d m _ => heff d m

/-- What a command acts by whose completion its unit makes, or that writes no record. -/
theorem actsIf_of {row : Desc → Instr} {sp : CmdSpec} {ok : Desc → M → Prop} {act : Desc → Bool → M → M}
    (hrow : ∀ d s, exec (row d) s = .next (after s (hostRow sp d s.m))) (hspec : specOf sp.opcode = some sp)
    (hact : ∀ d late m, ok d m → applyCmd sp d late m = act d late m) : ActsIf row sp ok act := by
  refine ⟨?_, ?_⟩
  · intro s d x m1 hs hw hok
    rw [hrow, hs.dispatch]
    simp [dispatchCmd, hw, hact _ _ _ hok]
  · intro s p h hok
    have : exec .timedCommandApply s = .next (after s (timedApply s.m)) := rfl
    rw [this, h.apply hspec, hact _ _ _ hok]

end Sys2Proof.Machine
end

