-- ==== Sys2Proof/Tests/Slice0.lean ====
section
/-!
SUPPORT. The model's own tests: the well-formedness smoke test, one named witness for the hypotheses of every statement, clause by
clause, and values that the spec works out.
-/

namespace Sys2Proof.Tests
open Sys2Proof.Machine

set_option Elab.async false

/-! ## A small machine: the part at Ready with an image of one media die in use -/

/-- A section of an image, in order. -/
def tSect (typ die cls : Nat) (body : SecBody) : Sect :=
  { typ := typ, die := die, cls := cls, offset := 4096, length := 0, crc32 := 0, data := [], body := body }

/-- Functions 0 to 2 get queues and quotas; no domain owns the I3C port. -/
def tPart : Sect := tSect 1 0xFF 0 (.part 1 [[8, 8, 8, 8, 8, 8], [0], [0], [4, 4, 4, 4, 4, 4]] 0 0 1)

def tQueues : Sect := tSect 4 0 0 (.hubQueues (List.replicate 4 { sub := 2, cmp := 2, evq := 2, exp := 2 }))

def tEgress : Sect := tSect 4 1 0 (.dieQueues [16, 0, 0, 4])

def tLanes : Sect := tSect 3 1 0 (.lanes [2, 2, 4, 6, 3, 5, 0, 0] [true, true])

def tHubLanes : Sect := tSect 3 0 0 (.lanes [1, 0] [])

def tUnits : Sect := tSect 2 1 0 (.dieUnits [1, 1, 2, 2, 3, 3, 0, 0, 0, 0, 0, 0] [] [] [] (List.replicate 32 0) 1)

def tLegs : Sect := tSect 5 0xFF 0 (.legs [4, 4])

def tMixer : Sect := tSect 6 1 0 (.mixer 0 4 4 0)

def tBlob : Blob :=
  { id := 0x1001, wide := false, service := false, reserved := [], functions := [(1, 2, 1000, 1)],
    prog := [0#64, 0x0420000000000000#64], x := [], y := [] }

def tFw : Sect := tSect 0x102 1 1 (.dspFw [tBlob])

def tPlace : Sect := tSect 8 1 0 (.placement [0x1001, 0x1001])

/-- A signature block without keys. -/
def tUnsigned : SigBlock :=
  { keyIndex := 0, rsv1 := 0, svetKey := { form := 0, x := 0, y := 0 }, svetSig := { r := 0, s := 0 }, rsv2 := 0,
    ownerKey := { form := 0, x := 0, y := 0 }, ownerSig := { r := 0, s := 0 }, rsv3 := 0 }

def tImage : Image :=
  { magic := 0x584E5953, version := 2, target := 0x0808, length := 4096, count := 10, flags := 0, serial := 7, rsv1 := 0, hash := 5,
    rsv2 := 0, size := 4096, sign := tUnsigned,
    sections := [tPart, tQueues, tEgress, tLanes, tHubLanes, tUnits, tLegs, tMixer, tFw, tPlace] }

/-- Ready, die 1 running. -/
def tM : M := setDieState 1 1 { mReset with start.phase := .ready, start.perstLow := false, start.porstLow := false, start.supplyLow := 0, syn.run := some tImage }

/-- A state with an empty queue. -/
def tS (m : M) : State := { pending := [], m := m }

/-- Payload bytes from (offset, value) pairs. -/
def tPay (fs : List (Nat × Nat)) : BitVec 320 := BitVec.ofNat 320 (fs.foldl (fun a f => a + f.2 <<< (8 * f.1)) 0)

/-- A descriptor in inline form on the direct port of a function. -/
def tD (fn obj : Nat) (fs : List (Nat × Nat)) : Desc :=
  { path := .host fn 0x3FF 0, opcode := 0, flags := 0, obj := BitVec.ofNat 32 obj, tag := 0, commitSec := 0, commitNs := 0, rsvd := 0,
    payload := tPay fs, buf := [], bufFail := false, image := none }

/-- A descriptor in pointer form. -/
def tP (fn obj : Nat) (buf : List Nat) : Desc :=
  { tD fn obj [(0, 4096), (8, buf.length)] with flags := 1, buf := buf.map (BitVec.ofNat 8) }

/-- Why a command does not start: no status when it does. -/
def tWhy (sp : CmdSpec) (d : Desc) (m : M) : Option (Nat × Nat) :=
  match taken { d with opcode := sp.opcode } m with
  | none => some (0, 0)
  | some (x, m1) => match earlyFail sp x m1 with
    | some f => some f
    | none => lateFail sp x (sp.onExec x m1)

/-- The command starts, and what a clause asks of it holds. -/
def tGo (sp : CmdSpec) (d : Desc) (m : M) (ok : Desc → M → Bool := fun _ _ => true) : Bool :=
  match taken { d with opcode := sp.opcode } m with
  | none => false
  | some (x, m1) => (earlyFail sp x m1).isNone && (lateFail sp x (sp.onExec x m1)).isNone && ok x (sp.onExec x m1)

theorem starts_of_tGo {sp : CmdSpec} {d : Desc} {m : M} {ok : Desc → M → Bool} (h : tGo sp d m ok = true) :
    ∃ x m1, Starts sp d m x m1 ∧ ok x (sp.onExec x m1) = true := by
  unfold tGo at h
  cases ht : taken { d with opcode := sp.opcode } m with
  | none => simp [ht] at h
  | some p =>
    simp only [ht, Bool.and_eq_true, Option.isNone_iff_eq_none] at h
    exact ⟨p.1, p.2, ⟨ht, h.1.1, h.1.2⟩, h.2⟩

/-- The command is due at its boundary and passes its later checks again, and what a clause asks of it holds. -/
def tDue (sp : CmdSpec) (d : Desc) (m : M) (ok : Desc → M → Bool := fun _ _ => true) : Bool :=
  let p : Pend := { d := { d with opcode := sp.opcode }, due := 0, kind := .instant, late := false, order := 0, waits := false, before := 0 }
  let m1 := { m with pend := [p] }
  m1.start.phase == .ready && decide (m1.pwr.state < 3) && dueFirst m1.dev m1.pend == some p &&
  (lateFail sp p.d (dropPend 0 m1)).isNone && ok p.d (dropPend 0 m1)

/-- Both: it starts, and it passes at its boundary. -/
def tAll (sp : CmdSpec) (d : Desc) (m : M) (ok : Desc → M → Bool := fun _ _ => true) : Bool := tGo sp d m ok && tDue sp d m ok

/-! ## An image that passes every rule, for a part of one media die -/

/-- The owner key's digest. -/
def tOwner : Digest := BitVec.ofNat 384
  0xab9287a04c151ab63c0a94a8b2a25de5ed6be036de83d81c3874f419ded59555e6626e8d81ffa8cab699ac8843a4a9cb

/-- Signed outside the model with keys made for these tests; the signatures cover the header and the class 1 sections. -/
def tSigned : SigBlock :=
  { keyIndex := 0, rsv1 := 0,
    svetKey := {
      form := 4,
      x := 0x959eae84f3e789ab43992c684e244aafe59dca736d3c7f659d6902dd771d543a0487f10f3a7a499fdfe7ac4e6e921e2a,
      y := 0xa2fdfc7471c3b6d1866d2718e68b8a9a378e6602c69986af0961381836fae496936b107039e5344d3fa66f2e8b0ccc95 },
    svetSig := {
      r := 0x75536945d177c3c90ebf49fdf296eb1475ec5686661c2b5bfbbaf4fdbb0ae7242fe08da306e3b3c54c6413a6bca15873,
      s := 0x2a61251b27aba0e572910f044494f7ee6d79e955f84843ba843db32188905efae67262030479ff28ff1058fa2841d6c9 },
    rsv2 := 0,
    ownerKey := {
      form := 4,
      x := 0x27bd624b87a4b941a4528c9b9b0fcbe86242f007bd91f75a748937bb72fa870998e56cd72364e8dabb01adef374fd8fc,
      y := 0xd8be952f77a11bbdb2ece41cb455a13b7751c1abfca730c84af768fd06319cae07033c65876da520b642fe24840206e4 },
    ownerSig := {
      r := 0xfdd9ab6cf1be3ab9ee15093d27ae6211508f06bb1eb8cc845cecf594b88fd8674a91efb833f5551d63cebc88af5b6ccb,
      s := 0x13d112127d13aef3e53a96bae2df1932ee942a96d24f1d71605cfcaea0b3b093cad3854da12251be94f52913254adb52 },
    rsv3 := 0 }

def tGoodSects : List Sect := [
    { typ := 1, die := 255, cls := 0, offset := 4096, length := 1, crc32 := 2768625435, data := [1#8],
      body := .part 1 [[8, 8, 8, 8, 2, 8], [0], [0], [4, 4, 4, 4, 1, 4]] 0 0 1 },
    { typ := 2, die := 1, cls := 0, offset := 8192, length := 1, crc32 := 1007455905, data := [2#8],
      body := .dieUnits [1, 1, 2, 2, 3, 3, 0, 0, 0, 0, 0, 0] [] [] [] (List.replicate 32 0) 1 },
    { typ := 3, die := 0, cls := 0, offset := 12288, length := 1, crc32 := 1259060791, data := [3#8],
      body := .lanes [6, 6] [] },
    { typ := 3, die := 1, cls := 0, offset := 16384, length := 1, crc32 := 1259060791, data := [3#8],
      body := .lanes [2, 2, 4, 5, 1, 5, 0, 0] [true, true] },
    { typ := 4, die := 0, cls := 0, offset := 20480, length := 1, crc32 := 3580832660, data := [4#8],
      body := .hubQueues (List.replicate 4 { sub := 2, cmp := 2, evq := 2, exp := 2 }) },
    { typ := 4, die := 1, cls := 0, offset := 24576, length := 1, crc32 := 3580832660, data := [4#8],
      body := .dieQueues [16, 0, 0, 4] }] ++ [
    { typ := 5, die := 255, cls := 0, offset := 28672, length := 1, crc32 := 2724731650, data := [5#8],
      body := .legs [4] },
    { typ := 6, die := 1, cls := 0, offset := 32768, length := 1, crc32 := 996231864, data := [6#8],
      body := .mixer 0 4 4 0 },
    { typ := 7, die := 255, cls := 0, offset := 36864, length := 1, crc32 := 1281784366, data := [7#8],
      body := .floors 1 [2] [2] 2 },
    { typ := 8, die := 1, cls := 0, offset := 40960, length := 1, crc32 := 3705235391, data := [8#8],
      body := .placement [0x1001, 0x1001] },
    { typ := 257, die := 0, cls := 1, offset := 45056, length := 1, crc32 := 2768625435, data := [1#8],
      body := .coreFw },
    { typ := 258, die := 1, cls := 1, offset := 49152, length := 1, crc32 := 1007455905, data := [2#8],
      body := .dspFw [{ tBlob with functions := [(1, 2, 1000, 2)] }] }]

def tGood : Image :=
  { magic := 0x584E5953, version := 2, target := 0x0802, length := 53248, count := 12, flags := 0, serial := 7, rsv1 := 0,
    hash := BitVec.ofNat 384
      0xf93992a5e85d4cef12b672f5a3d22a7106e2a53be0da0afc80ea243dea27361442ed61a2b1c445f0a5cfce512da59a4f,
    rsv2 := 0, sections := tGoodSects, size := 53248, sign := tSigned }

/-- A trained memory channel. -/
def tChan : MemChan :=
  { state := 2, rate := 3, density16 := true, mirrored := false, byteSwap := false, cause := 0, pin := 0, temp := 0, swizzle := 0, rotor := 0,
    lastRefresh := 0, hot := false }

/-- A part of one media die whose hub ROM holds the signer's key digest, Ready with the image in slot A. -/
def tGoodM : M :=
  { tM with
    part := { tM.part with
      media := 1,
      romKeys := [(BitVec.ofNat 384
        0x2dd7936a0afff068158bc0740aa9c0eb125e67b9ea91e76c6d6e14af66ee7f688f33633c9482ba08d36b193a61af854c, false)] },
    syn.run := some tGood, syn.slotA := some tGood, syn.startedSlot := 0,
    mem.chans := [(0, tChan), (1, tChan), (8, tChan), (9, tChan)] }

/-! ## Objects the witnesses name -/

/-- An RTP leg on die 1, port 0x10. -/
def tLegD : Desc := tD 0 (mkOid 9 1 0)
  [(0, 0), (1, 0x10), (2, 0xFF), (3, 4), (4, 0), (6, 5004), (8, 5004), (10, 0xFFFF), (12, 0), (13, 5), (14, 1000), (16, 0x0A000001), (32, 1000)]

def tLegM : M := (legDefineSpec.apply tLegD tM).1

def tLegO : Nat := mkOid 9 1 0

/-- A receive stream of kind 1 (H.264) in slot 0 of the leg, and one of kind 3. -/
def tStrmD : Desc := tD 0 (mkOid 0xA 1 0)
  [(0, 1), (1, 96), (2, 16), (4, 1), (8, 10000), (12, 20000), (16, 20), (18, 100), (22, 1000)]

def tAudD : Desc := tD 0 (mkOid 0xA 1 1)
  [(0, 3), (1, 97), (2, 1), (3, 2), (4, 2), (8, 10000), (12, 20000), (16, 20), (18, 100), (22, 1000)]

def tStrmM : M := (netStreamDefineSpec.apply tAudD (netStreamDefineSpec.apply tStrmD tLegM).1).1

def tStrmO : Nat := mkOid 0xA 1 0

/-- A send stream of kind 1 in slot 0 of the leg, fed by forwarding; and one of kind 2. -/
def tSendD : Desc := tD 0 (mkOid 0xA 1 4096) [(0, 1), (1, 96), (2, 16), (4, 77), (20, 5000)]

def tSendM : M := (netSendDefineSpec.apply tSendD tStrmM).1

def tSendO : Nat := mkOid 0xA 1 4096

/-- The leg armed, and live. -/
def tArmM : M := (legArmSpec.apply (tD 0 tLegO []) tSendM).1

def tLiveM : M := updLeg (mkKey 1 0) (fun l => { l with state := 3 }) tArmM

/-- A modem channel with a receiving, and with a transmitting setting. -/
def tRxD : Desc := tD 0 (mkOid 0xF 1 0) [(0, 0), (1, 0), (2, 0), (3, 0), (14, 1000)]

def tTxD : Desc := tD 0 (mkOid 0xF 1 0) [(0, 1), (1, 1), (2, 3), (12, 3), (16, 100)]

def tModO : Nat := mkOid 0xF 1 0

def tModM : M := { tM with cod.modems := [(modKey 1 0, modemReset)] }

def tRxM : M := (modConfigSpec.apply tRxD tModM).1

def tTxM : M := updMod 1 0 (fun x => { x with mask := some [(-10, 0), (10, 0)] }) (modConfigSpec.apply tTxD tModM).1

/-- A decode context of the leg's video stream, IDLE, and ACTIVE. -/
def tPoolM : M := setPool 1 { poolReset with totalKib := 1048576 } tStrmM

def tCtxD : Desc := tD 0 (mkOid 0xB 1 0) [(0, 16), (2, 0), (3, 4), (4, tStrmO), (8, 1280), (10, 720), (12, 25), (14, 1)]

def tCtxO : Nat := mkOid 0xB 1 0

def tCtxM : M := (codContextOpenSpec.apply tCtxD tPoolM).1

def tDecM : M := (codStartSpec.apply (tD 0 tCtxO []) tCtxM).1

/-- A compositor of 1280 x 720 at 25 Hz with a feed, STOPPED, and RUNNING. -/
def tCmpD : Desc := tD 0 (mkOid 0xD 1 0) [(0, 0x103), (3, 1)]

def tCmpO : Nat := mkOid 0xD 1 0

def tCmpM : M := (cmpDefineSpec.apply tCmpD { tCtxM with snd := tSendM.snd }).1

def tCmpRun : M := (cmpStartSpec.apply (tD 0 tCmpO []) tCmpM).1

def tLayD : Desc := tD 0 tCmpO [(0, 1), (1, 1), (4, tCtxO), (12, 1280), (14, 720), (20, 1280), (22, 720), (24, 1024)]

def tLayM : M := (cmpLayerSetSpec.apply tLayD tCmpM).1

/-- An encode context on an engine of role E, fed by the compositor. -/
def tEncD : Desc := tD 0 (mkOid 0xB 1 (4096 + 2 * 64))
  [(0, 16), (2, 2), (3, 0x11), (4, tCmpO), (8, tSendO), (12, 640), (14, 360), (16, 25), (18, 1), (20, 1)]

def tEncO : Nat := mkOid 0xB 1 (4096 + 2 * 64)

def tEncM : M := (encContextOpenSpec.apply tEncD tCmpM).1

def tRateD : Desc := tD 0 tEncO [(0, 1000), (12, 20), (13, 40), (14, 30)]

def tRateM : M := (encRateSetSpec.apply tRateD tEncM).1

def tEncRun : M := (encStartSpec.apply (tD 0 tEncO []) tRateM).1

/-! ## Witnesses: host commands that start, by statement -/

def tRingD : Desc := tD 0 (ringOid 0 1 0) [(0, 4096), (8, 64), (12, 64), (22, 1), (24, 1)]

def tSubD : Desc := tD 0 (ringOid 0 0 0) [(0, 4096), (8, 64), (20, 0), (28, 1)]

def tCqM : M := (hifRingCreateSpec.apply tRingD tM).1

def tSqM : M := (hifRingCreateSpec.apply tSubD tCqM).1

theorem witness_HostQueueCommandsComplete :
    [tAll hifRingCreateSpec tRingD tM, tAll hifRingCreateSpec tSubD tCqM, tAll hifRingDeleteSpec (tD 0 (ringOid 0 0 0) []) tSqM,
     tAll hifEvqConfigSpec (tD 0 (ringOid 0 2 0) [(0, 255), (4, 255), (5, 7)]) tM, tAll hifNopSpec (tD 0 (ringOid 0 2 0) []) tM,
     qKind tSubD == 0, qKind tRingD != 0].all id = true := by decide +kernel

def tRecM : M :=
  { tM with jrn := (jrnPut { path := 7, domain := 0, kind := 3, payloadForm := false, result := 0, obj := jrnOid, opcode := 1,
                             old := 0, new := 0, urgent := false } { tM with jrn.ringUp := true }).jrn }

def tExpD : Desc := tD 1 (exportOid 0) [(0, 1), (4, 64), (8, 4096), (16, 64), (24, 64), (32, 0xFE), (38, 1)]

theorem witness_JournalCommandsComplete :
    [tAll jrnExportSetSpec tExpD tM (fun d _ => payBit d 0 0), tAll jrnExportSetSpec (tD 1 (exportOid 0) []) tM (fun d _ => !payBit d 0 0),
     tAll jrnMarkSpec (tD 0 jrnOid [(0, 77)]) tM, tAll jrnVerifySpec (tD 0 jrnOid [(8, 1)]) tRecM].all id = true := by
  decide +kernel

theorem witness_JournalCommandsComplete_end :
    (firstMismatch tRecM.jrn [] 0 1 = none) ∧ (firstMismatch tRecM.jrn [0] 0 1 = some 0) := by decide +kernel

theorem witness_TimeCommandsComplete :
    [tAll timSourceSetSpec (tD 2 timOid [(0, 2), (2, 0xFF), (3, 0xFF), (6, 10)]) tM,
     tAll timSetSpec (tD 2 timOid [(0, 5)]) { tM with tim.mode := 2 } (fun _ m => m.tim.mode == 2),
     tGo timSetSpec (tD 2 timOid [(0, 5)]) { tM with tim.mode := 1 } (fun _ m => m.tim.mode == 1),
     tAll timGuardSetSpec (tD 0 timOid [(0, 0), (4, 50000)]) tM, tAll timSlackAlarmSetSpec (tD 0 timOid [(0, 1), (1, 4), (2, 1), (4, 100)]) tM,
     tAll pwrAvsSetSpec (tD 2 timOid [(0, 200), (2, 800), (4, 50)]) tM,
     tAll refoutSetSpec (tD 2 (infraOid 0) [(0, 1), (1, 5), (2, 1)]) tM].all id = true := by decide +kernel

def tPendM (p : Path) : M :=
  { tM with pend := [{ d := { tD 0 (infraOid 0) [] with path := p }, due := 5, kind := .instant, late := false, order := 7, waits := false,
                       before := 0 }] }

theorem witness_TaskRowsComplete :
    [tAll tskArbSetSpec (tD 2 (infraOid 0) [(0, 1)]) tM, tAll tskPrioSetSpec (tD 0 tStrmO [(0, 3)]) tStrmM,
     tGo tskCancelSpec (tD 0 (infraOid 0) [(6, 1)]) (tPendM (.host 0 3 0)) (fun d m => (cancelPend d m).isSome),
     tGo tskCancelSpec (tD 0 (infraOid 0) [(4, 0x3FF)]) (tPendM (.host 0 0x3FF 0)) (fun d m => (cancelPend d m).isSome)].all id = true := by
  decide +kernel

def tKeyO : Nat := mkOid 6 0 5

def tKeyD : Desc := tP 0 tKeyO ([0, 0, 0, 1] ++ List.replicate 172 0)

def tKeyM : M := (keyWriteSpec.apply tKeyD tM).1

theorem witness_KeyRowsComplete :
    [tAll keyWriteSpec tKeyD tM, tAll keyWriteSpec tKeyD tKeyM, tAll keyClearSpec (tD 0 tKeyO []) tKeyM,
     tAll keyEraseSpec (tD 1 tKeyO []) tKeyM (fun d _ => !payBit d 0 0), tAll keyAlarmSetSpec (tD 1 (infraOid 0) [(0, 7)]) tM,
     tAll keyAlarmClearSpec (tD 1 (infraOid 0) []) { tM with key.latched := 1 }, tAll cipAuthSetSpec (tD 0 tLegO [(0, 10), (2, 10)]) tLegM,
     tAll cipRocSetSpec (tD 0 tStrmO [(0, 1)]) tStrmM].all id = true := by decide +kernel

theorem witness_TrafficCommandsComplete :
    [tAll trfPortSetSpec (tD 0 (infraOid 1) [(0, 0), (4, 25000), (8, 9)]) tM, tAll trfClassSetSpec (tD 0 (infraOid 1) [(0, 0), (1, 3), (2, 10)]) tM,
     tAll trfQueueSetSpec (tD 0 tLegO [(0, 3), (2, 10), (12, 65536), (16, 10)]) tLegM, tAll trfLineSetSpec (tD 0 tLegO [(0, 1), (4, 5000)]) tLegM,
     tAll trfSampleSetSpec (tD 0 (infraOid 1) [(0, 1000)]) tM, tAll trfProfileSetSpec (tD 0 (infraOid 0) [(0, 1)]) tM].all id = true := by
  decide +kernel

def tFwdO : Nat := mkOid 7 0 5

def tFwdD : Desc := tD 0 tFwdO [(0, tStrmO)]

def tFwdM : M := (fwdSetSpec.apply tFwdD tSendM).1

def tMemD : Desc := tD 0 tFwdO [(0, tSendO)]

def tMemM : M := (fwdMemberAddSpec.apply tMemD tFwdM).1

theorem witness_ForwardingRowsComplete :
    [tAll fwdSetSpec tFwdD tSendM (fun d m => getFwd m (fwdIdx d) == none && fwdState d m == 0),
     tAll fwdSetSpec tFwdD tFwdM (fun d m => (getFwd m (fwdIdx d)).isSome && fwdState d m == 1), tAll fwdDeleteSpec (tD 0 tFwdO []) tFwdM,
     tAll fwdMemberAddSpec tMemD tFwdM (fun d m => !isMember d m),
     tAll fwdMemberRemoveSpec tMemD tMemM].all id = true := by decide +kernel

theorem witness_LegRowsComplete :
    [tAll legDefineSpec tLegD tM (fun d m => (freeLeg m (legHome d)).isSome), tAll legModifySpec tLegD tLegM,
     tAll legDeleteSpec (tD 0 tLegO []) tLegM, tAll legArmSpec (tD 0 tLegO []) tStrmM, tAll legDisarmSpec (tD 0 tLegO []) tArmM,
     tAll legDrainSpec (tD 0 tLegO []) tLiveM,
     tAll legMoveSpec (tD 0 tLegO [(0, 2), (2, 0xFFFF)]) (setDieState 2 1 tLegM) (fun d m => (moveIdx d m).isSome)].all id = true := by
  decide +kernel

/-- The audio stream redefined as video, where an instance would move. -/
theorem witness_StreamCommandsComplete :
    [tAll netStreamDefineSpec tStrmD tLegM,
     tAll netStreamModifySpec tStrmD tStrmM (fun d m => match getStrm m (strmOfD d) with | some x => !strmMovesInst d x | none => false),
     tAll netStreamDeleteSpec (tD 0 tStrmO []) tStrmM, tAll netSendDefineSpec tSendD tStrmM,
     tAll netSendModifySpec tSendD tSendM (fun d m => match getSend m (strmOfD d) with | some x => !sendMovesInst d x | none => false),
     tAll netSendDeleteSpec (tD 0 tSendO []) tSendM, tAll netPortSetSpec (tD 0 (infraOid 1) [(0, 0), (2, 5), (8, 9), (12, 9216)]) tM].all id = true := by
  decide +kernel

def tBusO : Nat := mkOid 0xC 1 0

def tBusM : M := (mixBusDefineSpec.apply (tD 0 tBusO []) tStrmM).1

/-- Channel 0 of the leg's second stream, as a source. -/
def tSrc : Nat := 2 ^ 28 + 2 ^ 25 + 1 * 2 ^ 12

def tXpD : Desc := tD 0 tBusO [(0, tSrc), (4, 65536), (10, 0xFFFF)]

def tXpM : M := (mixXpSetSpec.apply tXpD tBusM).1

def tMixLegD : Desc := tD 0 tLegO [(0, tBusO), (4, 65536), (12, 0x7FFF), (16, 10)]

theorem witness_MixerRowsComplete :
    [tAll mixBusDefineSpec (tD 0 tBusO []) tM (fun d m => (placeDie d (freeBuses m) m).isSome), tAll mixBusDeleteSpec (tD 0 tBusO []) tBusM,
     tAll mixXpSetSpec tXpD tBusM (fun d m => !payBit d 12 0 && findXp m (pay d 0 4) (busOf (oid d)) == none),
     tAll mixXpSetSpec tXpD tXpM (fun d m => !payBit d 12 0 && (findXp m (pay d 0 4) (busOf (oid d))).isSome),
     tAll mixXpSetSpec (tD 0 tBusO [(0, tSrc), (10, 0xFFFF), (12, 1)]) tXpM
       (fun d m => payBit d 12 0 && (match findXp m (pay d 0 4) (busOf (oid d)) with | some (_, x) => x.act.isNone | none => false)),
     tAll mixLegSetSpec tMixLegD tBusM, tAll mixOverlaySetSpec (tD 0 tLegO [(18, 10)]) tLegM,
     tAll mixCommitSpec (tD 0 (infraOid 1) [(0, 1)]) tM (fun d _ => payBit d 0 0),
     tAll mixCommitSpec (tD 0 (infraOid 1) []) tM (fun d _ => !payBit d 0 0 && commitAt d == 0),
     tAll mixMeterSetSpec (tD 0 (infraOid 1) [(0, 1000)]) tM].all id = true := by decide +kernel

def tFirD : Desc := tP 0 tModO (List.replicate 508 0)

def tMaskD : Desc := tP 0 tModO [2, 0, 0, 0, 0xF6, 0xFF, 0, 0, 10, 0, 0, 0]

theorem witness_ModemRowsComplete :
    [tAll modConfigSpec tRxD tModM, tAll modConfigSpec tTxD tModM, tAll modStartSpec (tD 0 tModO []) tRxM, tAll modStartSpec (tD 0 tModO []) tTxM,
     tAll modStopSpec (tD 0 tModO []) (modStartSpec.apply (tD 0 tModO []) tRxM).1, tAll modFeSetSpec (tD 0 tModO [(0, 1), (1, 64), (2, 16)]) tModM,
     tAll modGainSetSpec (tD 0 tModO [(0, 77)]) { tModM with pair.excl := true }
       (fun d m => claimHeld m && (match modOf d m with | some x => x.wire.isNone | none => false)),
     tAll modGainSetSpec (tD 0 tModO [(0, 77)]) { updMod 1 0 (fun x => { x with wire := some 3 }) tModM with pair.excl := true }
       (fun d m => claimHeld m && (match modOf d m with | some x => x.wire.isSome | none => false)),
     tAll modGainSetSpec (tD 0 tModO [(0, 77)]) { tModM with pair.excl := false } (fun d m => !claimHeld m && (modOf d m).isSome),
     tAll modTxUnmuteSpec (tD 0 tModO []) (updMod 1 0 (fun x => { x with state := 4 }) tTxM), tAll modFirSetSpec tFirD tTxM,
     tAll modMaskSetSpec tMaskD tTxM].all id = true := by decide +kernel

theorem witness_DecoderRowsComplete :
    [tAll codContextOpenSpec tCtxD tPoolM (fun d m => (codPlace d m).isSome),
     tAll codContextModifySpec tCtxD tCtxM (fun d m => (getCtx m (codKey d)).map Ctx.state == some 1),
     tAll codContextModifySpec tCtxD tDecM (fun d m => (getCtx m (codKey d)).map Ctx.state == some 2),
     tAll codStartSpec (tD 0 tCtxO []) tCtxM, tAll codStopSpec (tD 0 tCtxO []) tDecM,
     tAll codContextCloseSpec (tD 0 tCtxO []) tDecM (fun d m => (getCtx m (codKey d)).map Ctx.busy == some false),
     tAll codContextCloseSpec (tD 0 tCtxO []) (updCtx (oidKey tCtxO) (fun c => { c with busy := true }) tDecM)
       (fun d m => (getCtx m (codKey d)).map Ctx.busy == some true)].all id = true := by decide +kernel

theorem witness_DecoderRowsComplete_select :
    [tAll codLayerSelectSpec (tD 0 tCtxO [(0, 0x22)]) tDecM
       (fun d m => match getCtx m (codKey d) with | some c => decide (c.target % 16 ≤ 2 ∧ c.target / 16 ≤ 2 ∧ c.target ≠ 0x22) | none => false),
     tAll codLayerSelectSpec (tD 0 tCtxO [(0, 0)]) tDecM
       (fun d m => match getCtx m (codKey d) with | some c => decide (0 ≤ c.target % 16 ∧ 0 ≤ c.target / 16) | none => false),
     tAll codRefreshSpec (tD 0 tCtxO []) { tDecM with dev := 10 ^ 12 }
       (fun d m => match getCtx m (codKey d) with | some c => ctxFeedback m c && !isForce d && pliOpen c m | none => false),
     tAll codRefreshSpec { tD 0 tCtxO [] with flags := 4 } tDecM
       (fun d m => match getCtx m (codKey d) with | some c => ctxFeedback m c && isForce d && !c.pliWait | none => false),
     tAll codRefreshSpec (tD 0 tCtxO []) (updCtx (oidKey tCtxO) (fun c => { c with lastPli := some 0 }) tDecM)
       (fun d m => match getCtx m (codKey d) with
         | some c => ctxFeedback m c && !isForce d && !pliOpen c m && !c.pliWait && eventRoom m (keyDie (codKey d))
         | none => false)].all id = true := by
  decide +kernel

theorem witness_CompositorRowsComplete :
    [tAll cmpDefineSpec tCmpD tCtxM (fun d m => match cmpPlace d m with | some k => cmpCode m k == 0 | none => false),
     tAll cmpDefineSpec tCmpD tCmpM (fun d m => match cmpPlace d m with | some k => cmpCode m k == 1 | none => false),
     tAll cmpStartSpec (tD 0 tCmpO []) tCmpM, tAll cmpStopSpec (tD 0 tCmpO []) tCmpRun, tAll cmpDeleteSpec (tD 0 tCmpO []) tCmpM,
     tAll cmpOutputSetSpec (tD 0 tCmpO []) tCmpM (fun d _ => outputOf d == none), tAll cmpLayerSetSpec tLayD tCmpM (fun d _ => pay d 1 1 != 0),
     tAll cmpLayerSetSpec (tD 0 tCmpO [(0, 1)]) tLayM (fun d _ => pay d 1 1 == 0), tAll cmpZlistSetSpec (tP 0 tCmpO [0, 1, 1]) tLayM,
     tAll cmpLut3dSetSpec (tP 0 tCmpO [1, 0, 0, 0]) tCmpM, tAll cmpCommitSpec (tD 0 tCmpO [(0, 1)]) tLayM (fun d _ => payBit d 0 0),
     tGo cmpCommitSpec (tD 0 tCmpO []) tLayM (fun d m => !payBit d 0 0 && (match getComp m (cmpKey d) with
       | some c => (match c.captured with
         | some x => splitLayers (cmpWidth m (cmpKey d)) x == [] &&
             (match getComp (applySet (cmpKey d) x m) (cmpKey d) with | some y => decide (y.load ≤ 1000) | none => false)
         | none => false)
       | none => false))].all id = true := by decide +kernel

theorem witness_CompositorRowsComplete_rest :
    [tAll cmpCursorSetSpec (tD 0 tCmpO [(0, 5), (4, 1)]) tCmpM
       (fun d m => match getComp m (cmpKey d) with | some c => payBit d 4 0 != c.cursor.visible | none => false),
     tAll cmpCursorSetSpec (tD 0 tCmpO [(0, 5)]) tCmpM
       (fun d m => match getComp m (cmpKey d) with
         | some c => payBit d 4 0 == c.cursor.visible && pay d 5 1 == c.cursor.hotX && pay d 6 1 == c.cursor.hotY
         | none => false),
     tAll cmpGlyphLoadSpec (tP 0 (infraOid 1) [0, 0]) tM (fun d _ => match atlasOf d with | .ok _ => true | .error _ => false),
     tAll cmpGuardSetSpec (tP 1 tCmpO (List.replicate 32 0)) tCmpM, tAll cmpGuardClearSpec (tD 1 tCmpO []) tCmpM].all id = true := by
  decide +kernel

theorem witness_EncoderRowsComplete :
    [tAll encContextOpenSpec tEncD tCmpM (fun d m => match encPlace d m with | .ok _ => true | .error _ => false),
     tAll encContextModifySpec tEncD tEncM (fun d m => (getEnc m (encKey d)).map Enc.state == some 1),
     tAll encContextModifySpec tEncD tEncRun (fun d m => (getEnc m (encKey d)).map Enc.state == some 2)].all id = true := by decide +kernel

theorem witness_EncoderRowsComplete_run :
    [tAll encStartSpec (tD 0 tEncO []) tRateM, tAll encStopSpec (tD 0 tEncO []) tEncRun,
     tAll encContextCloseSpec (tD 0 tEncO []) tEncRun
       (fun d m => match getEnc m (encKey d) with | some e => !(e.job.isSome && onEngine m (encKey d)) | none => false),
     tAll encRateSetSpec tRateD tEncM (fun d m => (getEnc m (encKey d)).map (fun e => e.rateNext.isNone) == some true),
     tAll encRateSetSpec tRateD (updEnc (oidKey tEncO) (fun e => { e with rateNext := some (rateOfD tRateD, true) }) tEncM)
       (fun d m => match (getEnc m (encKey d)).bind Enc.rateNext with | some r => r.2 | none => false),
     tAll encKeyframeSpec (tD 0 tEncO []) tEncRun (fun d m => (getEnc m (encKey d)).map (fun e => e.req.isNone) == some true)].all id = true := by
  decide +kernel

def tDspO : Nat := dspOid 1 0

def tEng (w : Nat) : Dsp :=
  { dspLoad tBlob false false with prog := [BitVec.ofNat 64 w, 0#64], started := true }

def tDspM (w : Nat) : M := setDsp 1 0 (tEng w) tM

def tPortM : M := setDsp 1 0 { tEng 0 with ports := [(3, { code := 1, inputs := [tSrc, 0], slots := [0], arg := 0, lateAt := none })] } tStrmM

theorem witness_DspCommandsComplete :
    [tAll dspPortSetSpec (tD 0 tDspO [(0, 3), (1, 1), (4, tSrc), (8, tSrc)]) (setDsp 1 0 (tEng 0) tStrmM),
     tAll dspPortClearSpec (tD 0 tDspO [(0, 3)]) tPortM, tAll dspParamSetSpec (tD 0 tDspO [(0, 3), (1, 15), (2, 1), (8, 5)]) tPortM,
     tAll dspHaltSpec (tD 0 tDspO []) (tDspM 0),
     tAll dspRestartSpec (tD 0 tDspO []) (setDsp 1 0 { tEng 0 with state := 2 } tM) (fun d m => dspCode d m == 2)].all id = true := by
  decide +kernel

def tWideM : M :=
  { tM with syn.run := some { tImage with sections := tSect 0x102 1 1 (.dspFw [tBlob, { tBlob with id := 0x2000, wide := true }]) :: tImage.sections } }

theorem witness_DspCommandsComplete_pair :
    tAll dspPairSpec (tD 0 tDspO [(0, 1), (2, 0x2000)]) tWideM
      (fun d m => wantJoin d && (wideBlob m (oidDie (oid d)) (pay d 2 2)).isSome) = true := by decide +kernel

theorem witness_MemoryRowsComplete :
    [tAll memRateSetSpec (tD 2 (infraOid 0) [(0, 3)]) tM, tAll memEccSetSpec (tD 2 (infraOid 1) [(0, 1)]) tM,
     tAll memActSetSpec (tD 2 (infraOid 1) [(0, 32000)]) tM].all id = true := by decide +kernel

theorem witness_PinRowsComplete :
    [tAll pinLoopbackSetSpec (tD 2 (infraOid 1) [(0, 1), (1, 2)]) tM,
     tAll pinGpioSetSpec (tD 2 (infraOid 0) [(0, 31), (1, 1)]) tM
       (fun d m => (gpioPin m (gpioNo d)).fault == 0 && (gpioPin m (gpioNo d)).output != payBit d 1 0),
     tAll pinGpioSetSpec (tD 2 (infraOid 0) [(0, 3)]) tM
       (fun d m => (gpioPin m (gpioNo d)).fault == 0 && (gpioPin m (gpioNo d)).output == payBit d 1 0 &&
         (gpioPin m (gpioNo d)).driven == payBit d 1 1),
     tAll pinRestoreSpec (tD 2 (infraOid 0) [(0, 1), (1, 3)]) (setGpio 3 { gpioReset with fault := 5 } tM) (fun d _ => pay d 0 1 != 0),
     tAll pinRestoreSpec (tD 2 (infraOid 1) [(1, 3)]) (setLanePin 1 3 { lanePin tM 1 3 with tx := 5 } tM) (fun d _ => pay d 0 1 == 0)].all
      id = true := by decide +kernel

theorem witness_CompoundRowsComplete :
    [tAll codPairSpec (tD 0 (mkOid 0xE 1 0) [(0, 1)]) tM, tAll cmpPairSpec (tD 0 tCmpO [(0, 1)]) tM].all id = true := by decide +kernel

def tPairO : Nat := mkOid 8 0 0

def tHoldM : M :=
  { tM with pair.role := 2, pair.e := 5, pair.wire := { hbReset with up := true, last := some 0 },
            pair.peer := some { restr := false, claim := 3, role := 3, part := partNo tM, hash := 0, serial := 9 } }

def tUpM : M := { tM with pair.role := 1, pair.wire := { hbReset with up := true, last := some 0 } }

theorem witness_PairingRowsComplete :
    [tAll pairConfigSpec (tD 2 tPairO [(0, 1), (2, 65535)]) tM (fun d m => payBit d 0 0 != (m.pair.role != 0)),
     tAll pairConfigSpec (tD 2 tPairO [(0, 1), (2, 5)]) { tM with pair.role := 1 } (fun d m => payBit d 0 0 == (m.pair.role != 0)),
     tAll pairClaimSpec (tD 0 tPairO [(0, 1)]) tM (fun d _ => pay d 0 1 == 1),
     tAll pairClaimSpec (tD 0 tPairO [(0, 0)]) tHoldM (fun d m => pay d 0 1 == 0 && mayRelease m),
     tAll pairWakeSpec (tD 2 tPairO []) tUpM (fun d m => d.path != .peer && anyPathUp m)].all id = true := by decide +kernel

/-- An image staged to a slot or to RAM. -/
def tStageD (target flags : Nat) : Desc :=
  { tD 2 synOid [(0, 4096), (8, 53264)] with
    flags := 1, image := some tGood, buf := ([target, flags, 0, 0, 0, 0xD0, 0, 0] ++ List.replicate 8 0).map (BitVec.ofNat 8) }

/-- The image breaks no rule: hash, CRCs and signatures are those of its bytes, computed outside the model. -/
theorem test_image_passes : rulesAll tGoodM.part none (some 53248) tGood = none := by decide +kernel

theorem test_image_owner : ownerPasses (some tOwner) tGood = true ∧ ownerPasses (some 1) tGood = false := by decide +kernel

/-- One bit of a section, or of the header after signing, is found. -/
theorem test_image_breaks :
    (rulesAll tGoodM.part none none { tGood with serial := 8 }).map Viol.rule = some 0x109 ∧
    (rulesAll tGoodM.part none none
      { tGood with sections := tGood.sections.map fun s => if s.typ = 7 then { s with data := [6#8] } else s }).map Viol.rule =
      some 0x108 ∧
    (rulesAll tGoodM.part none none { tGood with hash := 5 }).map Viol.rule = some 0x108 ∧
    (rulesAll tGoodM.part none none { tGood with version := 3 }).map Viol.rule = some 0x102 := by decide +kernel

theorem witness_StructureRowsComplete_stage :
    [tAll synStageSpec (tStageD 2 0) tGoodM (fun d m => (stageViol d m).isNone && d.image == some tGood && !verifyOnly d && stageTarget d == 2),
     tAll synStageSpec (tStageD 1 1) tGoodM (fun d m => (stageViol d m).isNone && d.image.isSome && verifyOnly d),
     tAll synStageSpec (tStageD 1 0) tGoodM (fun d m => (stageViol d m).isNone && d.image == some tGood && !verifyOnly d && stageTarget d == 1),
     tAll synStageSpec (tStageD 1 0) tM (fun d m => (stageViol d m).isSome)].all id = true := by decide +kernel

theorem witness_StructureRowsComplete_activate :
    [tAll synActivateSpec (tD 2 synOid [(3, 3)]) tGoodM (fun d m => pay d 0 1 == 0 && actSource d == 0 && (slotViol m 0).isNone &&
       (bootInForce m.syn).isNone),
     tAll synActivateSpec (tD 2 synOid [(2, 1)]) tGoodM (fun d m => pay d 0 1 == 0 && actSource d == 1 && (slotViol m 1).isSome),
     tAll synActivateSpec (tD 2 synOid [(0, 1), (1, 1), (2, 2)]) { tGoodM with syn.ram := some tGood } (fun d m =>
       pay d 0 1 != 0 && actSource d == 2 && (slotViol m 2).isNone && m.pair.role != 2 && img m == some tGood && m.syn.ram == some tGood &&
       (rulesDie tGood tGood (actDie d) (audioGuards m)).isNone)].all id = true := by decide +kernel

theorem witness_StructureRowsComplete :
    [tAll synBootSetSpec (tD 2 synOid [(0, 7), (2, 30000)]) tM,
     tGo keyOwnerEnrolSpec (tD 1 synOid []) tGoodM (fun _ m => runOwner m == some tOwner && m.vault.ownerKey == none)].all id = true := by
  decide +kernel

theorem witness_CompoundRowsComplete_structures :
    [tAll synStageSpec (tStageD 0 0) { tGoodM with syn.startedSlot := 1 }
       (fun d m => (stageViol d m).isNone && d.image == some tGood && !verifyOnly d && stageTarget d == 0),
     tAll synActivateSpec (tD 2 synOid []) tGoodM (fun d m => pay d 0 1 == 0 && actSource d == 0 && !payBit d 3 0 && !payBit d 3 1 &&
       (slotViol m 0).isNone && (bootInForce m.syn).isNone)].all id = true := by decide +kernel

/-- The part was signed with the key that KEY_OWNER_ENROL then enrols. -/
theorem witness_OwnerKeyIsPermanent_enrol :
    tGo keyOwnerEnrolSpec (tD 1 synOid []) tGoodM (fun _ m => runOwner m == some tOwner) = true ∧ tGoodM.vault.ownerKey = none := by
  decide +kernel

def tWake9 : WakeCfg := { kind := 9, target := 0, compare := 0, threshold := 0, debounce := 1, delay := 5, bytes := 0 }

def tWakeM : M := { tM with pwr.slots := [(0, tWake9)] }

theorem witness_PowerRowsComplete :
    [tAll pwrWakeSetSpec (tD 2 (infraOid 0) [(0, 15), (1, 9), (6, 15), (8, 100)]) tM,
     tGo pwrEnterSpec (tD 0 (infraOid 0) [(0, 1)]) tWakeM (fun _ m => m.pair.role != 2)].all id = true := by decide +kernel

/-- A machine whose function 1 differs. -/
def tFn (f : Fn → Fn) : M := setFn 1 (f (getFn tM 1)) tM

def tCqe : Completion := { tag := 1, status := 0, ostate := 0xFF, seqLo := 0, detail := 0 }

def tEvR (l : Nat) : EvRec := { type := 1, level := l, quality := 0, sec := 0, ns := 0, obj := 0, data := [] }

theorem witness_HostPortsComplete :
    [barOpen tM, fnExists tM 1, decide ((getFn (tFn fun x => { x with directOut := 15 }) 1).directOut < 16),
     decide (16 ≤ (getFn (tFn fun x => { x with directOut := 16 }) 1).directOut),
     (getFn (tFn fun x => { x with directFifo := [tCqe] }) 1).directFifo == [tCqe],
     fnExists tM 0, (tget? (getFn tSqM 0).sub 0).any fun x => !x.fault && (64 + 2 ^ 32 - x.fetched) % 2 ^ 32 == x.depth,
     (tget? (getFn tSqM 0).sub 5).isNone,
     (tget? (getFn tCqM 0).cmp 0).any fun x => decide ((0 + 2 ^ 32 - x.returned % 2 ^ 32) % 2 ^ 32 ≤ x.written - x.returned),
     decide (tCqM.pwr.state < 3), decide (2 < vectorsOf 1)].all id = true := by decide +kernel

theorem witness_HostPortsComplete_vector :
    let m := setFn 0 { getFn tCqM 0 with cmp := tupd (getFn tCqM 0).cmp 0 fun x => { x with unsignalled := 1 } } tCqM
    ((tget? (getFn m 0).cmp 0).any fun x => x.unsignalled != 0 && decide (x.firstAt + x.coalUs * 1000 ≤ m.vault.mono)) = true ∧
    tget { tM with host.msix := tset tM.host.msix (msixKey 1 2) (true, true) }.host.msix (msixKey 1 2) (true, false) = (true, true) := by
  decide +kernel

theorem witness_EventQueuePortsComplete :
    let m := setEvq 1 0 { getEvq tM 1 0 with recs := [tEvR 5, tEvR 1] } tM
    evqPort m 1 0 = true ∧ evqBest (getEvq m 1 0).recs = some (tEvR 1) ∧ evqPort tM 1 0 = true ∧ (getEvq tM 1 0).recs = [] ∧
    bit (2 ^ 30) 30 = true := by decide +kernel

theorem witness_RegisterAccessesComplete :
    [barOpen tM, decide (maskWriter 63 = maskWriter 63), decide (63 < 64), decide (tM.pwr.state < 3), decide (tM.start.phase = .ready),
     fnExists tM 0, !wideDark tM .timNowMono, !windowDark tM { reg := .mixCnt, i := 1, j := 0, k := 0 },
     decide (0xB0100C < 0xB01010 ∧ 0xB0100C % 4 = 0), decide (0xB01010 ≥ 0xB01010 ∧ 0xAFFFFF < 0xB00000 ∧ 0xB00FFF < 0xB01000),
     [256, 512, 1024, 2048, 4096].contains 4096, decide (maskWriter 5 ≠ maskWriter 5 + 1)].all id = true := by decide +kernel

def tJr (op : Nat) : JRec :=
  { seq := 1, sec := 0, ns := 0, monoLo := 0, path := 0, origin := 0, result := 0, obj := 0, opcode := op, old := 0, new := 0, chain := 0 }

def tExp : ExportQ :=
  { enabled := true, full := true, next := 0, depth := 64, base := 0, writeBack := 0, consumedAt := 0, mask := 0, vector := 0,
    intCount := 1, written := 0, consumed := 0, unsignalled := 1, firstAt := 0, lastPoll := 0 }

theorem witness_JournalRowsComplete :
    let m := { tM with
      jrn.backlog := [tJr 1], jrn.anchors := [(0, 0, 0, 0)], vault.mono := 3600 * nsPerS, jrn.exports := [(0, tExp)] }
    m.jrn.mirrorFault = false ∧ m.jrn.backlog = [tJr 1] ∧ m.jrn.retried = false ∧
    { m with jrn.retried := true }.jrn.retried = true ∧ m.jrn.anchors ≠ [] ∧ m.jrn.lastAnchor + 3600 * nsPerS ≤ m.vault.mono ∧
    exportGet m 0 = some tExp ∧ tExp.full = true ∧ m.pwr.state < 3 ∧ tExp.lastPoll = 0 ∧ tExp.unsignalled ≠ 0 ∧
    tExp.firstAt + 1000000 ≤ m.vault.mono := by decide +kernel

/-- Time mode 0 (PTP) on port 0x10, both candidates set. -/
def tPtpM : M := { tM with tim.mode := 0, tim.activePort := 0x10, tim.portA := 0x10, tim.portB := 0x11, vault.mono := 10 ^ 10 }

def tMaster : Master := { attrs := [1, 6, 0x21, 0, 1, 9], sender := 5, qualified := true, last := 0, interval := 1000000 }

/-- Time mode 1 (REF) with a TIM_SET that waits since MONO 0. -/
def tRefM : M :=
  { tM with
    tim.mode := 1, tim.refEn := true, tim.rateNum := 25, tim.rateDen := 1, tim.refLast := some 0, tim.setWait := some (5, 0),
    vault.mono := 10 ^ 10,
    pend := [{ d := { tD 2 timOid [] with opcode := 0x0102 }, due := 0, kind := .instant, late := false, order := 0, waits := true, before := 0xFF }] }

theorem witness_TimeRowsComplete :
    [tPtpM.tim.mode == 0, tPtpM.tim.activePort == 0x10, !ptpDeaf tPtpM 0x10, tPtpM.tim.portA == 0x10, tPtpM.tim.portB == 0x11,
     !ptpDeaf tPtpM 0x11, announceDue tPtpM { tPtpM with tim.masterA := some tMaster }.tim.masterA,
     decide (tRefM.pwr.state < 3), tRefM.tim.refEn, (refPresence 0 tRefM).tim.mode == 1, (refPresence 0 tRefM).tim.setWait == some (5, 0),
     (timSetWaiting (refPresence 0 tRefM)).isSome, refPeriod tRefM.tim != 0,
     decide (0 * 100 + refPeriod tRefM.tim * 100 * (2 + 1) + refPeriod tRefM.tim ≤ tRefM.vault.mono * 100),
     decide (((10000 : Int).natAbs ≤ 10000) ≠ (tM.tim.tenPresent = true)), (timSetWaiting tRefM).isSome,
     decide (0 + 10000000000 ≤ tRefM.vault.mono)].all id = true := by decide +kernel

/-- An hour after the start, so that every periodic row may act. -/
def tHour : M := { tM with vault.mono := 3600 * nsPerS, dev := 3600 * nsPerS }

theorem witness_PaceRowsComplete :
    [tickOpen tHour 4 10000000, !avsRuns { tHour with avs.enabled := false }, avsRuns { tHour with avs.enabled := true },
     decide ({ tHour with avs.sentAt := some 0 }.avs.sentAt = some 0 ∧ 0 + 1000000 ≤ tHour.vault.mono ∧ tHour.avs.acksMissed < 2),
     decide (2 ≤ { tHour with avs.acksMissed := 2 }.avs.acksMissed), tickOpen tHour 5 1000000, tickOpen tHour 3 10000000,
     decide (tHour.pace.accRatio = [] ∧ tHour.pwr.state < 3)].all id = true := by decide +kernel

def tMixM (f : Mixer → Mixer) : M := setMixer 1 (f { getMixer tHour 1 with window := some 9, done := false, late := false, deadline := 9 }) tHour

/-- The compositor's job of a window that has ended, and an encode job past its deadline. -/
def tJobM : M := { cmpWindow (mkKey 1 0) tCmpRun with dev := 3600 * nsPerS }

def tJob : EncJob :=
  { window := 0, start := 0, deadline := 9, t := 0, key := true, switch := none, skip := false, src := none, late := false,
    rate := { targets := [], qpMin := 0, qpMax := 0, qpInit := 0, dqp := 0, limit := 0, carry := 0, kf := 0, weights := [] },
    discard := false }

def tEncJobM : M := { updEnc (oidKey tEncO) (fun e => { e with job := some tJob }) tEncRun with dev := 9 }

theorem witness_WindowRowsComplete :
    [(getStrm (updStream (mkKey 1 0) (fun y => { y with kind := 2, vfmt := 0x103, sync := { window := 0, fresh := some 1, current := none } })
        { tStrmM with dev := 3600 * nsPerS }) (mkKey 1 0)).any fun x =>
          x.kind == 2 && decide (x.sync.window < boundaryNo (formatWindow x.vfmt) (3600 * nsPerS)) && x.sync.fresh == some 1 && x.sync.current.isNone,
     bit { tHour with refout.enable := 1 }.refout.enable 0, refDriving { tHour with refout.enable := 1 },
     (winOpen (refGrid 5) (tget? tHour.ticks 6) tHour).isSome,
     (getMixer (tMixM id) 1).window == some 9, !(getMixer (tMixM id) 1).done, !(getMixer (tMixM id) 1).late,
     decide ((getMixer (tMixM id) 1).deadline ≤ (tMixM id).dev),
     (getCtx tDecM (mkKey 1 0)).any fun c => lateJobs c tDecM.dev == [],
     (getComp tJobM (mkKey 1 0)).any fun c => c.job.any fun j => decide (j.2 ≤ tJobM.dev),
     (getEnc tEncJobM (mkKey 1 (4096 + 2 * 64))).any fun e => e.job.any fun j => decide (j.deadline ≤ tEncJobM.dev)].all id = true := by decide +kernel

/-- The machine an hour on. -/
def tLate (m : M) : M := { m with vault.mono := m.vault.mono + 3600 * nsPerS, dev := m.dev + 3600 * nsPerS }

/-- What is held of the object of a key meets a condition. -/
def tHas {α : Type} (o : Option α) (p : α → Bool) : Bool := match o with | some x => p x | none => false

theorem witness_TaskRowsComplete_rows :
    [({ tM with tsk.parked := [(0, 0, 9)] }.tsk.parked.all fun t => (tM.pend.find? fun (p : Pend) => p.order == t.2.2).isNone),
     tHas (tget? { tM with tsk.arbs := [(10, { dieEqual := tM.tsk.dieEqual, dies := [] })] }.tsk.arbs 3 |>.or
       (some { dieEqual := tM.tsk.dieEqual, dies := [] })) fun a => a.dieEqual == tM.tsk.dieEqual,
     decide (10 - 3 ≤ tM.part.media), tM.start.phase == .ready,
     tHas (dueFirst 0 [{ d := { tD 0 (infraOid 0) [] with opcode := 0x0401 }, due := 0, kind := .instant, late := false, order := 0,
                         waits := false, before := 0 }]) fun p => (specOf p.d.opcode).isSome].all id = true := by decide +kernel

/-- A key operation in the fabric on the stream, and on the send stream. -/
def tOp (rx : Bool) : CipOp :=
  { id := 4, die := 1, leg := oidKey tLegO, stream := oidKey (if rx then tStrmO else tSendO), rx := rx, seq := 1, slot := 5, gen := 1,
    waiting := false, level := 0, blocks := 8, pipe := 0, st := 1, index := 0, report := none }

def tOpM (rx : Bool) : M :=
  { tKeyM with
    key.ops := [tOp rx],
    tsk.flows := [(flowKey 1 2, { next := 1, items := [{ token := 0, st := 0, low := none, op := some 4, body := .plain }], beyond := [] })] }

theorem witness_KeyRowsComplete_rows :
    [(required154 (tOpM true) 1).contains (5, 1),
     tHas (getSlot { tKeyM with key.slots := tupd tKeyM.key.slots 5 fun k => { k with prev := k.cur.map fun g => (g, 0) } } 5).prev
       fun p => decide (p.2 ≤ tKeyM.vault.mono),
     tHas (findOp (tOpM false) 4) fun o => o.st == 1 && !o.rx && o.report.isNone && (flowOfOp (tOpM false) o.die o.id).isSome,
     tHas (findOp (tOpM true) 4) fun o => o.st != 0 && o.rx && tHas (opGen (tOpM true) o) fun g => bit g.halves 0].all id = true := by
  decide +kernel

def tMedia : Payload :=
  { samples := [[1, 2, 3]], marker := true, spatial := 0, temporal := 0, key := true, switchPt := true, unit := 1,
    tei := false, pid := 256 }

def tFrame (t len : Nat) : Frame :=
  { die := 1, lane := 0, length := len, fcsOk := true, etype := t, vlan := none, hdrOk := true, fragment := false, dst := 9, src := 0x0A000001,
    srcPort := 5004, dstPort := 5004, second := 0, pt := 97, ssrc := 0, seq := 1, ts := 480, media := tMedia }

def tPortD : Desc := tD 0 (infraOid 1) [(0, 0), (1, 1), (2, 5), (8, 9), (12, 9216), (16, 9)]

def tNetM : M := setPort 16 { getPort (netPortSetSpec.apply tPortD tArmM).1 16 with linkUp := true } (netPortSetSpec.apply tPortD tArmM).1

/-- Frames of the least and the greatest length of the port. -/
theorem witness_ArrivalRowsComplete :
    ([64, 9216 + 18].all fun n => ([0, 1, 2, 3, 4, 5, 6].all fun t =>
      let f := tFrame t n
      let p := getPort tNetM (f.die * 16 + f.lane)
      decide (f.lane < 8) && ethPort tNetM (f.die * 16 + f.lane) && dieRun tNetM f.die && tNetM.start.phase == .ready && inRun tNetM &&
      p.linkUp && laneMode tNetM (f.die * 16 + f.lane) != 3 && f.fcsOk && decide (64 ≤ f.length) &&
      decide (f.length ≤ p.mtu + 18 + (if f.vlan.isSome then 4 else 0)) && f.dst == p.ip4 && p.ip6en && f.dst == p.ip6)) = true ∧
    tAll netPortSetSpec tPortD tArmM = true := by decide +kernel

def tNack (s : Bool) : Nack := { seq := 7, dueAt := 0, sent := s, repeatAt := 0 }

def tS0 (f : Strm → Strm) : M := tLate (updStream (oidKey tStrmO) f tLiveM)

def tL0 (f : Leg → Leg) : M := tLate (updLeg (oidKey tLegO) f tLiveM)

theorem witness_ArrivalRowsComplete_timers :
    [tHas (getStrm tStrmM (mkKey 1 0)) fun x =>
       (((liveHeld x).filter fun p => tickDue tStrmM p.playout).flatMap fun p => missingBelow x p.seq) == [],
     tHas (getStrm (tS0 fun x => { x with anchor := some 5, anchorAt := 0 }) (mkKey 1 0)) fun x =>
       x.anchor == some 5 && decide (x.anchorAt + 1000000000 ≤ (tS0 id).dev),
     tHas (getStrm (tS0 fun x => { x with state := 2 }) (mkKey 1 0)) fun x =>
       x.state == 2 && tickDue (tS0 id) (x.lastRelease + x.stallMs * 1000000),
     tHas (getLeg (tL0 fun l => { l with silenceS := 1, silent := false }) (mkKey 1 0)) fun l =>
       l.state == 3 && l.silenceS != 0 && !l.silent && tickDue (tL0 id) (l.lastRelease + l.silenceS * 1000000000),
     tHas (getStrm (tS0 fun x => { x with nacks := [tNack false] }) (mkKey 1 0)) fun x =>
       x.nacks == [tNack false] && tickDue (tS0 id) (tNack false).dueAt,
     tHas (getStrm (tS0 fun x => { x with nacks := [tNack true] }) (mkKey 1 0)) fun x =>
       x.nacks == [tNack true] && tickDue (tS0 id) (tNack true).repeatAt,
     tHas (getLeg (tL0 fun l => { l with flags := 4, rtcpAt := 0, rtcpGap := 0 }) (mkKey 1 0)) fun l =>
       bit l.flags 2 && legCarries l && tickDue (tL0 id) (l.rtcpAt + l.rtcpGap),
     [2, 3].any fun r => !feedbackOn { tL0 id with pair.role := r }].all id = true := by decide +kernel

/-- The leg's stream arrives by the SDI lane 2 of die 1, whose receiver has locked. -/
def tSdiM : M :=
  setPort 18 { getPort tLiveM 18 with linkUp := true }
    { updLeg (mkKey 1 0) (fun l => { l with transport := 1, port := 18 }) tLiveM with
      net.streams := tmap (tdel tLiveM.net.streams (mkKey 1 1)) fun _ x => { x with kind := 6, vfmt := 0x103 } }

theorem witness_ArrivalRowsComplete_sdi :
    [lanePers (img tLiveM) 1 2 == 4, dieRun tLiveM 1, !(getPort tLiveM (1 * 16 + 2)).linkUp, (getPort tSdiM (1 * 16 + 2)).linkUp,
     laneMode tSdiM (1 * 16 + 2) != 3,
     (match sdiStreams tSdiM (1 * 16 + 2) with
      | [(k, x)] => x.kind == 6 && getStrm tSdiM k == some x && tHas (getLeg tSdiM (strmLeg k)) fun l => l.state == 3 && legCarries l
      | _ => false)].all id = true := by decide +kernel

def tPkt : EPkt := { send := oidKey tSendO, seq := 1, ts := 0, udp := 100, len := 120, at_ := 0, due := 0, rtx := false, out := false, a := true, b := false }

def tHd : Handed := { seq := 1, ts := 0, lost := false, len := 100, media := tMedia }

def tX0 (f : Send → Send) : M := tLate (updSend (oidKey tSendO) f tLiveM)

theorem witness_ForwardingRowsComplete_rows :
    [tHas (tget? (tS0 fun x => { x with forward := [tHd] }).net.streams (mkKey 1 0)) fun x => x.forward == [tHd],
     tHas (getSend (tX0 fun x => { x with srcq := [tHd] }) (mkKey 1 4096)) fun x => x.srcq == [tHd],
     tHas (getSend (tX0 fun x => { x with upSince := some 0 }) (mkKey 1 4096)) fun x => x.upSince == some 0,
     tHas (getLeg (tX0 id) (sendLeg (mkKey 1 4096))) fun l =>
       legCarries l && tickDue (tX0 id) (0 + (getProfile (tX0 id) l.profile).upWait * 1000000)].all id = true := by decide +kernel

def tPaced : Paced := { start := 0, next := 0, count := 4, num := 1000, den := 1, ts := 0 }

def tRtcp : Rtcp :=
  { leg := oidKey tLegO, src := 1, srcPort := 2, authOk := true, prevOk := false, hasReport := false, blocks := [], nacks := [], plis := [], others := [] }

def tFlowM : M :=
  tLate { tM with
    tsk.flows := [(flowKey 1 2, { next := 1, items := [{ token := 0, st := 0, low := some 0, op := none, body := .plain }], beyond := [] })] }

theorem witness_DepartureRowsComplete :
    [(getTPort (setTPort 16 { getTPort tM 16 with busy := some (queueKey 1 0, false, tPkt) } tM) (1 * 16 + 0)).busy == some (queueKey 1 0, false, tPkt),
     tickOpen tHour 1 1000, decide (tHour.snd.queues = []), dieRun tHour 1, tickOpen tHour (tkSample + 1) (sampleUs tHour 1 * 1000),
     tHas (getSend (tX0 fun x => { x with paced := [tPaced] }) (mkKey 1 4096)) fun x =>
       x.paced == [tPaced] && decide (tPaced.start * tPaced.den + tPaced.next * tPaced.num ≤ (tX0 id).dev * tPaced.den),
     tHas (getSend (tX0 fun x => { x with kind := 6, state := 2, psiAt := 0, pcrAt := 3600 * nsPerS }) (mkKey 1 4096)) fun x =>
       x.kind == 6 && x.state == 2 && decide (x.psiAt + 100000000 ≤ (tX0 id).vault.mono) && decide ((tX0 id).vault.mono < x.pcrAt + 40000000),
     (match (getFlow tFlowM 1 2).items with
      | i :: _ => i.st == 0 && (match i.low with | some t => decide (t + 1000000 ≤ tFlowM.dev) | none => false)
      | [] => false),
     tHas (getLeg tLiveM tRtcp.leg) fun l => legCarries l && l.transport == 0 && !legSrtp l,
     tHas (getLeg (tL0 fun l => { l with flags := 4, rtcpAt := 0, rtcpGap := 0 }) (sendLeg (mkKey 1 4096))) fun l => bit l.flags 2 && legCarries l,
     tHas (getSend (tX0 fun x => { x with srAt := 0, srGap := 0 }) (mkKey 1 4096)) fun x => tickDue (tX0 id) (x.srAt + x.srGap),
     feedbackOn (tX0 id), tHas (getLeg (tX0 id) (sendLeg (mkKey 1 4096))) fun l => destKnown (tX0 id) (sendLeg (mkKey 1 4096)) l].all id
      = true := by decide +kernel

theorem witness_LegRowsComplete_rows :
    [tHas (getLeg (updLeg (oidKey tLegO) (fun l => { l with state := 4 }) tLegM) (mkKey 1 0)) fun l =>
       l.state == 4 && legEmpty (mkKey 1 0) l tLegM,
     tHas (getLeg (tL0 fun l => { l with state := 4 }) (mkKey 1 0)) fun l =>
       l.state == 4 && decide (l.drainAt + l.drainMs * 1000000 ≤ (tL0 id).vault.mono)].all id = true := by decide +kernel

/-- The video stream made H.265 lies in the same slot; made G.711 it takes an instance. -/
def tMoveD : Desc := tD 0 tStrmO [(0, 0), (1, 96), (2, 2), (8, 10000), (12, 20000), (16, 20), (18, 100), (22, 1000)]

def tSendMoveD : Desc := tD 0 tSendO [(0, 0), (1, 96), (2, 2), (4, 77), (14, 20), (20, 64)]

/-- An engine of the die runs AUDIO_SVC. -/
def tSvc : Blob := { tBlob with id := 0x3000, service := true, functions := [] }

def tSvcM (m : M) : M :=
  setDsp 1 0 (dspLoad tSvc false false)
    { m with syn.run := some { tImage with sections := tSect 0x102 1 1 (.dspFw [tSvc]) :: tImage.sections } }

theorem witness_StreamCommandsComplete_move :
    [tAll netStreamModifySpec tMoveD (tSvcM tStrmM) (fun d m => tHas (getStrm m (strmOfD d)) fun x => strmMovesInst d x),
     tAll netSendModifySpec tSendMoveD (tSvcM tSendM) (fun d m => tHas (getSend m (strmOfD d)) fun x => sendMovesInst d x)].all id = true := by
  decide +kernel

def tBus : Nat := busOf tBusO

def tPart0 : Partial := { bus := tBus, die := 1, window := 0, sums := List.replicate 48 1, owned := [], arrived := true }

def tTotal : Total := { bus := tBus, window := 0, sums := [], mask := 1, owned := [], at_ := [] }

def tMixedM : M := { (mixLegSetSpec.apply tMixLegD tBusM).1 with mix.partials := [tPart0], mix.totals := [tTotal], dev := 1500000 }

def tMixWin : M := setMixer 1 { getMixer tBusM 1 with window := some 0, done := false, deadline := 500000 } { tBusM with dev := 499999 }

theorem witness_MixerRowsComplete_rows :
    [(getMixer (mixOverrun 1 tMixWin) 1).window.isSome, !(getMixer (mixOverrun 1 tMixWin) 1).done,
     tHas (getBus tMixedM tBus) fun x => x.lastAdd.isNone && decide (busE x / 2 + busE x ≤ tMixedM.dev) &&
       (tMixedM.mix.partials.any fun p => p.window == (tMixedM.dev - busE x / 2) / busE x - 1 && p.sums.length == busN x),
     dieAdds tMixedM 1, (tMixedM.mix.totals.find? fun t => t.bus == tBus) == some tTotal, (busLegDies tMixedM tBus).contains 1,
     dieRun tMixedM 1, !tTotal.at_.contains 1, (getLegOut tMixedM (oidKey tLegO)).isSome,
     decide ((getMixer (tLate tBusM) 1).meterAt + (getMixer (tLate tBusM) 1).meterMs * 1000000 ≤ (tLate tBusM).dev)].all id = true := by
  decide +kernel

def tMo (f : Modem → Modem) : M := updMod 1 0 f (tLate tRxM)

def tTo (f : Modem → Modem) : M := updMod 1 0 f (tLate tTxM)

theorem witness_ModemRowsComplete_rows :
    [tHas (getMod (tMo fun x => { x with state := 2, jesd := true, stage := 5, searchAt := some 0, badRun := 31 }) 1 0) fun x =>
       x.cfg.isSome && x.state == 2 && x.jesd && decide (0 < x.stage ∧ x.stage ≤ 5) && x.badRun == 31,
     tHas (getMod (tMo fun x => { x with state := 2, jesd := true, stage := 4, searchAt := some 0 }) 1 0) fun x =>
       x.state == 2 && decide (x.stage < 5) &&
       tHas x.cfg fun c => tHas x.searchAt fun t => decide (t + c.lockTimeout * 1000000 ≤ (tMo id).vault.mono),
     tHas (getMod (tMo fun x => { x with state := 2, jesd := true, stage := 0 }) 1 0) fun x => x.stage == 0 && x.jesd && x.state == 2,
     laneChannel (tMo id) 1 5 == some 0,
     tHas (getMod (tMo fun x => { x with jesd := false }) 1 0) fun x => !x.jesd,
     tHas (getMod (tMo fun x => { x with jesd := true, state := 1 }) 1 0) fun x => x.jesd && x.state != 2,
     tickOpen (tMo id) (tkIq 1 0) 1000000,
     tHas (getMod (tMo fun x => { x with wire := some 1, spiNext := none, queue := [] }) 1 0) fun x => x.wire.isSome && x.queue == [],
     tHas (getMod (tMo fun x => { x with wire := some 1, spiNext := none, queue := [5] }) 1 0) fun x => x.wire.isSome && x.queue == [5],
     claimHeld (tMo id),
     tHas (getMod (tTo fun x => { x with state := 3 }) 1 0) fun x => (symbolStart x).state == 3 &&
       tHas x.cfg fun c => (maskWorst (halfBand c) ((symbolStart x).mask.getD []) []).isNone].all id = true := by decide +kernel

/-- A picture of the context, presented and held by a snapshot, and an access unit's task on its engine. -/
def tAu : AuInfo :=
  { rap := true, tool := false, layers := [{ s := 0, width := 1280, height := 720 }], t := 0, switchS := true, switchT := true, dpb := 1,
    yuv422 := false, badNal := 0, headLost := false, lost := false }

def tBuf : Buf :=
  { short := false, long := false, out := true, cmpHold := 0, encRef := 0, peer := false, concealed := false, tainted := false, format := 4,
    context := 0, width := 1280, height := 720, colour := 1, s := 0, t := 0, pix := .grey, spare := false }

def tShowM : M :=
  addBuf 1 7 tBuf (updCtx (oidKey tCtxO) (fun c => { c with shown := some { desc := 7, tainted := false, s := 0, t := 0 } })
    { tDecM with mem.chans := [(0, tChan), (1, tChan)] })

def tSnapD : Desc := tD 0 tCtxO [(0, 0)]

def tBusyM : M :=
  { updCtx (oidKey tCtxO) (fun c => { c with queue := [(0, 10 ^ 9, tAu)], busy := true }) tDecM with
    enc.engines := [((1 * 16 + (getCtx tDecM (oidKey tCtxO)).elim 0 fun _ => 0), oidKey tCtxO)] }

theorem witness_DecoderRowsComplete_rows :
    [tAll fbpSnapshotSpec tSnapD tShowM (fun d m => (snapPic d m).isSome),
     (getPool (setPool 1 { getPool tShowM 1 with snap := some (tSnapD, 7, 0, 9) } tShowM) 1).snap == some (tSnapD, 7, 0, 9),
     tHas (getCtx (updCtx (oidKey tCtxO) (fun c => { c with pliWait := true, lastPli := some 0 }) (tLate tDecM)) (mkKey 1 0)) fun c =>
       c.state == 2 && c.pliWait && c.lastPli.isSome && pliOpen c (tLate tDecM) && ctxFeedback (tLate tDecM) c,
     (getBuf tShowM 1 7).isSome, Memory.wf [(4096, 1#8)],
     tHas (getCtx (updCtx (oidKey tCtxO) (fun c => { c with inbox := [tHd] }) tDecM) (mkKey 1 0)) fun c =>
       c.state == 2 && (tHas (getStrm tDecM c.stream) fun x => x.kind != 8) && auLen false none c.inbox == some 1 &&
       !auLost tAu.headLost (c.inbox.take 1) && !tAu.lost && c.codec == 16,
     tHas (getCtx (updCtx (oidKey tCtxO) (fun c => { c with waitingRap := true }) tDecM) (mkKey 1 0)) fun c => c.waitingRap,
     tHas (getCtx tBusyM (mkKey 1 0)) fun c => c.busy && c.queue.length == 1 && onEngine tBusyM (mkKey 1 0),
     (freeDesc (decodeStrobe (mkKey 1 0) tBusyM) 1).isSome].all id = true := by decide +kernel

def tCmpJobM (f : CFrame → CFrame) : M :=
  updComp (oidKey tCmpO) (fun c => { c with job := c.job.map fun j => (f j.1, j.2) }) (cmpWindow (oidKey tCmpO) tCmpRun)

def tGuard : Guard :=
  { x := 0, y := 0, w := 1, h := 1, alpha := 0, policy := 0, band := 0, bandColour := 0, content := [], crc := 5 }

/-- A send stream of uncompressed video for the compositor's output. -/
def tPacedM : M := (netSendDefineSpec.apply (tD 0 (tSendO + 1) [(0, 2), (1, 96), (4, 77), (14, 0x103), (20, 1000)]) tCmpM).1

/-- A staged set captured by a commit. -/
def tCapM : M := updComp (oidKey tCmpO) (fun c => { c with captured := some c.staged }) tLayM

theorem witness_CompositorRowsComplete_commit :
    [tAll cmpOutputSetSpec (tD 0 tCmpO [(0, 0), (1, 2), (4, tSendO + 1)]) tPacedM (fun d _ => (outputOf d).isSome),
     tDue cmpCommitSpec (tD 0 tCmpO []) tCapM (fun d m => tHas (getComp m (cmpKey d)) fun c => !payBit d 0 0 &&
       tHas c.captured fun x => splitLayers (cmpWidth m (cmpKey d)) x == [] &&
         tHas (getComp (applySet (cmpKey d) x m) (cmpKey d)) fun y => decide (y.load ≤ 1000))].all id = true := by decide +kernel

theorem witness_CompositorRowsComplete_rows :
    [tHas (getComp (tLate (tCmpJobM id)) (mkKey 1 0)) fun c => tHas c.job fun j => decide (j.2 ≤ (tLate (tCmpJobM id)).dev),
     tHas (getComp (tCmpJobM id) (mkKey 1 0)) fun c => tHas c.job fun j => decide ((tCmpJobM id).dev < j.2) && j.1.guard.isNone,
     tHas (getComp (tCmpJobM fun f => { f with guard := some tGuard }) (mkKey 1 0)) fun c => tHas c.job fun j =>
       decide ((tCmpJobM id).dev < j.2) && j.1.guard.isSome].all id = true := by decide +kernel

def tDropJob : EncJob :=
  { window := 0, start := 0, deadline := 9, t := 0, key := true, switch := none, skip := false, src := none, late := false,
    rate := { targets := [], qpMin := 0, qpMax := 0, qpInit := 0, dqp := 0, limit := 0, carry := 0, kf := 0, weights := [] },
    discard := true }

def tEncOn : M :=
  { updEnc (oidKey tEncO) (fun e => { e with job := some tDropJob }) tEncRun with enc.engines := [(1 * 16 + 2, oidKey tEncO)] }

theorem witness_EncoderRowsComplete_rows :
    [onEngine tEncOn (oidKey tEncO),
     tHas (getEnc tEncOn (oidKey tEncO)) fun e => tHas e.job fun j => j.discard && j.src.isNone && decide (tEncOn.dev < j.deadline),
     tHas (getEnc tEncOn (oidKey tEncO)) fun e => tHas e.job fun j => decide (j.deadline ≤ { tEncOn with dev := 10 ^ 12 }.dev),
     tAll encContextCloseSpec (tD 0 tEncO []) tEncOn
       (fun d m => tHas (getEnc m (encKey d)) fun e => e.job.isSome && onEngine m (encKey d)),
     tAll encKeyframeSpec (tD 0 tEncO [(0, 1), (1, 1)])
       (updEnc (oidKey tEncO) (fun e => { e with s := 2, req := some { scope := 1, s := 0, merged := 0, at_ := 0, force := false } }) tEncRun)
       (fun d m => tHas (getEnc m (encKey d)) fun e => pay d 0 1 == 1 && tHas e.req fun r => r.scope == 1)].all id = true := by
  decide +kernel

def tPairedM : M :=
  let m := (dspPairSpec.apply (tD 0 tDspO [(0, 1), (2, 0x2000)]) tWideM).1
  setDsp 1 0 { dspLoad tBlob true false with state := 2 } m

def tTask : DTask := { stream := oidKey tStrmO, decode := true, ts := 0, samples := [], flow := 0, token := 1, level := 2 }

theorem witness_DspCommandsComplete_actions :
    [tAll dspRestartSpec { tD 0 tDspO [] with flags := 4 } (tDspM 0) (fun d m => dspCode d m == 1),
     tAll dspPairSpec (tD 0 tDspO [(0, 1), (2, 0x2000)]) tWideM (fun d m => wantJoin d &&
       !(engineBegun (dspJoin (oidDie (oid d)) (dspNo d) { tBlob with id := 0x2000, wide := true } m) (oidDie (oid d)) (dspNo d))),
     tAll dspPairSpec (tD 0 tDspO []) tPairedM (fun d m =>
       !wantJoin d && !(engineBegun (dspSplit (oidDie (oid d)) (dspNo d) m) (oidDie (oid d)) (dspNo d)))].all id = true := by decide +kernel

/-- Every opcode with fields of zero issues, RET and RTI with a call outstanding and PUTT with a task of handle 0 in hand. -/
theorem witness_DspInstructionsIssue :
    ((List.range 20 ++ [32, 33, 34, 35, 36, 37, 48, 49, 50, 51, 52, 53, 54, 55, 56, 57, 58]).all fun op =>
      let e := { tEng (op * 2 ^ 58) with pcstk := [(0, 0)], hand := [(0, tTask)] }
      getDsp (setDsp 1 0 e tM) 1 0 == some e && mayIssue e op && opOf (progAt (commit e) (commit e).pc) == op &&
      (wordFault (commit e) (progAt (commit e) (commit e).pc)).isNone) = true := by decide +kernel

theorem witness_DspInstructionsIssue_rows :
    [(nextTask (tDspM 0) 1 0).isNone,
     (let e := { tEng 0 with ie := true, winEn := true, winDue := true }
      e.state == 1 && e.started && !e.delay && !e.c3 && decide ((commitAll e).pcstk.length < 16)),
     (let e := { tEng 0 with ie := true, parEn := true, parDue := true }
      !(e.winEn && e.winDue) && e.state == 1 && decide ((commitAll e).pcstk.length < 16)),
     (let e := tEng (20 * 2 ^ 58)
      mayIssue e 20 && wordFault (commit e) (progAt (commit e) (commit e).pc) == some 1)].all id = true := by decide +kernel

/-- A media die's channel 3, and the hub's two channels, trained. -/
def tMemM' : M := { tHour with mem.chans := [(0, tChan), (1, tChan), (memKey 1 3, tChan)] }

def tAct : RowAct := { row := 5, sampled := [(5, 1)] }

theorem witness_MemoryRowsComplete_rows :
    [tHas (getChan tMemM' (memKey 1 3)) fun c => c.state == 2, (tget? tM.mem.chans (memKey 1 0)).isNone,
     tickOpen tMemM' (tkTemp 1 1) 10000000, tHas (tget? tMemM'.mem.chans (memKey 1 (2 * 1 + 1))) fun c => c.state == 2,
     decide ((getTracker tMemM' (trackKey 1 3 0)).since + trackNs ≤ tMemM'.vault.mono),
     [0, 4].map (fun n =>
       let t0 := getTracker { tMemM' with mem.trackers := [(trackKey 1 3 0, { rows := [], since := 0, threshold := n })] } (trackKey 1 3 0)
       decide (t0.threshold ≤ rowEstimate (tAct.sampled.foldl trackRun t0.rows) tAct.row)) == [true, true],
     decide (rowEstimate (tAct.sampled.foldl trackRun []) tAct.row < 5),
     dieRun tMemM' 1, memProtected tMemM' 1 (.rxPacket 0 0), decide (memRegion (.rxPacket 0 0) ≠ 3), hubHolds tMemM' 3 (.rxPacket 0 0),
     decide (memRegion .ring = 3), hubHolds tMemM' 0 .ring, tHas (getChan tMemM' (memKey 0 0)) fun c => c.state == 2].all id = true := by
  decide +kernel

/-- Lane 5 of die 1 has personality 3; GPIO pin 4 is an output. -/
def tGpioM (f : GpioPin → GpioPin) : M := setGpio 4 (f gpioReset) tHour

def tLaneM (n : Nat) : M := setLanePin 1 3 { lanePin tHour 1 3 with tx := n } tHour

/-- An image whose PART section names the owner of the I3C port. -/
def tOwnI3c (n : Nat) : M :=
  { tHour with syn.run := some { tImage with
      sections := tSect 1 0xFF 0 (.part 1 [[8, 8, 8, 8, 8, 8], [0], [0], [4, 4, 4, 4, 4, 4]] n 0 1) :: tImage.sections.tail } }

theorem witness_PinRowsComplete_rows :
    [pinsOn tHour 1, laneThere tHour 1 3, lanePers (img tHour) 1 3 == 6, orderOk 228, !ethPort tHour (1 * 16 + 3),
     laneIdle (tLaneM 0) 1 3, (lanePin (tLaneM 0) 1 3).tx == 0, laneIdle (tLaneM 1) 1 3, (lanePin (tLaneM 1) 1 3).tx == 1,
     decide ((lanePin (tLaneM 1) 1 3).tx < 2), pinsOn tHour 0, !(gpioPin tHour 31).output, (gpioPin (tGpioM fun g => { g with output := true }) 4).output,
     { tHour with pair.excl := true }.pair.excl, decide ((gpioPin tHour 4).settleUntil ≤ tHour.vault.mono), (gpioPin tHour 4).fault != 6,
     inRun tHour, (gpioPin (tGpioM fun g => { g with openTest := true, openRun := 1 }) 4).openTest, !(gpioPin (tGpioM id) 4).output,
     decide (0 < lsBits 1), !bit (tget tHour.pin.ls 1 0) 0, tHour.pin.i3cStuck == 0, decide (tHour.pwr.state < 3), tHour.start.phase == .ready,
     imgI3cOwner (img (tOwnI3c 0)) == 0, imgI3cOwner (img (tOwnI3c 1)) != 0].all id = true := by decide +kernel

def tHbRun (n : Nat) : HbLane := { last := some 0, run := n, up := false }

/-- Both hub lanes are CONJ. -/
def tConjM : M := { tHour with syn.run := some { tImage with sections := tSect 3 0 0 (.lanes [6, 6] []) :: tImage.sections } }

def tPairM (f : PairSt → PairSt) : M := { tConjM with pair := f { tHour.pair with role := 3, c := 9, wire := tHbRun 1 } }

def tBeat (ok : Bool) : Heartbeat :=
  { claim := 1, role := 2, part := 0x808, hash := 0, serial := 1, lane := 1, laneId := 0, crcOk := ok, carrying := true, restr := false }

theorem witness_PairingRowsComplete_rows :
    [pairActive (tPairM id), tickOpen (tPairM id) 2 1000000, conjLanes (tPairM id), (tPairM id).pair.peer.isNone,
     decide ((tBeat true).serial ≠ (tPairM id).part.serial), !(beatTake (tPairM id).vault.mono (tPairM id).pair.wire).up,
     decide ((tPairM id).pair.role ≠ 0), decide ((tPairM id).pair.mismatch ≠ 2), (tPairM fun p => { p with heard := none }).pair.heard.isNone,
     decide (0 + 10000000 ≤ (tPairM fun p => { p with release := some (tD 0 tPairO [], 0) }).vault.mono),
     decide (tHour.dev / replayNs tHour ≠ 0 ∧ tHour.pair.window ≠ some (tHour.dev / replayNs tHour) ∧ tHour.pair.role < 2 ∧
       tHour.pair.delayNext = none),
     decide ((0 + 2) * replayNs tHour ≤ tHour.dev), decide (tHour.dev < (tHour.dev / replayNs tHour + 2) * replayNs tHour),
     decide (((tPairM fun p => { p with role := 2, unacked := [3, 5] }).pair.unacked.filter fun w => decide (4 < w)) ≠ []),
     outKind tSendM (oidKey tSendO) != 0, outKind (updSend (oidKey tSendO) (fun x => { x with kind := 0 }) tSendM) (oidKey tSendO) == 0].all id = true := by decide +kernel

theorem witness_PairingRowsComplete_commands :
    [tAll pairClaimSpec (tD 0 tPairO [(0, 0)])
       { tM with pair.role := 1, pair.c := 5, pair.e := 5, pair.peer := some { restr := false, claim := 5, role := 2, part := partNo tM, hash := 0, serial := 1 },
                 pair.wire := { last := some 0, run := 3, up := true } } (fun d m => pay d 0 1 == 0 && mayRelease m),
     tDue pairWakeSpec (tD 2 tPairO []) { tM with pair.role := 1, pair.wire.up := true } (fun d m => d.path != .peer && anyPathUp m),
     (match taken { tD 2 tPairO [] with opcode := 0x0903 } { tM with pair.role := 1 } with
      | some (x, m1) => (earlyFail pairWakeSpec x m1).isNone && x.path != .peer && !anyPathUp m1
      | none => false)].all id = true := by decide +kernel

/-- The part of one die with an image staged and accepted, to a slot and into RAM. -/
def tStagingM (i : Image) : M :=
  { tGoodM with syn.staging := some { d := { tStageD 1 0 with image := some i }, target := 1, image := i }, vault.mono := 3600 * nsPerS }

def tRest (n : Nat) : Restructure :=
  { d := tD 2 synOid [], die := 1, step := n, t0 := 0, t2 := 0, quiesceAt := 0, image := tGood, prev := tGood, fromSlot := none,
    prefer := false, rollback := false, failStep := 0 }

def tRestM (n : Nat) : M := { tGoodM with syn.rest := some (tRest n), vault.mono := 3600 * nsPerS }

def tGoodChan : ChanResult :=
  { present := true, density16 := true, mirrored := false, byteSwap := false, swizzle := 0, cause := 0, pin := 0, bestRate := 3 }

def tDieRes : DieResult :=
  { selfTestOk := true, hubLinkOk := true, chans := List.replicate 4 tGoodChan, lanesOk := List.replicate 8 true, temp := 250 }

theorem witness_StructureRowsComplete_rows :
    [tHas (tStagingM tGood).syn.staging fun g => (stageViol g.d (tStagingM tGood)).isNone,
     tHas (tStagingM { tGood with version := 3 }).syn.staging fun g => (stageViol g.d (tStagingM { tGood with version := 3 })).isSome,
     { tHour with syn.restartAt := some 0 }.syn.restartAt == some 0, quiesceDue (tRest 1) (tRestM 1),
     !memShort (poolSize 1 (memTrain 1 tDieRes.chans (tRestM 4))) 1, tDieRes.hubLinkOk, !lanesShort (tRestM 6) 1 tDieRes.lanesOk,
     decide ((tRest 2).t2 + 300000000 ≤ (tRestM 2).vault.mono), !(tRest 2).rollback,
     { tRest 2 with rollback := true }.rollback && decide ({ tRest 2 with rollback := true }.t0 + 300000000 ≤ (tRestM 2).vault.mono)].all
      id = true := by decide +kernel

/-- Both answers that the flash may give are met: neither is a premise. A slot verified against the record in force. -/
theorem witness_StructureRowsComplete_slot :
    tAll synActivateSpec (tD 2 synOid [(3, 1)]) tGoodM (fun d m => pay d 0 1 == 0 && decide (actSource d ≤ 1) && (slotViol m (actSource d)).isNone &&
      (bootInForce m.syn).isNone && payBit d 3 0) = true := by decide +kernel

def tLink (st : Nat) (r : List (Nat × Nat)) : FoldLink :=
  { state := st, rerouted := false, retrainSpent := false, load := 0, downAt := 0, trainAt := 3600 * nsPerS, retry := r }

def tLinkM (x : FoldLink) : M := updLink 3 (fun _ => x) { tHour with fold := [(3, x)] }

theorem witness_FoldRowsComplete :
    [getLink (tLinkM (tLink 2 [])) 3 == some (tLink 2 []), !restLink (tLinkM (tLink 2 [])) 3, retryOf (tLink 2 [(8, 1)]) 7 == none,
     getLink (tLinkM (tLink 2 [(7, 1)])) 3 == some (tLink 2 [(7, 1)]), retryOf (tLink 2 [(7, 1)]) 7 == some 1,
     getLink (tLinkM (tLink 3 [])) 3 == some (tLink 3 []), !(tLink 3 []).retrainSpent,
     decide ((tLink 3 []).downAt + 100000000 ≤ tHour.vault.mono), getLink (tLinkM (tLink 1 [])) 3 == some (tLink 1 []),
     decide (tHour.vault.mono ≤ (tLink 1 []).trainAt + 20000000)].all id = true := by decide +kernel

def tEndsM : M := { (tLinkM (tLink 1 [])) with part.media := 8, syn.dies := (List.range 9).map fun d => (d, (1, 0)) }

theorem witness_FoldRowsComplete_ends :
    tHas (linkEnds tEndsM.part.media 3) (fun e => !dieOut tEndsM e.1 && !dieOut tEndsM e.2) = true := by decide +kernel

/-- A stream of a kind that arrives by SDI: audio (7), and video (6) of a format, other than the stream's or the stream's own. -/
def tSdiKind (n : Nat) : M := { tSdiM with net.streams := tmap tSdiM.net.streams fun _ x => { x with kind := n } }

theorem witness_SdiRowsComplete :
    [lanePers (img tM) 1 2 == 4, dieRun tM 1, !(getPort tM (1 * 16 + 2)).linkUp, (getPort tSdiM (1 * 16 + 2)).linkUp,
     sdiStreams tM (1 * 16 + 2) == [],
     [6, 7].all fun n => laneMode (tSdiKind n) (1 * 16 + 2) != 3 && (match sdiStreams (tSdiKind n) (1 * 16 + 2) with
       | [(k, x)] => x.kind == n && x.vfmt == 0x103 && !x.mismatch && getStrm (tSdiKind n) k == some x &&
           tHas (getLeg (tSdiKind n) (strmLeg k)) fun l => l.state == 3 && legCarries l
       | _ => false)].all id = true := by decide +kernel

/-- The part at reset with both resets released: a start has begun. -/
def tBegun : M := { mReset with start.porstLow := false, start.perstLow := false, start.supplyLow := 0, start.begun := true }

def tResult : StartResult :=
  { upTo := 13, flash2Ok := true, flash5Ok := true, bootWriteOk := true, linkSpeed := 5, linkWidth := 16, flit := false,
    pcie := { inverted := 0, reversed := false, failed := 0 }, keyStoreOk := true,
    hubTemp := 250, hubChans := [], dies := List.replicate 10 tDieRes, ringOk := [], alarms := 0, hubLanesOk := [] }

def tStemM (f : StartSt → StartSt) : M := { tHour with start := f { tHour.start with phase := .stem, flashOp := none } }

theorem witness_StartRowsComplete :
    [tBegun.start.phase == .starting, released tBegun, !thermalBad tResult tBegun, { mReset with start.porstLow := true }.start.porstLow,
     { mReset with start.perstLow := true }.start.perstLow,
     released tHour, !bit tHour.start.supplyLow 7, decide (tBegun.start.t0 + tBegun.start.watchdogMs * 1000000 ≤ (tLate tBegun).vault.mono),
     { tBegun with start.restartBy := some 9 }.start.restartBy == some 9, { tHour with start.otherVerify := some 1 }.start.otherVerify == some 1,
     (tStemM id).start.phase == .stem, (tStemM id).start.flashOp.isNone,
     (flashOutcome { op := 1, addr := 0x20000, len := 0 } true (tStemM id)).1 == 0, unlockOk (tStemM id),
     !unlockOk { tStemM id with vault.ownerKey := some 9 }].all id = true := by decide +kernel

/-- Stem mode with no operation on the flash, and with one; the owner's switches let debug be unlocked, or no key is enrolled. -/
theorem witness_RegisterAccessesComplete_stem :
    [(tStemM id).start.phase == .stem, (tStemM id).start.flashOp.isNone,
     (tStemM fun x => { x with flashOp := some { op := 4, addr := 0, len := 0 } }).start.flashOp == some { op := 4, addr := 0, len := 0 },
     fnExists (tStemM id) 0].all id = true := by decide +kernel

def tAsleep (n : Nat) (f : PwrSt → PwrSt) : M :=
  { tHour with pwr := f { tHour.pwr with state := n, mask := 1, slots := [(0, tWake9)], entry := some (tD 0 (infraOid 0) []), entryStep := 5 } }

theorem witness_PowerRowsComplete_rows :
    [decide ((tAsleep 2 id).pwr.lastSample + samplePeriod (tAsleep 2 id) ≤ (tAsleep 2 id).vault.mono), bit (tAsleep 3 id).pwr.mask 0,
     (wakeCfg (tAsleep 3 id) 0).kind == 9, continuous 9,
     decide ((tAsleep 3 id).pwr.entryMono + (wakeCfg (tAsleep 3 id) 0).delay * 1000000 ≤ (tAsleep 3 id).vault.mono),
     (tAsleep 2 id).pwr.entry.isSome, (tAsleep 2 id).pwr.entryStep == 5, (tAsleep 2 id).pwr.first.isNone,
     (tAsleep 2 fun p => { p with first := some 0 }).pwr.first.isSome, decide ((tAsleep 3 id).pwr.kept.length < 64),
     ((List.range 16).find? fun i => bit (tAsleep 3 id).pwr.mask i && (wakeCfg (tAsleep 3 id) i).kind == 7).isNone,
     (tAsleep 4 id).pwr.state == 4, decide (0 + 1000000 ≤ { tHour with pwr.wakeLow := some 0 }.vault.mono),
     !sensorOff 0 tHour, bit { tHour with key.present := 1 }.key.present 0, !sensorOff 7 tHour, decide ((8 : Nat) ≤ 8 ∧ tHour.pwr.state < 3),
     !tempBeyond tHour 250, !bit tHour.key.hotDies 1, !tempOut tHour 250].all id = true := by decide +kernel

/-! ## Witnesses: the rules of the shared operations -/

/-- A next state is answered. -/
def tNext (o : Host.Outcome State Fault Refusal) : Bool := match o with | .next _ => true | _ => false

def tNop : Desc := { tD 1 (ringOid 1 2 0) [] with opcode := 0x0603 }

/-- A machine with HIF_NOP waiting at the direct port of function 1. -/
def tNopM : M := setFn 1 { getFn tM 1 with directWait := [tNop], directOut := 1 } tM

def tOwned : M := { tM with vault.ownerKey := some 9 }

theorem witness_StepRunsTheFrontCommand : State.reset.pending = [] := rfl

theorem witness_OwnerKeyIsPermanent :
    (tS tOwned).m.vault.ownerKey = some 9 ∧ tNext (step (tS tOwned)) = true ∧
    tNext (step { tS tOwned with pending := [.policerRefill] }) = true := by decide +kernel

theorem witness_OwnerKeyIsPermanent_enrolled :
    (match step { tS tGoodM with pending := [.keyOwnerEnrol { tD 1 synOid [] with opcode := 0x0701 }] } with
     | .next t => t.m.vault.ownerKey
     | _ => none) = some tOwner ∧ tGoodM.vault.ownerKey = none := by decide +kernel

theorem witness_MonoOnlyCounts :
    tNext (exec .alwaysOnPowerUp (tS tM)) = true ∧ Instr.policerRefill ≠ .alwaysOnPowerUp ∧
    tNext (exec .policerRefill (tS tM)) = true ∧ tM.pwr.state < 3 ∧ tNext (idle (tS tM)) = true := by decide +kernel

theorem witness_RunsKeepTheOwnerKey : Relation.ReflTransGen Steps (tS tOwned) (tS tOwned) := .refl

/-- Each row that begins a start, ends one or holds it: the machine it acts on, and what releases it. -/
theorem witness_StartsAreClean :
    let held (f : StartSt → StartSt) : M := { tHour with start := f tHour.start }
    [released tM, (held fun x => { x with porstLow := true }).start.porstLow,
     released { held (fun x => { x with porstLow := true }) with start.porstLow := false },
     (held fun x => { x with perstLow := true }).start.perstLow,
     released { held (fun x => { x with perstLow := true }) with start.perstLow := false },
     bit (held fun x => { x with supplyLow := 128 }).start.supplyLow 7,
     released { held (fun x => { x with supplyLow := 128 }) with start.supplyLow := 128 - 2 ^ 7 },
     (held fun x => { x with restartBy := some 9 }).start.restartBy.isSome && released (held fun x => { x with restartBy := some 9 }),
     (held fun x => { x with phase := .stem }).start.phase == .stem && released (held fun x => { x with phase := .stem }),
     { tHour with syn.restartAt := some 0 }.syn.restartAt == some 0, !bit tHour.start.supplyLow 7,
     tBegun.start.phase == .starting && tBegun.start.begun && released tBegun && !thermalBad tResult tBegun,
     decide (tBegun.start.t0 + tBegun.start.watchdogMs * 1000000 ≤ (tLate tBegun).vault.mono)].all id = true := by decide +kernel

/-- A step of a start that ends well, and one that fails. -/
theorem witness_StartsAreClean_steps :
    [true, false].map (fun ok =>
      let m : M := { tBegun with part := tGoodM.part, syn.slotA := some tGood, start.step := 1 }
      let r : StartResult := { tResult with flash2Ok := ok, flash5Ok := ok }
      decide (m.start.step < 13 ∧ m.start.step < r.upTo) &&
        (startStep r (m.start.step + 1) { m with start.step := m.start.step + 1 }).2.isNone) = [true, false] := by decide +kernel

theorem witness_IdleStepsAreTicks :
    (tS tM).pending = [] ∧ tM.pwr.state < 3 ∧ nextDesc tM = none ∧ tM.tim.slewLeft = 0 ∧ tM.tim.quality ≠ 1 ∧ tM.tim.freqAcc.natAbs < 1000000000 ∧ tM.auth = [] ∧
    (nextDesc tNopM).isSome = true ∧ ((nextDesc tNopM).map fun p => p.1.opcode) = some 0x0603 := by decide +kernel

/-- A reserved bit is set; and the target is not there. -/
theorem witness_RefusedCommandsHaveNoEffect :
    (match taken { tNop with rsvd := 1 } tM with
     | some (x, m1) => (earlyFail hifNopSpec x m1).isSome
     | none => false) = true ∧
    (match taken { tD 0 tLegO [] with opcode := 0x0A04 } tLegM with
     | some (x, m1) => (earlyFail legDisarmSpec x m1).isNone && (lateFail legDisarmSpec x m1).isSome && legDisarmSpec.onExec x m1 == m1
     | none => false) = true ∧
    hostSpec (.hifNop tNop) = some (tNop, hifNopSpec) ∧ hostSpec (.legDisarm tNop) = some (tNop, legDisarmSpec) := by
  refine ⟨by decide +kernel, by decide +kernel, rfl, rfl⟩

theorem witness_ChecksFollowTheirOrder :
    [({ tNop with flags := 8 }).flags / 8 != 0, tNop.flags / 8 == 0 && { tNop with rsvd := 1 }.rsvd != 0, (specOf 0x06FF).isNone,
     (reservedByte hifNopSpec { tNop with payload := 1 } tM).isSome, (reservedByte hifNopSpec tNop tM).isNone, !hifNopSpec.ptr,
     oidCls (oid tNop) == 5 && bits (oid tNop) 10 6 == 0 && (payReserved { tNop with payload := 1 } (if hifNopSpec.ptr then mb 0 12 else hifNopSpec.mask)).isSome,
     oidCls (oid { tNop with obj := tNop.obj ||| 0x400 }) == 5 && bits (oid { tNop with obj := tNop.obj ||| 0x400 }) 10 6 != 0,
     !permitted tM synBootSetSpec.perm (tD 0 synOid []) && (reservedByte synBootSetSpec (tD 0 synOid []) tM).isNone && !synBootSetSpec.ptr,
     permitted tM hifNopSpec.perm tNop, ownOk hifNopSpec tNop tM, !hifNopSpec.deny tNop tM, hifNopSpec.obj tNop tM,
     !hifNopSpec.obj { tNop with obj := 0 } tM && (reservedByte hifNopSpec { tNop with obj := 0 } tM).isNone,
     (earlyFail hifNopSpec tNop tM).isNone && (lateFail hifNopSpec tNop (hifNopSpec.onExec tNop tM)).isNone,
     (earlyFail hifNopSpec { tNop with rsvd := 1 } tM).isSome].all id = true := by decide +kernel

/-- A command that passes its early checks and fails a late one. -/
theorem witness_ChecksFollowTheirOrder_late :
    (earlyFail legDisarmSpec { tD 0 tLegO [] with opcode := 0x0A04 } tLegM).isNone = true ∧
    (lateFail legDisarmSpec { tD 0 tLegO [] with opcode := 0x0A04 } tLegM).isSome = true := by decide +kernel

/-- A held command due at an instant, in an order. -/
def tHeld (due order : Nat) : Pend :=
  { d := { tD 0 tLegO [] with opcode := 0x0A04 }, due := due, kind := .instant, late := false, order := order, waits := false, before := 0 }

theorem witness_HeldCommandsApplyInOrder :
    [(legDisarmSpec.when (tD 0 tLegO []) tLegM).isSome, decide (tM.pend.length < 4096),
     dueFirst 5 [tHeld 5 1, tHeld 6 2] == some (tHeld 5 1), dueFirst 5 [tHeld 6 2, tHeld 5 1, tHeld 5 3] == some (tHeld 5 1),
     dueFirst 4 [tHeld 5 1] == none, (lateFail legDisarmSpec (tHeld 0 0).d (dropPend 0 tLegM)).isSome].all id = true := by decide +kernel

theorem witness_HeldCommandsApplyInOrder_full (m : M) : 4096 ≤ { m with pend := List.replicate 4096 (tHeld 0 0) }.pend.length := by
  rw [List.length_replicate]

/-- Commit times at both sides of the present, and beyond 60 s of it. -/
theorem witness_CommitTimesNameTheirBoundary :
    let at_ (sec ns : Nat) : Desc := { tD 0 tStrmO [] with commitSec := sec, commitNs := ns }
    (at_ 3661 0).commitNs < nsPerS ∧ tHour.dev + 60 * nsPerS < commitAt (at_ 3660 1) ∧ commitAt (at_ 0 0) = 0 ∧
    tHour.dev < commitAt (at_ 3600 1) ∧ tHour.dev < firstAt (.audio 1000000) (commitAt (at_ 3600 1)) ∧
    commitAt (at_ 3599 999999999) ≠ 0 ∧ commitAt (at_ 3599 999999999) < tHour.dev ∧
    netStreamDeleteSpec.notBefore (at_ 0 0) tHour = 0 ∧ netStreamDeleteSpec.anyCommit = false ∧ payBit (tD 0 (infraOid 1) []) 0 0 = false := by decide +kernel

theorem witness_FirstBoundaries : 0 < 250000 ∧ 0 < 60000 ∧ 0 < 1001 := by decide

theorem witness_AudioWindowsAndSamples :
    dieWindow (some tImage) 1 = 1000000 ∧ boundaryAt (.audio 1000000) 1 ≤ boundaryAt .sample 48 ∧ (imgMixer (some tImage) 1).1 ≠ 1 := by
  decide +kernel

theorem witness_VideoWindows :
    0 < 60000 ∧ boundaryNo (.video 60000 1001) 16683333 = 0 ∧ boundaryNo (.video 60000 1001) 16683334 = 1 := by decide +kernel

theorem witness_JournalChain :
    { tM with jrn.ringUp := true }.jrn.ringUp = true ∧ tM.jrn.ringUp = false ∧
    mirrorNewest { tM.jrn with mirror := [tJr 0x04C4, tJr 1] } = some (tJr 1) ∧ mirrorNewest tM.jrn = none := by decide +kernel

theorem witness_CommandsAreRecordedOnce :
    { tNop with path := .i3c }.path = .i3c ∧ tNop.path = .host 1 0x3FF 0 ∧ 0 / 1024 = (getFn tM 1).epoch := by decide +kernel

/-- A full queue whose lowest priority is the record's own, above it, or below it. -/
theorem witness_EventQueueInsertion :
    (List.replicate 511 (tEvR 3)).length < 512 ∧ 512 ≤ (List.replicate 512 (tEvR 3)).length ∧
    (evqInsert (List.replicate 512 (tEvR 3)) (tEvR 3)).lost = some 3 ∧ (evqInsert (List.replicate 512 (tEvR 3)) (tEvR 4)).held = false ∧
    (evqInsert (List.replicate 512 (tEvR 3)) (tEvR 2)).held = true := by decide +kernel

theorem witness_ReadClearsTheCount :
    let i : CntId := { reg := .mixCnt, i := 1, j := 0, k := 0 }
    tM.pwr.state < 3 ∧ tM.start.phase ≠ .starting ∧ windowDark (cntAdd i 5 tM) i = false ∧ { i with j := 1 } ≠ i := by decide +kernel

theorem witness_DspMemoryReadsBack :
    (1 : Nat) ≤ 1 ∧ tSorted ([(1, 5#32)] : Tbl Word) = true ∧ (∀ p ∈ ([(1, 5#32)] : Tbl Word), p.2 ≠ 0) ∧
    memLane (tEng 0) 0 0x3FFF ≠ memLane (tEng 0) 1 0x3FFF ∨ 0x3FFF % 16384 ≠ 0x4000 % 16384 := by decide +kernel

/-- MPY A1 := D2 × D3, no moves; the same fields serve the other operations. -/
def tMpyW : Nat := 0x01 * 2 ^ 58 + 1 * 2 ^ 53 + 2 * 2 ^ 49 + 3 * 2 ^ 45

theorem witness_DspMultiply : pMove tMpyW = 0 ∧ xMove tMpyW = 0 ∧ yMove tMpyW = 0 ∧ (tEng 0).wide = false := by decide +kernel

theorem witness_DspAccumulate :
    accMin ≤ accMax ∧ (accMin - 1 < accMin ∨ accMax < accMin - 1) ∧ accMax < accMax + 1 ∧ pMove tMpyW = 0 ∧ xMove tMpyW = 0 ∧
    yMove tMpyW = 0 ∧ (tEng 0).wide = false ∧ 0 < (tEng 0).lanes.length ∧ (getLane (tEng 0) 0).a.length = 4 := by decide +kernel

theorem witness_DspExtract :
    bits (0x7FFFFFFFFFFFFFFF#72).toNat (63 + 0) (9 - 0) = 0 ∧ bits (0xFF8000000000000000#72).toNat (63 + 0) (9 - 0) = 2 ^ 9 - 1 ∧
    bits (0x008000000000000000#72).toNat (63 + 0) (9 - 0) ≠ 0 ∧ bits (0x008000000000000000#72).toNat (63 + 0) (9 - 0) ≠ 2 ^ 9 - 1 ∧
    bits (0x008000000000000000#72).toNat (63 + 8) (9 - 8) = 0 ∧ (getLane (tEng 0) 0).d.length = 16 ∧ 0 < (tEng 0).lanes.length := by
  decide +kernel

theorem witness_RampsFollowTheirForm :
    let r : Ramp := { a := 65, b := 66, n := 48, k := 0 }
    let r1 : Ramp := { a := 66, b := 2 ^ 20 - 1, n := 48, k := 0 }
    (rampAt 5).n = 0 ∧ r.n < 49 ∧ 48 ≤ r.n ∧ r.a ≤ 65 ∧ 65 < r1.a ∧ 65 < r1.b ∧ r1.b < 2 ^ 20 := by decide +kernel

/-! ## Values the spec works out -/

/-- The machine of a next state. -/
def tRun (c : Instr) (m : M) : M := match exec c (tS m) with | .next t => t.m | _ => mReset

/-- FIPS 180-4, the message "abc". -/
theorem test_sha384_abc :
    ((sha384 [0x61, 0x62, 0x63]).take 8).map BitVec.toNat = [0xCB, 0x00, 0x75, 0x3F, 0x45, 0xA3, 0x5E, 0x8B] := by decide +kernel

/-- Chapter 04's example: a full queue of 20, 480 and 12 records at levels 0, 3 and 5 takes a record at level 2, which removes one at
level 5; with the 12 gone, one at level 3; and a record at level 6 is itself lost. -/
theorem test_event_queue_burst :
    let q (a b : Nat) := List.replicate 20 (tEvR 0) ++ List.replicate 480 (tEvR 3) ++ List.replicate 12 (tEvR a) ++ List.replicate b (tEvR 2)
    (evqInsert (q 5 0) (tEvR 2)).lost = some 5 ∧ (evqInsert (q 2 0) (tEvR 2)).lost = some 3 ∧
    (evqInsert (q 2 0) (tEvR 6)).lost = some 6 ∧ (evqInsert (q 2 0) (tEvR 6)).held = false := by decide +kernel

/-- Chapter 02's example: slack ratios of 99 and 205 per mille in a window of 20 ms. -/
theorem test_slack_ratio :
    (reportSlack 2 5 1991000 20000000 tM).pace.avsRatio = some 99 ∧ (reportSlack 2 5 4114000 20000000 tM).pace.avsRatio = some 205 := by
  decide +kernel

def tRow (c bits : Nat) : RowIn := { c := c, bits := bits, skip := 20, now := 0, busy := 0 }

def tRows : List RowIn := [tRow 1800 3240, tRow 2600 4300, tRow 5200 11900, tRow 6400 5900, tRow 2400 480, tRow 1600 350]

def tRowSet (limit : Nat) : RowSet :=
  { qpMin := 40, qpMax := 200, dqp := 2, limit := limit, qpFirst := 120, budget := 24000, codec := 18 }

/-- Table 12-12: 26,170 bits in all, the last row at qindex 200; and with a limit of 62 per mille rows 4 and 5 are skipped for 40. -/
theorem test_encode_rows :
    (codeRows (tRowSet 125) (fun _ _ => false) 0 tRows rowRun0).spent = 26170 ∧
    (codeRows (tRowSet 125) (fun _ _ => false) 0 tRows rowRun0).qp = 200 ∧
    (codeRows (tRowSet 62) (fun _ _ => false) 0 tRows rowRun0).spent = 25380 ∧
    (codeRows (tRowSet 62) (fun _ _ => false) 0 tRows rowRun0).frozen = some (4, false) := by decide +kernel

/-- Chapter 12's example: the debt of 2,170 bits over 8 frames lowers the next budget to 23,728 and falls to 1,898. -/
theorem test_encode_debt :
    (takeBudget 24000 { debt := 2170, n := 8, lastBits := 0, lastBudget := 0, mem := [] }).1 = 23728 ∧
    (takeBudget 24000 { debt := 2170, n := 8, lastBits := 0, lastBudget := 0, mem := [] }).2.1.debt = 1898 := by decide +kernel

/-- Chapter 14's example: in a round toward die 1, die 2 with ten requesters is served ten transfers of 256 bytes, die 3 one; in
die-equal mode each is served one. -/
def tReqs : List ArbReq :=
  [{ die := 2, units := (List.range 10).map fun u => (u, [256, 256]) }, { die := 3, units := [(0, [256, 256])] }]

theorem test_arbiter_round :
    let grants (m : M) (d : Nat) := (m.sent.filter fun o => match o with | .net 20 die _ _ => die == d | _ => false).length
    let flat := tRun (.arbiterRound 4 tReqs) { tM with sent := [], part.media := 8 }
    let equal := tRun (.arbiterRound 4 tReqs) { tM with sent := [], part.media := 8, tsk.dieEqual := true }
    grants flat 2 = 10 ∧ grants flat 3 = 1 ∧ grants equal 2 = 1 ∧ grants equal 3 = 1 := by decide +kernel

/-- Chapter 15's example: A0 holds 200.0, A1 100.0 and A2 −150.0, in units of 2^−63. -/
def tAcc (w : Nat) (a0 : Int) : M :=
  let e := tEng w
  setDsp 1 0 (updLane 0 (fun l => { l with a := [BitVec.ofInt 72 (a0 * 2 ^ 63), BitVec.ofInt 72 (100 * 2 ^ 63),
                                               BitVec.ofInt 72 (-150 * 2 ^ 63), 0] }) e) tM

/-- ADDA A0, An, with S or without. -/
def tAdda (n s : Nat) : Nat := 0x06 * 2 ^ 58 + s * 2 ^ 57 + n * 2 ^ 49

/-- The value of A0 and GV and SV after one ADDA. -/
def tA0 (m : M) : Int × Bool × Bool := match getDsp m 1 0 with
  | some e => (acc2i (aReg e 0 0), (getLane e 0).gv, (getLane e 0).sv)
  | none => (0, false, false)

theorem test_adda_wraps : tA0 (tRun (.adda 1 0) (tAcc (tAdda 1 0) 200)) = (-212 * 2 ^ 63, true, false) ∧
    (tA0 (tRun (.adda 1 0) (tAcc (tAdda 2 0) (-212)))).1 = 150 * 2 ^ 63 := by decide +kernel

theorem test_adda_clamps : tA0 (tRun (.adda 1 0) (tAcc (tAdda 1 1) 200)) = (256 * 2 ^ 63 - 1, false, true) ∧
    (tA0 (tRun (.adda 1 0) (tAcc (tAdda 2 1) (-44)))).1 = -194 * 2 ^ 63 := by decide +kernel

/-- Table 22-3: the first registers of Stem mode's block, and a counter of the mixers of die 3 (Table 22-13). -/
theorem test_register_addresses :
    regAddr 0 "STM_FLASH_CMD" [] = some 0x1084 ∧ regAddr 5 "MIX_XP_CNT" [300, 1] = some 0x0A940964 := by decide +kernel

/-- HIF_NOP from the direct port completes with OK (R103); with a reserved byte set, with RESERVED_NONZERO (R96). -/
theorem test_nop_completes :
    ((getFn (tRun (.hifNop tNop) tM) 1).directFifo.map Completion.status) = [0x00] ∧
    ((getFn (tRun (.hifNop { tNop with rsvd := 1 }) tM) 1).directFifo.map Completion.status) = [0x8B] := by decide +kernel

/-- A key write waits for the next hub window, then gives an EMPTY slot generation 1 (R152). -/
theorem test_key_write :
    let m := tRun (.keyWrite (tP 0 (mkOid 6 0 5) ([0, 0, 0, 1] ++ List.replicate 172 0))) tM
    m.pend.length = 1 ∧ (getSlot m 5).cur = none ∧
    ((getSlot (tRun .timedCommandApply { m with dev := m.dev + 1000000 }) 5).cur.map KeyGen.gen) = some 1 := by decide +kernel

/-- An idle step at Ready counts MONO and device time by one (R37, R42). -/
theorem test_idle_tick : (match step (tS tM) with | .next t => (t.m.vault.mono, t.m.dev) | _ => (0, 0)) = (tM.vault.mono + 1, tM.dev + 1) := by
  decide +kernel

/-- A step takes the front command and leaves the rest. -/
theorem test_step_front : (match step { tS tM with pending := [.hifNop tNop, .policerRefill] } with | .next t => t.pending | _ => []) =
    [.policerRefill] := by decide +kernel

/-! ## Ill-formed commands, which the check refuses -/

def tGoodDesc : Desc :=
  { path := .host 63 1023 0, opcode := 0xFFFF, flags := 0xFFFF, obj := 0, tag := 0, commitSec := 2 ^ 48 - 1, commitNs := 2 ^ 32 - 1,
    rsvd := 0xFFFF, payload := 0, buf := [], bufFail := false, image := none }

def tBadPath : Desc := { tGoodDesc with path := .host 64 0 0 }

/-- Each field of a descriptor one past its bytes; at their tops they pass. -/
theorem wellFormed_checks_descriptor_fields :
    ([tBadPath, { tGoodDesc with path := .host 0 1024 0 }, { tGoodDesc with opcode := 2 ^ 16 }, { tGoodDesc with flags := 2 ^ 16 },
      { tGoodDesc with commitSec := 2 ^ 48 }, { tGoodDesc with commitNs := 2 ^ 32 }, { tGoodDesc with rsvd := 2 ^ 16 }].all
        fun d => !d.wf) = true ∧ tGoodDesc.wf = true := by decide

/-- An image staged with a descriptor: a field one past its bytes, a table longer than its header says, and a section whose
contents are not of the length its entry gives. -/
theorem wellFormed_checks_images :
    ([{ tGood with version := 2 ^ 16 }, { tGood with flags := 2 ^ 16 }, { tGood with count := 11 }, { tGood with serial := 2 ^ 64 },
      { tGood with sign := { tSigned with svetSig := { tSigned.svetSig with r := 2 ^ 384 } } },
      { tGood with sections := tGood.sections.map fun s => { s with length := 2 } }].all
        fun i => !{ tGoodDesc with image := some i }.wf) = true ∧ { tGoodDesc with image := some tGood }.wf = true := by decide +kernel

/-- A buffer of more than 16 MiB is refused. -/
theorem wellFormed_checks_buffers (b : List Byte) (h : b.length = 16777217) : { tGoodDesc with buf := b }.wf = false := by
  simp [Desc.wf, below, h]

/-- Every row that carries one descriptor refuses an ill-formed one. -/
theorem wellFormed_refuses_descriptors (d : Desc) (h : d.wf = false) :
    ([.timSourceSet d, .timSet d, .timGuardSet d, .timSlackAlarmSet d, .pwrAvsSet d, .synStage d, .synActivate d,
     .synBootSet d, .keyOwnerEnrol d, .hifRingCreate d, .hifRingDelete d, .hifEvqConfig d, .hifNop d, .jrnExportSet d,
     .jrnMark d, .jrnVerify d, .keyWrite d, .keyClear d, .keyErase d, .keyAlarmSet d, .keyAlarmClear d, .cipAuthSet d,
     .cipRocSet d, .legDefine d, .legModify d, .legArm d, .legDisarm d, .legDrain d, .legDelete d, .legMove d,
     .netPortSet d, .netStreamDefine d, .netStreamModify d, .netStreamDelete d, .modConfig d, .modStart d, .modStop d,
     .modFeSet d, .modGainSet d, .modFirSet d, .modMaskSet d, .modTxUnmute d, .codContextOpen d, .codContextModify d,
     .codStart d, .codStop d, .codContextClose d, .codLayerSelect d, .codRefresh d, .fbpSnapshot d, .codPair d,
     .mixBusDefine d, .mixBusDelete d, .mixXpSet d, .mixLegSet d, .mixOverlaySet d, .mixCommit d, .mixMeterSet d,
     .cmpDefine d, .cmpStart d, .cmpStop d, .cmpDelete d, .cmpOutputSet d, .cmpLayerSet d, .cmpLayerColour d,
     .cmpLayerStyle d, .cmpZlistSet d, .cmpLut3dSet d, .cmpCommit d, .cmpCursorSet d, .cmpCursorImage d, .cmpGlyphLoad d,
     .cmpGuardSet d, .cmpGuardClear d, .cmpPair d, .encContextOpen d, .encContextModify d, .encStart d, .encStop d,
     .encContextClose d, .encRateSet d, .encKeyframe d, .fwdSet d, .fwdDelete d, .fwdMemberAdd d, .fwdMemberRemove d,
     .netSendDefine d, .netSendModify d, .netSendDelete d, .trfPortSet d, .trfClassSet d, .trfQueueSet d, .trfProfileSet d,
     .trfLineSet d, .trfSampleSet d, .tskArbSet d, .tskPrioSet d, .tskCancel d, .dspPortSet d, .dspPortClear d,
     .dspParamSet d, .dspHalt d, .dspRestart d, .dspPair d, .memRateSet d, .memEccSet d, .memActSet d, .pwrEnter d,
     .pwrWakeSet d, .pairConfig d, .pairClaim d, .pairWake d, .pinLoopbackSet d, .pinGpioSet d, .pinRestore d,
     .pinRefoutSet d, .peerCommandReceived d].all fun i => !wellFormed i) = true := by simp [wellFormed, h]

def tMarks : SdiMarks := { control := [], ecc := [] }

def tSync : JesdSync := { sync := true, inverted := false }

def tRowNo (n : Nat) : RowAct := { row := n, sampled := [] }

/-- Every bound on an operand of the other rows, one past it. -/
theorem wellFormed_refuses_operands :
    (([.fbpSnapshotDone 8, .directSubmitWrite 64 tGoodDesc, .directSubmitWrite 0 tBadPath, .directCompletionPop 64,
     .submissionDoorbell 64 0 0 [], .submissionDoorbell 0 1024 0 [], .submissionDoorbell 0 0 (2 ^ 32) [],
     .submissionDoorbell 0 0 0 [tBadPath], .completionHeadDoorbell 64 0 0, .completionHeadDoorbell 0 1024 0,
     .completionHeadDoorbell 0 0 (2 ^ 32), .descriptorFetchFault 64 0, .descriptorFetchFault 0 1024,
     .completionCoalesceTimeout 64 0, .completionCoalesceTimeout 0 1024, .msixVectorUnmask 64 0, .msixVectorUnmask 0 1024,
     .evqPop 64 0, .evqPop 0 64, .evqUnderrunClear 64 0 0, .evqUnderrunClear 0 64 0, .hifEvqIntMaskWrite 64 0 0,
     .hifEvqIntMaskWrite 0 64 0, .barAccessBad 64 0 0 false, .barAccessBad 0 0 (2 ^ 32) false, .barWriteIgnored 64 0 0 0,
     .barWriteIgnored 0 0 (2 ^ 32) 0, .i3cPrivateWrite tBadPath 0, .flr 64, .windowStart 0 8 0, .deadlineStrobe 0 8 0,
     .ptpSyncReceived 256 0, .ptpDelayRespReceived 256 0, .ptpAnnounceReceived 256 [] 0 false 0, .ptpAnnounceTimeout 256,
     .keyAlarmDetect 8, .exportConsumedPoll 64 0, .exportInterruptTimeout 64, .keyCacheLoaded 8 0 0,
     .keyCacheLoaded 0 16384 0, .graceEnd 16384, .playoutTimeReached 8 0, .playoutAnchorAdjust 8 0, .netPathTimeout 8 0,
     .streamStallTimeout 8 0, .legSilenceTimeout 8 0, .nackDelayExpiry 8 0, .nackRepeatExpiry 8 0, .rtcpReportTimer 8 0,
     .rtcpSenderReportTimer 8 0, .legDrainComplete 8 0, .legDrainLimit 8 0, .sdiLockChange 8 0 none none false,
     .sdiLockChange 0 32 none none false, .sdiFrameComplete 8 0 0 0 [] tMarks, .sdiFrameComplete 0 32 0 0 [] tMarks,
     .jesdSyncChange 8 0 tSync, .jesdSyncChange 0 8 tSync, .iqOverrun 8 0, .iqOverrun 0 8, .modLockTimeout 8 0,
     .modLockTimeout 0 2, .modIqInterval 8 0 0 0 0, .modIqInterval 0 2 0 0 0, .modTxSymbol 8 0 [], .modTxSymbol 0 2 [],
     .feSpiFrameDone 8 0 0, .feSpiFrameDone 0 2 0, .pliIntervalExpiry 8 0, .mixPartialArrival 0 8, .mixTotalArrival 0 8,
     .overlayHoldExpiry 8 0, .meterPeriodEnd 8, .compositionComplete 8 0 none, .encodeFrameComplete 8 0 []] : List Instr).all fun i => !wellFormed i) = true := by decide

theorem wellFormed_refuses_operands_rest :
    (([.upWaitExpiry 8 0, .rtxHoldExpiry 8 0, .sourcePacketForward 8 0, .egressFrameSent 8 0, .egressFrameSent 0 32,
     .sojournLimit 8 0, .pacedPacketDue 8 0, .latencySampleTick 8, .flowItemComplete 8 0 [], .reorderTimeout 8 0,
     .dspInterruptEntry 8 0, .dspFault 8 0, .par 8 0, .mpy 8 0, .mac 8 0, .msu 8 0, .add 8 0, .sub 8 0, .adda 8 0,
     .clr 8 0, .neg 8 0, .abs 8 0, .asr 8 0, .asl 8 0, .ext 8 0, .tst 8 0, .cmp 8 0, .addd 8 0, .subd 8 0, .and 8 0,
     .or 8 0, .xor 8 0, .ldi 8 0, .mov 8 0, .ldx 8 0, .stx 8 0, .ldy 8 0, .sty 8 0, .br 8 0, .call 8 0, .ret 8 0, .rti 8 0,
     .rep 8 0, .endl 8 0, .pushl 8 0, .popl 8 0, .idle 8 0, .gett 8 0, .putt 8 0, .memRefresh 8 0, .memRefresh 0 8,
     .memTempRead 8 0 0, .actWindowEnd 8 0 0, .actWindowEnd 0 8 0, .actWindowEnd 0 0 16,
     .rowActivationThreshold 8 0 0 (tRowNo 0) 0 0, .rowActivationThreshold 0 8 0 (tRowNo 0) 0 0,
     .rowActivationThreshold 0 0 16 (tRowNo 0) 0 0, .rowActivationThreshold 0 0 0 (tRowNo 65536) 0 0,
     .rowActivationThreshold 0 0 0 (tRowNo 0) 8 0, .pairPathTimeout 2,
     .wakeDetect 16 false, .thermalReading 8 0, .txReceiverDetect 8 0 false, .txReceiverDetect 0 32 false,
     .txShortDetect 8 0 0, .txShortDetect 0 32 0, .gpioReadbackSample 64 false, .gpioOpenTest 64 false false,
     .lowSpeedReadbackSample 8 0 false, .alarmConditionEnd 8, .ethBlockLockChange 8 0 false false false 0,
     .ethBlockLockChange 0 32 false false false 0, .mixJobComplete 8, .tsPatPmtTimer 8 0] : List Instr).all fun i => !wellFormed i) = true := by decide

theorem wellFormed_refuses_operands_of_rows_with_data (v0 : WideReg) (v1 : BarWrite) (v2 : ModSync) (v3 : Payload) (v4 : AuInfo) (v5 : PicInfo) (v6 : MemData) (v7 : Heartbeat) :
    (([.wideRegisterLowRead 64 v0, .commaBarWrite 64 v1 false, .modStageChange 8 0 0 v2, .modStageChange 0 2 0 v2,
     .modTsPacket 8 0 0 false v3, .modTsPacket 0 2 0 false v3, .accessUnitComplete 8 0 v4, .decodePictureComplete 8 0 v5,
     .memEccUncorrectable 8 0 false v6, .memEccUncorrectable 0 8 false v6, .heartbeatReceived 2 v7] : List Instr).all fun i => !wellFormed i) = true := by
  simp [wellFormed, dieOk, fnOk, wordOk, below]

end Sys2Proof.Tests
end

/-!
The order of the checks of a command (R96): one lemma for each check outside a pointer-form buffer, which gives its failure when every
check before it passes; and what `runSpec` makes of the outcome. From the permission on, the lemmas hold for both forms of a command.
-/
namespace Sys2Proof.Machine

/-- Step 3 of R96 inside a pointer-form buffer: the first byte with a reserved bit set, where the buffer could be read. -/
def bufReservedByte (sp : CmdSpec) (d : Desc) (m : M) : Option Nat :=
  if sp.ptr && isPtr d && !d.bufFail && d.path != .i3c then sp.bufRsv d m else none

theorem bufReservedByte_of_inline {sp : CmdSpec} (h : sp.ptr = false) (d : Desc) (m : M) : bufReservedByte sp d m = none := by
  simp [bufReservedByte, h]

/-- No reserved bit of the descriptor or of its buffer is set: steps 1 to 3 of R96 pass. -/
structure PassesReserved (sp : CmdSpec) (d : Desc) (m : M) : Prop where
  flags : d.flags / 8 = 0
  rsvd : d.rsvd = 0
  bytes : reservedByte sp d m = none
  buffer : bufReservedByte sp d m = none

/-- Domain, ownership and the command's own denials let it through: step 4 of R96 passes. -/
structure PassesDenial (sp : CmdSpec) (d : Desc) (m : M) : Prop where
  permitted : permitted m sp.perm d = true
  owned : ownOk sp d m = true
  allowed : sp.deny d m = false

theorem PassesReserved.of_inline {sp : CmdSpec} {d : Desc} {m : M} (hflags : d.flags / 8 = 0) (hrsvd : d.rsvd = 0)
    (hbytes : reservedByte sp d m = none) (hptr : sp.ptr = false) : PassesReserved sp d m :=
  ⟨hflags, hrsvd, hbytes, bufReservedByte_of_inline hptr d m⟩

/-- Step 6 of R96: the fields every command has come before its own, of which one that names an object out of reach fails as R23
and R76 say. -/
def fieldsFail (sp : CmdSpec) (d : Desc) (m : M) : Option (Nat × Nat) :=
  match commonFields sp d m with
  | some dt => some (stInvalid, dt)
  | none => (sp.fields d m).map fun dt => (namedOut sp d m dt).getD (stInvalid, dt)

/-! ## The reserved byte of step 3 (R11, R96) -/

theorem reservedByte_of_queueBits {d : Desc} (sp : CmdSpec) (m : M) (hcls : oidCls (oid d) = 5) (hbits : bits (oid d) 10 6 ≠ 0) :
    reservedByte sp d m = some 5 := by
  simp [reservedByte, hcls, hbits]

theorem reservedByte_of_payload {sp : CmdSpec} {d : Desc} {b : Nat} (m : M) (hid : oidCls (oid d) ≠ 5 ∨ bits (oid d) 10 6 = 0)
    (hpay : payReserved d (if sp.ptr then mb 0 12 else sp.mask) = some b) : reservedByte sp d m = some (24 + b) := by
  have hq : ¬ (oidCls (oid d) = 5 ∧ bits (oid d) 10 6 ≠ 0) := by tauto
  simp [reservedByte, hq, hpay]

/-! ## The failure of each check (R96) -/

theorem earlyFail_of_flags {d : Desc} (sp : CmdSpec) (m : M) (h : d.flags / 8 ≠ 0) :
    earlyFail sp d m = some (stReserved, if d.flags % 256 / 8 ≠ 0 then 2 else 3) :=
  if_pos h

theorem earlyFail_of_rsvd {d : Desc} (sp : CmdSpec) (m : M) (hflags : d.flags / 8 = 0) (h : d.rsvd ≠ 0) :
    earlyFail sp d m = some (stReserved, if d.rsvd % 256 ≠ 0 then 22 else 23) := by
  rw [earlyFail, if_neg (not_not.mpr hflags), if_pos h]

theorem earlyFail_of_reservedByte {sp : CmdSpec} {d : Desc} {m : M} {b : Nat} (hflags : d.flags / 8 = 0) (hrsvd : d.rsvd = 0)
    (h : reservedByte sp d m = some b) : earlyFail sp d m = some (stReserved, b) := by
  simp [earlyFail, hflags, hrsvd, h]

section
variable {sp : CmdSpec} {d : Desc} {m : M}

/-- Past the reserved bits the order is denial, object id, fields. -/
theorem PassesReserved.earlyFail_eq (h : PassesReserved sp d m) :
    earlyFail sp d m =
      if !permitted m sp.perm d || !ownOk sp d m || sp.deny d m then some (stDenied, pathDomain m d.path % 8)
      else if !sp.obj d m then some (stInvalid, 4)
      else fieldsFail sp d m := by
  obtain ⟨hflags, hrsvd, hbytes, hbuf⟩ := h
  unfold bufReservedByte at hbuf
  rw [earlyFail, if_neg (not_not.mpr hflags), if_neg (not_not.mpr hrsvd), hbytes]
  simp only [hbuf]
  rfl

theorem earlyFail_of_denied (h : PassesReserved sp d m)
    (hd : permitted m sp.perm d = false ∨ ownOk sp d m = false ∨ sp.deny d m = true) :
    earlyFail sp d m = some (stDenied, pathDomain m d.path % 8) := by
  rw [h.earlyFail_eq, if_pos]
  rcases hd with hd | hd | hd <;> simp [hd]

/-- Past the denials the order is object id, fields. -/
theorem PassesDenial.earlyFail_eq (ha : PassesDenial sp d m) (h : PassesReserved sp d m) :
    earlyFail sp d m =
      if !sp.obj d m then some (stInvalid, 4)
      else fieldsFail sp d m := by
  obtain ⟨hperm, hown, hdeny⟩ := ha
  rw [h.earlyFail_eq, if_neg (by simp [hperm, hown, hdeny])]

theorem earlyFail_of_badObj (h : PassesReserved sp d m) (ha : PassesDenial sp d m) (ho : sp.obj d m = false) :
    earlyFail sp d m = some (stInvalid, 4) := by
  rw [ha.earlyFail_eq h, if_pos (by simp [ho])]

theorem earlyFail_of_goodObj (h : PassesReserved sp d m) (ha : PassesDenial sp d m) (ho : sp.obj d m = true) :
    earlyFail sp d m = fieldsFail sp d m := by
  rw [ha.earlyFail_eq h, if_neg (by simp [ho])]

/-! ## What a failure and a pass lead to -/

/-- R94: an opcode no chapter defines is found once the reserved flags and the reserved field pass. -/
theorem runDesc_of_unknown {specs : Nat → Option CmdSpec} (m : M) (h : specs d.opcode = none) (hflags : d.flags / 8 = 0)
    (hrsvd : d.rsvd = 0) : runDesc specs d m = finish d (isPtr d) (reply stInvalid 0 0xFF) m := by
  simp [runDesc, h, runUnknown, hflags, hrsvd]

theorem runSpec_pass (h : earlyFail sp d m = none) (hl : lateFail sp d (sp.onExec d m) = none) :
    runSpec sp d m = dispatchCmd sp d (sp.onExec d m) := by
  simp [runSpec, h, hl]

end

/-- Settles O45: each clause is the lemma of its check; the inline form has no buffer, so its reserved bits end with the payload. -/
theorem checksFollowTheirOrder : Obligations.ChecksFollowTheirOrder := by
  unfold Obligations.ChecksFollowTheirOrder
  refine ⟨?flags, ?rsvd, ?unknown, ?bytes, ?queueId, ?payload, ?denied, ?object, ?fields, ?early, ?late, ?dispatch⟩
  case flags => exact fun sp d m h => ⟨_, earlyFail_of_flags sp m h⟩
  case rsvd => exact fun sp d m hflags h => ⟨_, earlyFail_of_rsvd sp m hflags h⟩
  case unknown => exact fun d m h hflags hrsvd => runDesc_of_unknown m h hflags hrsvd
  case bytes => exact fun sp d m b hflags hrsvd h => earlyFail_of_reservedByte hflags hrsvd h
  case queueId => exact fun sp d m hcls hbits => reservedByte_of_queueBits sp m hcls hbits
  case payload => exact fun sp d m b hid hpay => reservedByte_of_payload m hid hpay
  case denied =>
    intro sp d m hflags hrsvd hbytes hptr hd
    exact earlyFail_of_denied (.of_inline hflags hrsvd hbytes hptr) (hd.imp_right .inl)
  case object =>
    intro sp d m hflags hrsvd hbytes hptr hperm hown hdeny ho
    exact earlyFail_of_badObj (.of_inline hflags hrsvd hbytes hptr) ⟨hperm, hown, hdeny⟩ ho
  case fields =>
    intro sp d m hflags hrsvd hbytes hptr hperm hown hdeny ho
    exact earlyFail_of_goodObj (.of_inline hflags hrsvd hbytes hptr) ⟨hperm, hown, hdeny⟩ ho
  case early => exact fun sp d m f h => runSpec_early h
  case late => exact fun sp d m f h hl => runSpec_late h hl
  case dispatch => exact fun sp d m h hl => runSpec_pass h hl

end Sys2Proof.Machine

/-!
Rows from their meanings: a row answers the state after what its meaning makes of the machine; and the frame of the operations that
report, event by event and record by record.
-/
namespace Sys2Proof.Machine

/-! ## A row from its meaning -/

theorem lift_of_eq {f : M → M} {s : State} {m : M} (h : f s.m = m) : lift f s = .next (after s m) := by
  rw [lift_eq, h]

/-- R67: no descriptor of another opcode than KEY_OWNER_ENROL changes the one-time storage. -/
theorem enrolled_of_ne {opcode : Nat} (h : opcode ≠ 0x0701) (old new : Option Digest) : enrolled opcode old new = old := by
  cases old with
  | none => exact if_neg h
  | some k => rfl

/-- A row that executes a descriptor answers like any other row, unless it may enrol the owner key. -/
theorem liftOp_of_eq {opcode : Nat} {f : M → M} {s : State} {m : M} (hop : opcode ≠ 0x0701) (h : f s.m = m) :
    liftOp opcode f s = .next (after s m) := by
  simp only [liftOp, enrolled_of_ne hop, h]
  rfl

/-! ## Events and records only report -/

theorem reports_raise (type level obj : Nat) (data : List Item) (m : M) : Reports m (raise type level obj data m) :=
  .ite _ (.refl m) (.ite _ rfl (reports_evDeliver ..))

theorem reports_exportStep (q : Nat) (m : M) : Reports m (exportStep q m) := by
  simp only [exportStep]
  cases exportGet m q with
  | none => exact .refl m
  | some e =>
    refine .ite _ (.refl m) (.ite _ (reports_exportSet ..) (.ite _ ?gap ?record))
    case gap =>
      exact (((reports_exportSet ..).trans (reports_exportWrite ..)).trans (reports_cntAdd ..)).trans (reports_raise ..)
    case record =>
      cases ringAt m.jrn e.next with
      | none => exact reports_exportSet ..
      | some r => exact .ite _ ((reports_exportSet ..).trans (reports_exportWrite ..)) (reports_exportSet ..)

theorem reports_exportCatchUp (q n : Nat) (m : M) : Reports m (exportCatchUp q n m) := by
  induction n generalizing m with
  | zero => exact .refl m
  | succ n ih =>
    simp only [exportCatchUp]
    cases exportGet m q with
    | none => exact .refl m
    | some e =>
      refine .ite _ (.refl m) ?_
      cases exportGet (exportStep q m) q with
      | none => exact reports_exportStep ..
      | some e1 => exact .ite _ (reports_exportStep ..) ((reports_exportStep ..).trans (ih _))

theorem reports_exportAll (m : M) : Reports m (exportAll m) :=
  .foldl _ (fun _ _ => reports_exportCatchUp ..) _ _

theorem reports_jrnAppend (i : JIn) (m : M) : Reports m (jrnAppend i m) := by
  have hput := reports_jrnPut i m
  have hcheck : Reports m (if m.jrn.head % 2 ^ 20 = 0 && !(i.opcode == 0x04C0 && i.domain == 0)
      then jrnOwn 0x04C2 ((jrnPut i m).jrn.head - 1) 0 (jrnPut i m) else jrnPut i m) :=
    .ite _ (hput.trans (reports_jrnOwn ..)) hput
  exact .ite _ (hcheck.trans (reports_exportAll _)) hcheck

theorem reports_announce (unit type level obj : Nat) (data : List Item) (old : Nat) (m : M) :
    Reports m (announce unit type level obj data old m) :=
  (reports_raise ..).trans (reports_jrnAppend ..)

/-! ## What a report leaves alone -/

theorem Reports.fold_eq {a b : M} (h : Reports a b) : b.fold = a.fold := by
  rw [h]

end Sys2Proof.Machine

/-!
The links of the Fold (R17 to R24): what a link reads after each operation, one equation for each case of the meanings of its rows,
and the obligation of the Fold's rows.
-/
namespace Sys2Proof.Machine

/-! ## A link after an operation -/

theorem tget?_tmap {α : Type} (t : Tbl α) (f : Nat → α → α) (i : Nat) : tget? (tmap t f) i = (tget? t i).map (f i) := by
  induction t with
  | nil => rfl
  | cons p r ih =>
    obtain ⟨k, v⟩ := p
    by_cases hk : k = i
    · subst hk
      simp [tmap, tget?]
    · simpa [tmap, tget?, hk] using ih

theorem tget?_tupd_same {α : Type} (t : Tbl α) (i : Nat) (f : α → α) : tget? (tupd t i f) i = (tget? t i).map f := by
  cases h : tget? t i with
  | none => simp [tupd, h]
  | some v => simp [tupd, h]

theorem getLink_updLink {m : M} {l : Nat} {x : FoldLink} (hl : getLink m l = some x) (f : FoldLink → FoldLink) :
    getLink (updLink l f m) l = some (f x) := by
  unfold getLink at hl ⊢
  simp [updLink, tget?_tupd_same, hl]

/-- Only the rerouted flag of a link follows the paths. -/
theorem getLink_foldFlags {m : M} {l : Nat} {x : FoldLink} (hl : getLink m l = some x) :
    ∃ b, getLink (foldFlags m) l = some { x with rerouted := b } := by
  unfold getLink at hl ⊢
  simp [foldFlags, tget?_tmap, hl]

@[simp] theorem getLink_count (r : CntReg) (i j k l : Nat) (m : M) : getLink (count r i j k m) l = getLink m l := rfl

theorem Reports.getLink_eq {a b : M} (h : Reports a b) (l : Nat) : getLink b l = getLink a l :=
  congrArg (tget? · l) h.fold_eq

@[simp] theorem getLink_raise (type level obj : Nat) (data : List Item) (m : M) (l : Nat) :
    getLink (raise type level obj data m) l = getLink m l :=
  (reports_raise ..).getLink_eq l

@[simp] theorem getLink_announce (unit type level obj : Nat) (data : List Item) (old : Nat) (m : M) (l : Nat) :
    getLink (announce unit type level obj data old m) l = getLink m l :=
  (reports_announce ..).getLink_eq l

/-! ## A link goes DOWN (R21) -/

/-- A link turned DOWN and counted, before the loss is announced and the dies are looked at. -/
def linkDown (l : Nat) (m : M) : M :=
  foldFlags (count .foldDown 0 l 0 (updLink l (fun y => { y with state := 3, downAt := m.vault.mono }) m))

/-- EV_FOLD_LINK_DOWN with its cause and the links that take over. -/
def linkDownEvent (l cause : Nat) (m : M) : M :=
  announce foldUnit 0x0D03 1 (infraOid 0) [.u 1 l, .u 1 cause, .u 2 (linkMask (replacement m l))] 0 m

section
variable {m : M} {l : Nat} {x : FoldLink}

theorem linkGone_of_up (hl : getLink m l = some x) (hup : x.state = 2) (cause : Nat) :
    linkGone l cause m = lossCheck l 7 (linkDownEvent l cause (linkDown l m)) := by
  simp only [linkGone, hl, hup]
  rfl

theorem getLink_linkDown (hl : getLink m l = some x) :
    ∃ y, getLink (linkDown l m) l = some y ∧ y.state = 3 ∧ y.downAt = m.vault.mono := by
  obtain ⟨b, hb⟩ := getLink_foldFlags ((getLink_count .foldDown 0 l 0 l _).trans (getLink_updLink hl _))
  exact ⟨_, hb, rfl, rfl⟩

theorem getLink_linkDownEvent (cause : Nat) : getLink (linkDownEvent l cause m) l = getLink m l :=
  getLink_announce ..

/-! ## A transfer fails its check, and is retried (R22) -/

variable {t d0 : Nat}

/-- The first failure of a transfer: one detection of the alarm, and the transfer is noted for its retry. -/
theorem integrityFail_first (hl : getLink m l = some x) (hup : x.state = 2) (hnew : retryOf x t = none)
    (hrest : restLink m l = false) (dir : Nat) :
    integrityFail l dir t m =
      updLink l (fun y => { y with retry := y.retry ++ [(t, dir)] }) (alarmOnset 5 (count .foldIntegrity 0 l 0 m)) := by
  simp [integrityFail, hl, hup, hnew, hrest]

/-- The second failure in a row, in the direction of the first: the retry is over and the link goes DOWN. -/
theorem integrityFail_again (hl : getLink m l = some x) (hretry : retryOf x t = some d0) (hrest : restLink m l = false) (dir : Nat) :
    integrityFail l dir t m =
      linkGone l 1 (integrityEvent l d0 1 (retryEnds l t (alarmOnset 5 (count .foldIntegrity 0 l 0 m)))) := by
  simp [integrityFail, hl, hretry, hrest]

theorem retryDone_passed (hl : getLink m l = some x) (hretry : retryOf x t = some d0) :
    retryDone l t true m = integrityEvent l d0 0 (retryEnds l t m) := by
  simp [retryDone, hl, hretry]

theorem retryDone_failed (hl : getLink m l = some x) (hretry : retryOf x t = some d0) :
    retryDone l t false m = integrityFail l d0 t m := by
  simp [retryDone, hl, hretry]

@[simp] theorem getLink_integrityEvent (dir outcome : Nat) : getLink (integrityEvent l dir outcome m) l = getLink m l :=
  getLink_raise ..

theorem getLink_retryEnds (hl : getLink m l = some x) :
    getLink (retryEnds l t m) l = some { x with retry := x.retry.filter fun p => p.1 != t } :=
  getLink_updLink hl _

/-- A transfer whose retry is over is retried no more. -/
theorem retryOf_filter (x : FoldLink) (t : Nat) : retryOf { x with retry := x.retry.filter fun p => p.1 != t } t = none := by
  simp [retryOf]

/-! ## The one retraining of a link (R21) -/

theorem retrainStart_of_due (hl : getLink m l = some x) (hdown : x.state = 3) (hunspent : x.retrainSpent = false)
    (hdue : x.downAt + 100000000 ≤ m.vault.mono) :
    retrainStart l m = foldFlags (updLink l (fun y => { y with state := 1, retrainSpent := true, trainAt := m.vault.mono }) m) := by
  simp [retrainStart, hl, hdown, hunspent, Nat.not_lt.mpr hdue]

variable {e : Nat × Nat}

theorem retrainEnd_up (hl : getLink m l = some x) (he : linkEnds m.part.media l = some e) (htrain : x.state = 1)
    (htime : m.vault.mono ≤ x.trainAt + 20000000) (hout1 : dieOut m e.1 = false) (hout2 : dieOut m e.2 = false) :
    retrainEnd l true m =
      announce foldUnit 0x0D04 3 (infraOid 0) [.u 1 l] 0 (foldFlags (updLink l (fun y => { y with state := 2 }) m)) := by
  simp [retrainEnd, hl, he, htrain, Nat.not_lt.mpr htime, hout1, hout2]

theorem retrainEnd_failed (hl : getLink m l = some x) (he : linkEnds m.part.media l = some e) (htrain : x.state = 1) :
    retrainEnd l false m = foldFlags (count .foldDown 0 l 0 (updLink l (fun y => { y with state := 3 }) m)) := by
  simp [retrainEnd, hl, he, htrain]

end

/-- Settles O31: each clause is the equation of its row's meaning in the case that its hypotheses single out. -/
theorem foldRowsComplete : Obligations.FoldRowsComplete := by
  unfold Obligations.FoldRowsComplete
  refine ⟨?ackTimeout, ?first, ?again, ?passed, ?failed, ?retrain, ?up, ?down⟩
  case ackTimeout => exact fun s l x hl hup => lift_of_eq (linkGone_of_up hl hup 0)
  case first => exact fun s l dir t x hl hup hnew hrest => lift_of_eq (integrityFail_first hl hup hnew hrest dir)
  case again => exact fun s l dir t x d0 hl hretry hrest => lift_of_eq (integrityFail_again hl hretry hrest dir)
  case passed => exact fun s l t x d0 hl hretry => lift_of_eq (retryDone_passed hl hretry)
  case failed =>
    exact fun s l t x d0 hl hretry hrest =>
      lift_of_eq ((retryDone_failed hl hretry).trans (integrityFail_again hl hretry hrest d0))
  case retrain => exact fun s l x hl hdown hunspent hdue => lift_of_eq (retrainStart_of_due hl hdown hunspent hdue)
  case up =>
    exact fun s l x e hl he htrain htime hout1 hout2 => lift_of_eq (retrainEnd_up hl he htrain htime hout1 hout2)
  case down => exact fun s l x e hl he htrain => lift_of_eq (retrainEnd_failed hl he htrain)

end Sys2Proof.Machine

/-!
The pins (chapter 21) and the I3C port (R106, R458): one equation for each case of the meanings of their rows, and the obligation
of the pins, the port, the Conjunction link and the links of the Fold.
-/
namespace Sys2Proof.Machine

/-! ## SerDes lanes (R452, R453) -/

section
variable {m : M} {die lane : Nat}

/-- A CONJ lane has no port: its monitor alone takes the signal and, with the lock, the sense. -/
theorem blockLock_of_conj {lock sig : Bool} {order : Nat} (hon : pinsOn m die = true) (hthere : laneThere m die lane = true)
    (hconj : lanePers (img m) die lane = 6) (hsig : lock = true → sig = true) (horder : orderOk order = true)
    (hport : ethPort m (die * 16 + lane) = false) (inv : Bool) :
    blockLock die lane lock sig inv order m =
      setLanePin die lane
        { lanePin m die lane with los := !sig, rxInverted := if lock then inv else (lanePin m die lane).rxInverted } m := by
  have hlock : (lock && !sig) = false := by
    cases lock with
    | false => rfl
    | true => simp [hsig rfl]
  simp [blockLock, hon, hthere, hconj, hlock, horder, hport]

theorem receiverDetect_lost (hon : pinsOn m die = true) (hthere : laneThere m die lane = true) (hidle : laneIdle m die lane = true)
    (htx : (lanePin m die lane).tx = 0) :
    receiverDetect die lane false m =
      laneLost die lane (pinFault die 0 lane 1 (count .pinTxFaults die lane 0
        (setLanePin die lane { lanePin m die lane with tx := 1 } m))) := by
  simp [receiverDetect, hon, hthere, hidle, htx]

theorem receiverDetect_found (hon : pinsOn m die = true) (hthere : laneThere m die lane = true) (hidle : laneIdle m die lane = true)
    (htx : (lanePin m die lane).tx = 1) :
    receiverDetect die lane true m = pinClear die 0 lane 1 (setLanePin die lane { lanePin m die lane with tx := 0 } m) := by
  simp [receiverDetect, hon, hthere, hidle, htx]

/-- A short on a driver that none disabled before. -/
theorem shortDetect_of_enabled {cause : Nat} (hon : pinsOn m die = true) (hthere : laneThere m die lane = true) (hlow : 2 ≤ cause)
    (hhigh : cause ≤ 4) (htx : (lanePin m die lane).tx < 2) :
    shortDetect die lane cause m =
      laneLost die lane (pinFault die 0 lane cause (driverOff die 0 lane cause (count .pinTxFaults die lane 0
        (setLanePin die lane { lanePin m die lane with tx := cause } m)))) := by
  have hnew : ¬ (2 ≤ (lanePin m die lane).tx ∧ (lanePin m die lane).tx ≤ 4) := by omega
  have hdriven : (lanePin m die lane).tx ≠ 5 := by omega
  simp [shortDetect, hon, hthere, hlow, hhigh, hnew, hdriven]

end

/-! ## GPIO and low-speed outputs (R455 to R457) -/

section
variable {m : M} {p : Nat}

theorem gpioSample_of_input (hon : pinsOn m 0 = true) (hp : p < 32) (hin : (gpioPin m p).output = false) (level : Bool) :
    gpioSample p level m = setGpio p { gpioPin m p with read := level } m := by
  simp [gpioSample, hon, Nat.not_le.mpr hp, hin]

/-- An output that reads what it drives, once it has settled. -/
theorem gpioSample_of_agree (hon : pinsOn m 0 = true) (hp : p < 32) (hout : (gpioPin m p).output = true)
    (hexcl : m.pair.excl = true) (hsettled : (gpioPin m p).settleUntil ≤ m.vault.mono) (hfault : (gpioPin m p).fault ≠ 6) :
    gpioSample p (gpioPin m p).driven m = setGpio p { gpioPin m p with read := (gpioPin m p).driven, mismatchRun := 0 } m := by
  simp [gpioSample, hon, Nat.not_le.mpr hp, hout, hexcl, Nat.not_lt.mpr hsettled, hfault]

/-- One of the first two samples in a row that find the pin open only counts. -/
theorem gpioOpen_counts (hon : pinsOn m 0 = true) (hp : p < 32) (hin : (gpioPin m p).output = false)
    (htest : (gpioPin m p).openTest = true) (hrun : (gpioPin m p).openRun < 2) :
    gpioOpen p true false m = setGpio p { gpioPin m p with openRun := (gpioPin m p).openRun + 1 } m := by
  have hbelow : (gpioPin m p).openRun < 3 := by omega
  have hnext : (gpioPin m p).openRun + 1 < 3 := by omega
  simp [gpioOpen, hon, Nat.not_le.mpr hp, hin, htest, hbelow, hnext]

theorem lsSample_of_agree {die b : Nat} (hon : pinsOn m die = true) (hb : b < lsBits die) (hdie : die ≤ m.part.media)
    (hclear : bit (tget m.pin.ls die 0) b = false) :
    lsSample die b false m = { m with pin.lsRun := tdel m.pin.lsRun (die * 16 + b) } := by
  simp [lsSample, hon, Nat.not_le.mpr hb, Nat.not_lt.mpr hdie, hclear]

end

/-! ## The I3C bus and its port (R106, R458) -/

section
variable {m : M}

theorem sdaStuck_of_on (hon : pinsOn m 0 = true) : sdaStuck m = i3cIdle 1 m :=
  if_pos hon

theorem sclHeld_of_long {ns : Nat} (hon : pinsOn m 0 = true) (hns : 1000000 < ns) : sclHeld ns m = i3cIdle 2 m := by
  simp [sclHeld, hon, hns]

theorem targetReset_of_on (hon : pinsOn m 0 = true) : targetReset false m = { m with i3c.pendingRead := false } := by
  simp [targetReset, hon]

theorem i3cStart_of_free (hfree : m.pin.i3cStuck = 0) : i3cStart m = m :=
  if_pos hfree

theorem i3cWrite_of_noOwner (howner : imgI3cOwner (img m) = 0) (d : Desc) (len : Nat) :
    i3cWrite d len m = emit .i3cNack (count .i3cRefused 0 0 0 m) :=
  if_pos howner

/-- The port answers: the part is Ready and out of Comma state, and the bus is not stuck. -/
structure I3cUp (m : M) : Prop where
  ready : m.start.phase = .ready
  awake : m.pwr.state < 3
  free : m.pin.i3cStuck = 0

theorem i3cWrite_of_up {d : Desc} {len : Nat} (hup : I3cUp m) (howner : imgI3cOwner (img m) ≠ 0) :
    i3cWrite d len m =
      if len ≠ 64 then emit .i3cNack (count .i3cRefused 0 0 0 m) else submit (runDesc specOf) { d with path := .i3c } m := by
  simp [i3cWrite, howner, hup.ready, Nat.not_le.mpr hup.awake, i3cStart_of_free hup.free]

theorem i3cRead_of_up (hup : I3cUp m) :
    i3cRead m =
      emit (.i3cRead (if m.i3c.busy then 1 else if m.i3c.pendingRead then 2 else 0) m.i3c.last) { m with i3c.pendingRead := false } := by
  simp [i3cRead, hup.ready, Nat.not_le.mpr hup.awake, i3cStart_of_free hup.free]

end

/-! ## The host link and the peer (R83, R107) -/

theorem linkLoss_of_ready {m : M} (hready : m.start.phase = .ready) :
    linkLoss m = (fnList m).foldl (fun x f => resetFn f 1 x) { m with host.linkSpeed := 0, host.linkWidth := 0, host.flit := false } := by
  simp [linkLoss, hready]

theorem peerCommand_of_conj {m : M} (hconj : conjLanes m = true) (d : Desc) :
    peerCommand d m = submit (runDesc specOf) { d with path := .peer } m :=
  if_pos hconj

/-! ## The pin commands (R392, R455, R460) -/

section
variable {d : Desc} {m : M} {g : GpioPin}

/-- PIN_GPIO_SET of a sound pin that keeps its direction and level sets the open test alone. -/
theorem applyGpioSet_of_same (hg : gpioPin m (gpioNo d) = g) (hout : g.output = payBit d 1 0) (hlevel : g.driven = payBit d 1 1)
    (hsound : g.fault = 0) :
    applyGpioSet d m =
      let g1 := { g with openTest := payBit d 1 2, openRun := if g.openTest && payBit d 1 2 then g.openRun else 0 }
      (gpioOut (gpioNo d) (setGpio (gpioNo d) g1 m), plainDone (gpioByte g) (gpioByte g1)) := by
  simp [applyGpioSet, hg, ← hout, ← hlevel, hsound]

/-- PIN_GPIO_SET of a sound pin that turns its direction or level lets it settle again. -/
theorem applyGpioSet_of_change (hg : gpioPin m (gpioNo d) = g) (hsound : g.fault = 0)
    (hchange : ¬ (g.output = payBit d 1 0 ∧ g.driven = payBit d 1 1)) :
    applyGpioSet d m =
      let g1 := { g with output := payBit d 1 0, driven := payBit d 1 1, openTest := payBit d 1 2, mismatchRun := 0,
                         openRun := if g.openTest && payBit d 1 2 then g.openRun else 0, settleUntil := m.vault.mono + 4000 }
      (gpioOut (gpioNo d) (setGpio (gpioNo d) g1 m), plainDone (gpioByte g) (gpioByte g1)) := by
  simp [applyGpioSet, hg, hsound, hchange]

theorem applyRestore_of_lane (h : pay d 0 1 = 0) :
    applyRestore d m =
      (setLanePin (oidDie (oid d)) (pay d 1 1) { lanePin m (oidDie (oid d)) (pay d 1 1) with tx := 0 } m, plainDone 5 0) :=
  if_pos h

theorem applyRestore_of_gpio (h : pay d 0 1 ≠ 0) :
    applyRestore d m =
      let n := pay d 1 1
      let g := gpioPin m n
      (gpioOut n (pinClear 0 1 n 5 (setGpio n { g with fault := 0, mismatchRun := 0, settleUntil := m.vault.mono + 4000 } m)),
       plainDone (gpioByte g) (gpioByte g)) :=
  if_neg h

end

/-- Settles O27: a command is its spec's effect, and any other clause is the equation of its row's meaning in the case that its
hypotheses single out. -/
theorem pinRowsComplete : Obligations.PinRowsComplete := by
  unfold Obligations.PinRowsComplete
  refine ⟨?loopback, ?gpioSame, ?gpioChange, ?restoreLane, ?restoreGpio, ?blockLock, ?noLoad, ?load, ?short, ?readInput, ?readOutput,
    ?openTest, ?lowSpeed, ?sda, ?scl, ?targetReset, ?noOwner, ?write, ?badLength, ?read, ?linkLoss, ?peer, ?ackTimeout,
    ?integrityFail, ?retryPassed, ?retrainStart, ?retrainEnd⟩
  case loopback => exact completes_of (fun _ _ => rfl) rfl fun _ _ => rfl
  case gpioSame =>
    intro g
    refine completesIf_of (fun _ _ => rfl) rfl ?_
    rintro d m ⟨hg, hout, hlevel, hsound⟩
    exact applyGpioSet_of_same hg hout hlevel hsound
  case gpioChange =>
    intro g
    refine completesIf_of (fun _ _ => rfl) rfl ?_
    rintro d m ⟨hg, hsound, hchange⟩
    exact applyGpioSet_of_change hg hsound hchange
  case restoreLane => exact completesIf_of (fun _ _ => rfl) rfl fun _ _ h => applyRestore_of_lane h
  case restoreGpio => exact completesIf_of (fun _ _ => rfl) rfl fun _ _ h => applyRestore_of_gpio h
  case blockLock =>
    exact fun s die lane lock sig inv order hon hthere hconj hsig horder hport =>
      lift_of_eq (blockLock_of_conj hon hthere hconj hsig horder hport inv)
  case noLoad => exact fun s die lane hon hthere hidle htx => lift_of_eq (receiverDetect_lost hon hthere hidle htx)
  case load => exact fun s die lane hon hthere hidle htx => lift_of_eq (receiverDetect_found hon hthere hidle htx)
  case short => exact fun s die lane c hon hthere hlow hhigh htx => lift_of_eq (shortDetect_of_enabled hon hthere hlow hhigh htx)
  case readInput => exact fun s p lvl hon hp hin => lift_of_eq (gpioSample_of_input hon hp hin lvl)
  case readOutput =>
    exact fun s p hon hp hout hexcl hsettled hfault => lift_of_eq (gpioSample_of_agree hon hp hout hexcl hsettled hfault)
  case openTest => exact fun s p hon _ hp hin htest hrun => lift_of_eq (gpioOpen_counts hon hp hin htest hrun)
  case lowSpeed => exact fun s die b hon hb hdie hclear => lift_of_eq (lsSample_of_agree hon hb hdie hclear)
  case sda => exact fun s hon => lift_of_eq (sdaStuck_of_on hon)
  case scl => exact fun s ns hon hns => lift_of_eq (sclHeld_of_long hon hns)
  case targetReset => exact fun s hon => lift_of_eq (targetReset_of_on hon)
  case noOwner => exact fun s d len howner hop => liftOp_of_eq hop (i3cWrite_of_noOwner howner d len)
  case write =>
    exact fun s d howner hready hawake hop hfree => liftOp_of_eq hop (i3cWrite_of_up ⟨hready, hawake, hfree⟩ howner)
  case badLength =>
    exact fun s d len howner hready hawake hop hfree hlen =>
      liftOp_of_eq hop ((i3cWrite_of_up ⟨hready, hawake, hfree⟩ howner).trans (if_pos hlen))
  case read => exact fun s hready hawake hfree => lift_of_eq (i3cRead_of_up ⟨hready, hawake, hfree⟩)
  case linkLoss => exact fun s hready => lift_of_eq (linkLoss_of_ready hready)
  case peer => exact fun s d hconj hop => liftOp_of_eq hop (peerCommand_of_conj hconj d)
  case ackTimeout =>
    intro s l x hl hup
    obtain ⟨y, hy, hdown, hat⟩ := getLink_linkDown hl
    exact ⟨_, linkDownEvent l 0 (linkDown l s.m), y, lift_of_eq (linkGone_of_up hl hup 0), rfl, rfl,
      (getLink_linkDownEvent 0).trans hy, hdown, hat⟩
  case integrityFail =>
    exact fun s l dir tr x hl hup hnew hrest => ⟨_, lift_of_eq (integrityFail_first hl hup hnew hrest dir), rfl, rfl⟩
  case retryPassed =>
    intro s l tr x d0 hl hretry
    exact ⟨_, _, lift_of_eq (retryDone_passed hl hretry), rfl,
      (getLink_integrityEvent d0 0).trans (getLink_retryEnds hl), retryOf_filter x tr, rfl⟩
  case retrainStart =>
    intro s l x hl hdown hunspent hdue
    obtain ⟨b, hb⟩ := getLink_foldFlags (getLink_updLink hl _)
    exact ⟨_, _, lift_of_eq (retrainStart_of_due hl hdown hunspent hdue), rfl, hb, rfl, rfl, rfl⟩
  case retrainEnd =>
    intro s l x e ok hl he htrain htime hout1 hout2
    cases ok with
    | true =>
      obtain ⟨b, hb⟩ := getLink_foldFlags (getLink_updLink hl _)
      exact ⟨_, _, lift_of_eq (retrainEnd_up hl he htrain htime hout1 hout2), rfl, (getLink_announce ..).trans hb, rfl, rfl⟩
    | false =>
      obtain ⟨b, hb⟩ := getLink_foldFlags ((getLink_count .foldDown 0 l 0 l _).trans (getLink_updLink hl _))
      exact ⟨_, _, lift_of_eq (retrainEnd_failed hl he htrain), rfl, hb, rfl, rfl⟩

end Sys2Proof.Machine

/-!
Starts (R14, R415 to R429, R469): what a start clears and keeps, said once as an equation, what a reset and a failed attempt
leave, one equation for each case of the meanings of the rows, and the two obligations of the starts.
-/
namespace Sys2Proof.Machine

/-! ## A start begins (R160, R416) -/

theorem alarmRelease_eq (m : M) :
    alarmRelease m =
      { m with
        key := { m.key with latched := 0, count := 0, alarmLow := false, enabled := 0x7F },
        sent := if m.key.alarmLow then .pin 0x100 0 true :: m.sent else m.sent } := by
  cases h : m.key.alarmLow <;> simp [alarmRelease, h, emit]

/-- Out of reset a start begins at step 1, with everything wiped, every alarm source enabled and ALARM_N released. -/
theorem beginStart_of_released {m : M} (h : released m = true) :
    beginStart m =
      { wipe m with
        key := { (wipe m).key with latched := 0, count := 0, alarmLow := false, enabled := 0x7F },
        avs.sentAt := some m.vault.mono,
        start := { (wipe m).start with begun := true, t0 := m.vault.mono, step := 1 },
        pwr.monoRestarted := m.start.standbyGone,
        sent := .avs 800 :: if m.key.alarmLow then .pin 0x100 0 true :: m.sent else m.sent } := by
  simp only [beginStart, h, alarmRelease_eq]
  rfl

/-- The row begins a start, out of a machine that the resets let run and that has the MONO and the mirror of the state. -/
def BeginsStart (i : Instr) (s : State) : Prop :=
  ∃ m, exec i s = .next (after s (beginStart m)) ∧ released m = true ∧ m.vault.mono = s.m.vault.mono ∧ m.jrn.mirror = s.m.jrn.mirror

theorem BeginsStart.clean {i : Instr} {s : State} (h : BeginsStart i s) :
    ∃ t, exec i s = .next t ∧ t.pending = s.pending ∧ t.m.start.begun = true ∧ t.m.start.step = 1 ∧
      t.m.start.t0 = s.m.vault.mono ∧ t.m.pend = [] ∧ t.m.owner = [] ∧ t.m.key.slots = [] ∧ t.m.jrn.ring = [] ∧
      t.m.jrn.mirror = s.m.jrn.mirror ∧ t.m.vault = s.m.vault := by
  obtain ⟨m, hexec, hrel, hmono, hmirror⟩ := h
  rw [beginStart_of_released hrel] at hexec
  exact ⟨_, hexec, rfl, rfl, rfl, hmono, rfl, rfl, rfl, rfl, hmirror, rfl⟩

/-! ## Resets and failed attempts (R415, R418, R420) -/

@[simp] theorem countEarly_jrn (m : M) : (countEarly m).jrn = m.jrn := by
  unfold countEarly
  split <;> rfl

@[simp] theorem noteFailed_jrn (reason : Nat) (m : M) : (noteFailed reason m).jrn = m.jrn := rfl

/-- A reset wipes the machine, whatever it notes of what ran; the journal it wipes is the one it found. -/
theorem resetHold_eq_wipe (m : M) : ∃ w, resetHold m = wipe w ∧ w.jrn = m.jrn := by
  refine ⟨_, rfl, ?_⟩
  split
  · rfl
  · split
    · simp
    · rfl

/-- Reset, with no start begun, leaves nothing pending, owned or keyed. -/
theorem held_of_resetHold {i : Instr} {s : State} {m : M} (h : exec i s = .next (after s (resetHold m))) (hjrn : m.jrn = s.m.jrn) :
    ∃ t, exec i s = .next t ∧ t.pending = s.pending ∧ t.m.start.begun = false ∧ t.m.pend = [] ∧ t.m.owner = [] ∧
      t.m.key.slots = [] ∧ t.m.jrn.mirror = s.m.jrn.mirror ∧ t.m.vault = s.m.vault := by
  obtain ⟨w, hw, hwj⟩ := resetHold_eq_wipe m
  have hmirror : w.jrn.mirror = s.m.jrn.mirror := by rw [hwj, hjrn]
  rw [hw] at h
  exact ⟨_, h, rfl, rfl, rfl, rfl, rfl, hmirror, rfl⟩

/-- A failed attempt is noted, and leads to Stem mode or to a restart within 1 ms. -/
theorem failStart_cases (reason : Nat) (m : M) :
    failStart reason m = enterStem reason (noteFailed reason (countEarly m)) ∨
    failStart reason m =
      { wipe (noteFailed reason (countEarly m)) with
        start.restartBy := some ((noteFailed reason (countEarly m)).vault.mono + 1000000) } :=
  ite_eq_or_eq ..

/-- Whether it leads to Stem mode or to a restart, a failed attempt ends the start, with its entry in the history. -/
theorem failStart_ends (reason : Nat) (m : M) :
    (failStart reason m).start.begun = false ∧ (failStart reason m).pend = [] ∧
      (failStart reason m).start.history.head? = some (histEntry reason (countEarly m)) := by
  rcases failStart_cases reason m with h | h <;> rw [h] <;> exact ⟨rfl, rfl, rfl⟩

/-! ## The attempt (R417, R418) -/

section
variable {m : M} {r : StartResult}

theorem startAttempt_of_running (hphase : m.start.phase = .starting) (hbegun : m.start.begun = true) (hrel : released m = true)
    (hcool : thermalBad r m = false) : startAttempt r m = startTemps r (runSteps r 13 m) := by
  simp [startAttempt, hphase, hbegun, hrel, hcool]

/-- The step of Table 19-1 after the one begun last, with the reason when its check fails. -/
def nextStep (r : StartResult) (m : M) : M × Option Nat :=
  startStep r (m.start.step + 1) { m with start.step := m.start.step + 1 }

/-- While steps are left for the command to run, the next one runs, and the attempt goes on or fails with it. -/
theorem runSteps_succ (hphase : m.start.phase = .starting) (hbegun : m.start.begun = true) (hleft : m.start.step < 13)
    (hupTo : m.start.step < r.upTo) (k : Nat) :
    runSteps r (k + 1) m =
      (nextStep r m).2.elim (runSteps r k (nextStep r m).1) fun reason => failStart reason (nextStep r m).1 := by
  have hleft' : ¬ 13 < m.start.step + 1 := by omega
  have hupTo' : ¬ r.upTo < m.start.step + 1 := by omega
  refine (if_neg (by simp [hphase, hbegun, hleft', hupTo'])).trans ?_
  unfold nextStep
  cases (startStep r (m.start.step + 1) { m with start.step := m.start.step + 1 }).2 <;> rfl

theorem watchdogExpiry_of_due (hphase : m.start.phase = .starting) (hbegun : m.start.begun = true)
    (hdue : m.start.t0 + m.start.watchdogMs * 1000000 ≤ m.vault.mono) : watchdogExpiry m = failStart 7 m := by
  simp [watchdogExpiry, hphase, hbegun, hdue]

/-! ## Reset inputs, supplies and restarts (R14, R415, R416, R421) -/

theorem porstRelease_of_low (h : m.start.porstLow = true) :
    porstRelease m =
      if released { m with start.porstLow := false } then beginStart { m with start.porstLow := false }
      else { m with start.porstLow := false } := by
  simp [porstRelease, h]

theorem perstRelease_of_low (h : m.start.perstLow = true) :
    perstRelease m =
      if released { m with start.perstLow := false } then beginStart { m with start.perstLow := false }
      else { m with start.perstLow := false } := by
  simp [perstRelease, h]

theorem resetAssert_perst (hrel : released m = true) : resetAssert true m = resetHold { m with start.perstLow := true } := by
  simp [resetAssert, hrel]

theorem resetAssert_porst (hrel : released m = true) : resetAssert false m = resetHold { m with start.porstLow := true } := by
  simp [resetAssert, hrel]

variable {rail : Nat}

theorem supplyChange_falls (hrail : rail ≤ 7) (hgood : bit m.start.supplyLow rail = false) (hrel : released m = true) :
    supplyChange rail false m = resetHold { m with start.supplyLow := m.start.supplyLow + 2 ^ rail } := by
  simp [supplyChange, Nat.not_lt.mpr hrail, hgood, hrel]

/-- The last supply that was low is back. -/
theorem supplyChange_last (hrail : rail ≤ 7) (hlow : bit m.start.supplyLow rail = true)
    (hrel : released { m with start.supplyLow := m.start.supplyLow - 2 ^ rail } = true) :
    supplyChange rail true m = beginStart { m with start.supplyLow := m.start.supplyLow - 2 ^ rail } := by
  simp [supplyChange, Nat.not_lt.mpr hrail, hlow, hrel]

theorem attemptRestart_of_due (h : m.start.restartBy.isSome = true) : attemptRestart m = beginStart m :=
  if_pos h

theorem activateRestart_of_due {at_ : Nat} (h : m.syn.restartAt = some at_) (hdue : at_ ≤ m.vault.mono) :
    activateRestart m = beginStart m := by
  simp [activateRestart, h, hdue]

theorem otherVerifyDone_of_some {n : Nat} (h : m.start.otherVerify = some n) :
    otherVerifyDone m = slotStatus n (slotViol m n) (bootPut (withHash n (foundHash m n)) { m with start.otherVerify := none }) := by
  simp [otherVerifyDone, h]

/-! ## Stem mode (R425 to R429) -/

/-- In Stem mode a write to a register of its block acts. -/
theorem stmWrite_of_stem (h : m.start.phase = .stem) (offset : Nat) (f : M → M) : stmWrite offset f m = f m :=
  if_pos h

theorem flashStart_of_free (h : m.start.flashOp = none) (op len : Nat) :
    flashStart op len m = { m with start.flashOp := some { op := op, addr := m.start.flashAddr, len := len } } := by
  simp [flashStart, h]

/-- A write to STM_FLASH_CMD starts its operation when none runs. -/
theorem stmWrite_flashStart (hstem : m.start.phase = .stem) (hfree : m.start.flashOp = none) (op len : Nat) :
    stmWrite stmFlashCmd (flashStart op len) m =
      { m with start.flashOp := some { op := op, addr := m.start.flashAddr, len := len } } :=
  (stmWrite_of_stem hstem _ _).trans (flashStart_of_free hfree op len)

theorem flashDone_of_good {o : StemOp} {ok : Bool} (hop : m.start.flashOp = some o) (hgood : (flashOutcome o ok m).1 = 0)
    (i : Option Image) (data : List Byte) :
    flashDone ok i data m =
      msixRaise 2 0 (stemRecord 0x02C2 o.addr (o.op * 2 ^ 56 + o.len) stOK
        { flashEffect o ok i data m with start.flashOp := none, start.flashOutcome := 0, start.flashRule := 0 }) := by
  simp [flashDone, hop, hgood]

theorem debugUnlock_of_ok (h : unlockOk m = true) : debugUnlock m = stemRecord 0x02C3 0 1 stOK { m with start.debugUnlocked := true } :=
  if_pos h

theorem debugUnlock_of_refused (h : unlockOk m = false) :
    debugUnlock m = stemRecord 0x02C3 0 0 stOK { m with start.unlockRefused := hold 31 (m.start.unlockRefused + 1) } := by
  simp [debugUnlock, h]

theorem jtagAccess_eq (m : M) :
    jtagAccess m = emit (.read [if m.start.phase = .stem ∧ m.start.debugUnlocked = true then 1 else 0]) m := by
  simp [jtagAccess, b2n]

end

/-- Settles O33: each clause is the equation of its row's meaning in the case that its hypotheses single out. -/
theorem startRowsComplete : Obligations.StartRowsComplete := by
  unfold Obligations.StartRowsComplete
  refine ⟨?attempt, ?porst, ?perst, ?assertPerst, ?assertPorst, ?supply, ?watchdog, ?restart, ?otherSlot, ?alwaysOn, ?flashOps,
    ?flashDone, ?unlocked, ?refused, ?stemRestart, ?jtag⟩
  case attempt => exact fun s r hphase hbegun hrel hcool => lift_of_eq (startAttempt_of_running hphase hbegun hrel hcool)
  case porst => exact fun s h => lift_of_eq (porstRelease_of_low h)
  case perst => exact fun s h => lift_of_eq (perstRelease_of_low h)
  case assertPerst => exact fun s hrel => lift_of_eq (resetAssert_perst hrel)
  case assertPorst => exact fun s hrel => lift_of_eq (resetAssert_porst hrel)
  case supply => exact fun s rail hrail hgood hrel => lift_of_eq (supplyChange_falls hrail hgood hrel)
  case watchdog => exact fun s hphase hbegun hdue => lift_of_eq (watchdogExpiry_of_due hphase hbegun hdue)
  case restart => exact fun s t h => lift_of_eq (attemptRestart_of_due (by simp [h]))
  case otherSlot => exact fun s n h => lift_of_eq (otherVerifyDone_of_some h)
  case alwaysOn => exact fun s => ⟨_, rfl, rfl, rfl, rfl, rfl, rfl, rfl⟩
  case flashOps =>
    intro s n hstem hfree
    exact ⟨lift_of_eq (stmWrite_flashStart hstem hfree 1 0), lift_of_eq (stmWrite_flashStart hstem hfree 2 _),
      lift_of_eq (stmWrite_flashStart hstem hfree 3 _), lift_of_eq (stmWrite_flashStart hstem hfree 4 0),
      lift_of_eq (stmWrite_flashStart hstem hfree 5 0)⟩
  case flashDone => exact fun s ok i data o hop hgood => lift_of_eq (flashDone_of_good hop hgood i data)
  case unlocked =>
    exact fun s hstem hok => lift_of_eq ((stmWrite_of_stem hstem _ _).trans (debugUnlock_of_ok hok))
  case refused =>
    exact fun s hstem hbad => lift_of_eq ((stmWrite_of_stem hstem _ _).trans (debugUnlock_of_refused hbad))
  case stemRestart => exact fun s hstem => lift_of_eq (stmWrite_of_stem hstem _ _)
  case jtag => exact fun s => lift_of_eq (jtagAccess_eq s.m)

/-- Settles O41: the start's equation gives what it clears and keeps, every row that begins a start does so out of a machine that
is released, and a reset or a failed attempt leaves the machine wiped. -/
theorem startsAreClean : Obligations.StartsAreClean := by
  unfold Obligations.StartsAreClean
  refine ⟨?clean, ?begins, ?held, ?alwaysOn, ?watchdog, ?attempt, ?stepPasses, ?stepFails⟩
  case clean =>
    intro m hrel
    rw [beginStart_of_released hrel]
    exact ⟨fun _ => rfl, rfl, rfl, fun _ => rfl, fun _ => rfl, rfl, rfl, rfl, rfl, rfl, rfl, rfl, rfl, rfl, rfl, rfl, rfl⟩
  case begins =>
    intro s i h
    refine BeginsStart.clean ?_
    rcases h with ⟨rfl, hlow, hrel⟩ | ⟨rfl, hlow, hrel⟩ | ⟨rail, rfl, hrail, hlow, hrel⟩ | ⟨rfl, hby, hrel⟩ | ⟨rfl, hstem, hrel⟩ |
      ⟨rfl, ⟨at_, hat, hdue⟩, hrel⟩
    · exact ⟨_, lift_of_eq ((porstRelease_of_low hlow).trans (if_pos hrel)), hrel, rfl, rfl⟩
    · exact ⟨_, lift_of_eq ((perstRelease_of_low hlow).trans (if_pos hrel)), hrel, rfl, rfl⟩
    · exact ⟨_, lift_of_eq (supplyChange_last hrail hlow hrel), hrel, rfl, rfl⟩
    · exact ⟨_, lift_of_eq (attemptRestart_of_due hby), hrel, rfl, rfl⟩
    · exact ⟨_, lift_of_eq (stmWrite_of_stem hstem _ _), hrel, rfl, rfl⟩
    · exact ⟨_, lift_of_eq (activateRestart_of_due hat hdue), hrel, rfl, rfl⟩
  case held =>
    rintro s i hrel (rfl | rfl | ⟨rail, rfl, hrail, hgood⟩)
    · exact held_of_resetHold (lift_of_eq (resetAssert_perst hrel)) rfl
    · exact held_of_resetHold (lift_of_eq (resetAssert_porst hrel)) rfl
    · exact held_of_resetHold (lift_of_eq (supplyChange_falls hrail hgood hrel)) rfl
  case alwaysOn => exact fun s => ⟨_, rfl, rfl, rfl, rfl, rfl, rfl, rfl, rfl⟩
  case watchdog =>
    intro s hphase hbegun hdue
    obtain ⟨hend, hpend, hhist⟩ := failStart_ends 7 s.m
    exact ⟨_, _, lift_of_eq (watchdogExpiry_of_due hphase hbegun hdue), rfl, hend, hpend, hhist, rfl, rfl⟩
  case attempt =>
    exact fun s r hphase hbegun hrel hcool => ⟨_, lift_of_eq (startAttempt_of_running hphase hbegun hrel hcool), rfl, rfl⟩
  case stepPasses =>
    intro r k m hphase hbegun hleft hupTo hpass
    rw [runSteps_succ hphase hbegun hleft hupTo, nextStep, hpass]
    rfl
  case stepFails =>
    intro r k m reason hphase hbegun hleft hupTo hfail
    rw [runSteps_succ hphase hbegun hleft hupTo, nextStep, hfail]
    rfl

end Sys2Proof.Machine

/-!
Boundaries of device time (R43, R44, R49): the number of a boundary and its device time are adjoint, from which the first boundary
at or after a time, the samples of an audio window and the windows of a video rate follow; and the commit times that name them.
-/
namespace Sys2Proof.Machine

/-! ## Ceiling division -/

theorem cdiv_eq_ceilDiv (a b : Nat) : cdiv a b = a ⌈/⌉ b := rfl

theorem cdiv_le_iff {b : Nat} (a n : Nat) (hb : 0 < b) : cdiv a b ≤ n ↔ a ≤ n * b := by
  rw [cdiv_eq_ceilDiv, ceilDiv_le_iff_le_mul hb, Nat.mul_comm]

theorem le_cdiv_mul {b : Nat} (a : Nat) (hb : 0 < b) : a ≤ cdiv a b * b :=
  (cdiv_le_iff a _ hb).mp le_rfl

theorem cdiv_mul_lt {b : Nat} (a : Nat) (hb : 0 < b) : cdiv a b * b < a + b := by
  have h : cdiv a b * b ≤ a + b - 1 := Nat.div_mul_le_self ..
  omega

/-! ## The boundaries of a form and their numbers -/

/-- A boundary form whose boundaries follow one another in time. -/
def Boundary.Positive : Boundary → Prop
  | .audio n => 0 < n
  | .grid n => 0 < n
  | .video num den => 0 < num ∧ 0 < den
  | _ => True

theorem boundaryAt_video_le_iff {num : Nat} (den k n : Nat) (hnum : 0 < num) :
    boundaryAt (.video num den) k ≤ n ↔ k * den * 1000000000 ≤ n * num :=
  cdiv_le_iff _ _ hnum

/-- A boundary is not after a time exactly if its number is at most that of the last boundary before the time. -/
theorem boundaryAt_le_iff {b : Boundary} (hb : b.Positive) (k t : Nat) : boundaryAt b k ≤ t ↔ k ≤ boundaryNo b t := by
  cases b with
  | sample =>
    rw [boundaryNo, Nat.le_div_iff_mul_le (by decide)]
    exact cdiv_le_iff _ _ (by decide)
  | audio len => exact (Nat.le_div_iff_mul_le hb).symm
  | video num den =>
    obtain ⟨hnum, hden⟩ := hb
    rw [boundaryNo, Nat.le_div_iff_mul_le (Nat.mul_pos hden (by decide)), ← Nat.mul_assoc]
    exact boundaryAt_video_le_iff den k t hnum
  | grid len => exact (Nat.le_div_iff_mul_le hb).symm
  | instant => exact Iff.rfl

section
variable {b : Boundary} (hb : b.Positive)
include hb

theorem boundaryAt_boundaryNo_le (t : Nat) : boundaryAt b (boundaryNo b t) ≤ t :=
  (boundaryAt_le_iff hb _ _).mpr le_rfl

theorem lt_boundaryAt_iff (k t : Nat) : t < boundaryAt b k ↔ boundaryNo b t < k := by
  rw [← Nat.not_le, boundaryAt_le_iff hb, Nat.not_le]

theorem boundaryAt_mono {j k : Nat} (h : j ≤ k) : boundaryAt b j ≤ boundaryAt b k :=
  (boundaryAt_le_iff hb _ _).mpr (h.trans ((boundaryAt_le_iff hb _ _).mp le_rfl))

theorem boundaryNo_eq_iff (k t : Nat) : boundaryNo b t = k ↔ boundaryAt b k ≤ t ∧ t < boundaryAt b (k + 1) := by
  rw [boundaryAt_le_iff hb, lt_boundaryAt_iff hb]
  omega

/-! ## The first boundary at or after a time -/

/-- Either the last boundary is the time itself, or the first one at or after it is the boundary that follows. -/
theorem firstAt_cases (t : Nat) :
    (boundaryAt b (boundaryNo b t) = t ∧ firstAt b t = t) ∨
    (boundaryAt b (boundaryNo b t) < t ∧ firstAt b t = boundaryAt b (boundaryNo b t + 1)) := by
  have hle := boundaryAt_boundaryNo_le hb t
  unfold firstAt
  by_cases h : t ≤ boundaryAt b (boundaryNo b t)
  · exact .inl ⟨hle.antisymm h, (if_pos h).trans (hle.antisymm h)⟩
  · exact .inr ⟨Nat.lt_of_not_le h, if_neg h⟩

theorem firstAt_is_boundary (t : Nat) : ∃ k, firstAt b t = boundaryAt b k := by
  rcases firstAt_cases hb t with ⟨hat, h⟩ | ⟨-, h⟩
  · exact ⟨_, h.trans hat.symm⟩
  · exact ⟨_, h⟩

theorem le_firstAt (t : Nat) : t ≤ firstAt b t := by
  rcases firstAt_cases hb t with ⟨-, h⟩ | ⟨-, h⟩
  · exact h.ge
  · exact h ▸ ((lt_boundaryAt_iff hb _ _).mpr (Nat.lt_succ_self _)).le

theorem firstAt_le_boundaryAt {t k : Nat} (h : t ≤ boundaryAt b k) : firstAt b t ≤ boundaryAt b k := by
  rcases firstAt_cases hb t with ⟨-, hfirst⟩ | ⟨hbefore, hfirst⟩
  · exact hfirst.trans_le h
  · have hnext : boundaryNo b t < k := by
      by_contra hk
      exact absurd (h.trans (boundaryAt_mono hb (Nat.le_of_not_lt hk))) (Nat.not_le.mpr hbefore)
    exact hfirst ▸ boundaryAt_mono hb hnext

end

/-- Settles O48: the least boundary at or after a time, from the adjunction of boundaries and their numbers; the first one after it
is the first at or after the next nanosecond. -/
theorem firstBoundaries : Obligations.FirstBoundaries := by
  unfold Obligations.FirstBoundaries
  intro b t hform
  have hb : b.Positive := by cases b <;> exact hform
  exact ⟨le_firstAt hb t, firstAt_is_boundary hb t, fun _ => firstAt_le_boundaryAt hb,
    le_firstAt hb (t + 1), fun _ => firstAt_le_boundaryAt hb⟩

/-! ## Audio windows and samples (R43) -/

theorem dieWindow_eq_250000_iff (im : Option Image) (die : Nat) : dieWindow im die = 250000 ↔ (imgMixer im die).1 = 1 := by
  simp [dieWindow]

theorem boundaryAt_sample_strictMono : StrictMono (boundaryAt .sample) :=
  strictMono_nat_of_lt_succ fun n => by
    simp only [boundaryAt, cdiv, nsPerS]
    omega

/-- A window of 1 ms starts where its first sample does. -/
theorem boundaryAt_audio_1ms (k : Nat) : boundaryAt (.audio 1000000) k = boundaryAt .sample (48 * k) := by
  simp only [boundaryAt, cdiv, nsPerS]
  omega

/-- A window of 250 µs starts where its first sample does. -/
theorem boundaryAt_audio_250us (k : Nat) : boundaryAt (.audio 250000) k = boundaryAt .sample (12 * k) := by
  simp only [boundaryAt, cdiv, nsPerS]
  omega

/-- Samples lie between the starts of two samples in the order of their numbers. -/
theorem sample_between_iff (i j n : Nat) :
    (boundaryAt .sample i ≤ boundaryAt .sample n ∧ boundaryAt .sample n < boundaryAt .sample j) ↔ (i ≤ n ∧ n < j) :=
  and_congr boundaryAt_sample_strictMono.le_iff_le boundaryAt_sample_strictMono.lt_iff_lt

/-- Settles O49: a window starts where its first sample does, and samples start in the order of their numbers. -/
theorem audioWindowsAndSamples : Obligations.AudioWindowsAndSamples := by
  unfold Obligations.AudioWindowsAndSamples
  refine ⟨?lengths, dieWindow_eq_250000_iff, fun _ _ => rfl, ?starts, ?ms, ?us⟩
  case lengths => exact fun im die => (ite_eq_or_eq ..).symm
  case starts => exact fun n => ⟨cdiv_mul_lt _ (by decide), le_cdiv_mul _ (by decide)⟩
  case ms =>
    intro n k
    rw [boundaryAt_audio_1ms, boundaryAt_audio_1ms, sample_between_iff]
    omega
  case us =>
    intro n k
    rw [boundaryAt_audio_250us, boundaryAt_audio_250us, sample_between_iff]
    omega

/-! ## Video windows (R44) -/

/-- The worked rate of R44 repeats every 3 windows. -/
theorem boundaryAt_60000_1001_add_three (k : Nat) :
    boundaryAt (.video 60000 1001) (k + 3) = boundaryAt (.video 60000 1001) k + 50050000 := by
  simp only [boundaryAt, cdiv, nsPerS]
  omega

theorem boundaryAt_60000_1001_succ (k : Nat) :
    boundaryAt (.video 60000 1001) k + 16683333 ≤ boundaryAt (.video 60000 1001) (k + 1) ∧
    boundaryAt (.video 60000 1001) (k + 1) ≤ boundaryAt (.video 60000 1001) k + 16683334 := by
  simp only [boundaryAt, cdiv, nsPerS]
  omega

/-- Settles O50: the starts by the adjunction of boundaries and their numbers, and the worked rate by its lengths. -/
theorem videoWindows : Obligations.VideoWindows := by
  unfold Obligations.VideoWindows
  refine ⟨fun _ den k n hnum => boundaryAt_video_le_iff den k n hnum, ?numbers, fun _ => rfl, fun _ => rfl, rfl, rfl,
    boundaryAt_60000_1001_add_three, ?lengths⟩
  case numbers =>
    intro num den k t hnum hden
    have hb : (Boundary.video num den).Positive := ⟨hnum, hden⟩
    exact boundaryNo_eq_iff hb k t
  case lengths =>
    intro j k
    have hj := boundaryAt_60000_1001_succ j
    have hk := boundaryAt_60000_1001_succ k
    omega

/-! ## The commit time of a held command (R49) -/

theorem firstBad_of_mem {l : List (Bool × Nat)} {dt : Nat} (h : (true, dt) ∈ l) : ∃ x, firstBad l = some x := by
  induction l with
  | nil => cases h
  | cons p r ih =>
    obtain ⟨bad, x⟩ := p
    cases bad with
    | true => exact ⟨x, rfl⟩
    | false => exact ih (by simpa using h)

section
variable {sp : CmdSpec} {d : Desc} {b : Boundary} {m : M}

theorem commonFields_of_far (hany : sp.anyCommit = false) (hns : d.commitNs < nsPerS) (hfar : m.dev + 60 * nsPerS < commitAt d) :
    ∃ dt, commonFields sp d m = some dt :=
  firstBad_of_mem (dt := 12) (by simp [hany, hns, hfar])

theorem heldLate_of_zero (h : commitAt d = 0) : heldLate d b m = false := by
  simp [heldLate, h]

theorem heldLate_of_ahead (hahead : m.dev < commitAt d) (hfirst : m.dev < firstAt b (commitAt d)) : heldLate d b m = false := by
  simp [heldLate, hahead.le, hfirst]

theorem heldLate_of_past (hset : commitAt d ≠ 0) (hpast : commitAt d < m.dev) : heldLate d b m = true := by
  simp [heldLate, hset, hpast]

/-- A command that names no time of its own, with no commit time or a late one, is due at the first boundary after now. -/
theorem heldDue_next (hfree : sp.notBefore d m = 0) (h : commitAt d = 0 ∨ heldLate d b m = true) :
    heldDue sp d b m = firstAfter b m.dev := by
  simp [heldDue, hfree, h]

/-- With a commit time that is not late, it is due at the first boundary at or after that time. -/
theorem heldDue_named (hfree : sp.notBefore d m = 0) (hset : commitAt d ≠ 0) (h : heldLate d b m = false) :
    heldDue sp d b m = firstAt b (commitAt d) := by
  simp [heldDue, hfree, hset, h]

end

/-- Settles O47: whether a command is late, and from that where it is due. -/
theorem commitTimesNameTheirBoundary : Obligations.CommitTimesNameTheirBoundary := by
  unfold Obligations.CommitTimesNameTheirBoundary
  refine ⟨?far, ?zero, ?ahead, ?past, fun _ => rfl, ?mixer⟩
  case far => exact fun sp d m hany hns hfar => commonFields_of_far hany hns hfar
  case zero => exact fun sp d b m hfree h => ⟨heldLate_of_zero h, heldDue_next hfree (.inl h)⟩
  case ahead =>
    intro sp d b m hfree hahead hfirst
    have hlate := heldLate_of_ahead hahead hfirst
    exact ⟨hlate, heldDue_named hfree (by omega) hlate⟩
  case past =>
    intro sp d b m hfree hset hpast
    have hlate := heldLate_of_past (b := b) hset hpast
    exact ⟨hlate, heldDue_next hfree (.inr hlate)⟩
  case mixer => exact fun d m h => by simp [mixCommitSpec, h]

end Sys2Proof.Machine

/-!
MONO (R42): what a row, an idle step and each operation of the clock do to it; and the values the part holds at reset.
-/
namespace Sys2Proof.Machine

/-- Every row is a meaning that keeps MONO, but ALWAYS_ON_POWER_UP. -/
theorem exec_cases (c : Instr) (s : State) :
    c = .alwaysOnPowerUp ∨ (∃ f, exec c s = lift f s) ∨ ∃ opcode f, exec c s = liftOp opcode f s := by
  cases c with
  | alwaysOnPowerUp => exact .inl rfl
  | keyOwnerEnrol d => exact .inr (.inr ⟨_, _, rfl⟩)
  | i3cPrivateWrite d len => exact .inr (.inr ⟨_, _, rfl⟩)
  | peerCommandReceived d => exact .inr (.inr ⟨_, _, rfl⟩)
  | _ => exact .inr (.inl ⟨_, rfl⟩)

theorem lift_mono {f : M → M} {s t : State} (h : lift f s = .next t) : t.m.vault.mono = s.m.vault.mono := by
  cases h
  rfl

theorem liftOp_mono {opcode : Nat} {f : M → M} {s t : State} (h : liftOp opcode f s = .next t) :
    t.m.vault.mono = s.m.vault.mono := by
  cases h
  rfl

theorem liftMono_mono {f : M → M} {s t : State} (h : liftMono f s = .next t) : t.m.vault.mono = (f s.m).vault.mono := by
  cases h
  rfl

theorem exec_mono {c : Instr} {s t : State} (hc : c ≠ .alwaysOnPowerUp) (h : exec c s = .next t) :
    t.m.vault.mono = s.m.vault.mono := by
  rcases exec_cases c s with hon | ⟨f, hf⟩ | ⟨opcode, f, hf⟩
  · exact absurd hon hc
  · exact lift_mono (hf.symm.trans h)
  · exact liftOp_mono (hf.symm.trans h)

/-! ## One tick of the clock -/

theorem Reports.vault_eq {a b : M} (h : Reports a b) : b.vault = a.vault := by
  rw [h]

theorem freqTick_vault (m : M) : (freqTick m).vault = m.vault := by
  simp only [freqTick]
  split_ifs <;> rfl

theorem clockTick_mono (m : M) : (clockTick m).vault.mono = m.vault.mono + 1 := by
  simp only [clockTick]
  split_ifs
  · rw [freqTick_vault]
  all_goals rfl

theorem authRecord_vault (leg : Nat) (m : M) : (authRecord leg m).vault = m.vault := by
  unfold authRecord
  split
  · rfl
  · exact (reports_jrnAppend _ _).vault_eq

theorem authSeconds_vault (m : M) : (authSeconds m).vault = m.vault :=
  List.foldlRecOn (motive := fun x : M => x.vault = m.vault) _ _ rfl fun x hx a _ => (authRecord_vault a.1 x).trans hx

/-! ## A descriptor is taken -/

theorem queuePop_vault (f r : Nat) (m : M) : (queuePop f r m).vault = m.vault := by
  unfold queuePop
  split_ifs <;> rfl

theorem takeNext_vault {m m1 : M} {d : Desc} (h : takeNext m = some (d, m1)) : m1.vault = m.vault := by
  unfold takeNext at h
  split at h
  · cases h
  · split at h
    · cases h
    · cases h
      exact queuePop_vault ..

theorem nextDesc_vault {m m1 : M} {d : Desc} (h : nextDesc m = some (d, m1)) : m1.vault = m.vault := by
  unfold nextDesc at h
  split_ifs at h
  exact takeNext_vault h

/-- Out of Comma state an idle step executes the next descriptor, which leaves MONO, or lets one nanosecond pass. -/
theorem idle_mono {s t : State} (hawake : s.m.pwr.state < 3) (h : idle s = .next t) :
    t.m.vault.mono = s.m.vault.mono ∨ (nextDesc s.m = none ∧ t.m.vault.mono = s.m.vault.mono + 1) := by
  rw [idle, if_neg (Nat.not_le.mpr hawake)] at h
  split at h
  next d m1 hnext => exact .inl ((liftOp_mono h).trans (congrArg Vault.mono (nextDesc_vault hnext)))
  next hnext =>
    refine .inr ⟨hnext, (liftMono_mono h).trans ?_⟩
    rw [authSeconds_vault, clockTick_mono]

/-- Settles O38: MONO by the kind of meaning each row has, and by the two things an idle step can do. -/
theorem monoOnlyCounts : Obligations.MonoOnlyCounts := by
  unfold Obligations.MonoOnlyCounts
  exact ⟨rfl, fun _ _ h => liftMono_mono h, fun _ _ _ => exec_mono, fun _ _ => idle_mono⟩

/-- Settles O40: the values of the reset state. -/
theorem resetHoldsWhatTheSpecGives : Obligations.ResetHoldsWhatTheSpecGives := by
  unfold Obligations.ResetHoldsWhatTheSpecGives
  exact ⟨rfl, fun _ => rfl, fun _ => rfl, fun _ => rfl, rfl, rfl, rfl, rfl⟩

end Sys2Proof.Machine

/-!
The time base (R37 to R41, R46, R55, R59, R483): one equation for each case of the meanings of its commands and rows.
-/
namespace Sys2Proof.Machine

/-! ## TIM_SET (R59) -/

/-- In FREE mode a TIM_SET steps device time at once. -/
theorem applyTimSet_of_free {d : Desc} {m : M} (h : m.tim.mode = 2) :
    applyTimSet d m = (timeStep (pay d 0 6 * 1000000000 + pay d 6 4) m, .done (reply stOK 0 0xFF)) :=
  if_pos h

/-- In REF mode a TIM_SET is held and waits for the next edge. -/
theorem applyTimSet_of_ref {d : Desc} {m : M} (h : m.tim.mode = 1) :
    applyTimSet d m =
      ({ m with
          tim.setWait := some (pay d 0 6 * 1000000000 + pay d 6 4, m.vault.mono),
          pend := m.pend ++ [{ d := d, due := 0, kind := .instant, late := false, order := m.host.orders, waits := true, before := 0xFF }],
          host.orders := m.host.orders + 1 }, .later) :=
  if_neg (by omega)

theorem hostRow_timSet_of_ref {d x : Desc} {m m1 : M} (hs : Starts timSetSpec d m x m1) (h : m1.tim.mode = 1) :
    hostRow timSetSpec d m =
      { m1 with
        tim.setWait := some (pay x 0 6 * 1000000000 + pay x 6 4, m1.vault.mono),
        pend := m1.pend ++ [{ d := x, due := 0, kind := .instant, late := false, order := m1.host.orders, waits := true, before := 0xFF }],
        host.orders := m1.host.orders + 1, deferred := m1.deferred ++ [x] } := by
  have happly : timSetSpec.apply x m1 = _ := applyTimSet_of_ref h
  have hnow : timSetSpec.when x m1 = none := rfl
  have hexec : timSetSpec.onExec x m1 = m1 := rfl
  rw [hs.dispatch, hexec]
  simp [dispatchCmd, hnow, applyCmd, happly]

/-- Settles O7: a command is its spec's effect, and a TIM_SET steps or waits as its mode says. -/
theorem timeCommandsComplete : Obligations.TimeCommandsComplete := by
  unfold Obligations.TimeCommandsComplete
  refine ⟨?source, ?step, ?wait, ?guard, ?alarm, ?avs, ?refout⟩
  case source => exact completes_of (fun _ _ => rfl) rfl fun _ _ => rfl
  case step => exact completesIf_of (fun _ _ => rfl) rfl fun _ _ h => applyTimSet_of_free h
  case wait => exact fun s d x m1 hs h => lift_of_eq (hostRow_timSet_of_ref hs h)
  case guard => exact completes_of (fun _ _ => rfl) rfl fun _ _ => rfl
  case alarm => exact completes_of (fun _ _ => rfl) rfl fun _ _ => rfl
  case avs => exact completes_of (fun _ _ => rfl) rfl fun _ _ => rfl
  case refout => exact completes_of (fun _ _ => rfl) rfl fun _ _ => rfl

/-! ## PTP messages (R38) -/

section
variable {m : M} {port : Nat}

/-- A message of the active port is heard: PTP mode, the port is in use, and its receiver hears the wire. -/
structure HearsPtp (m : M) (port : Nat) : Prop where
  mode : m.tim.mode = 0
  active : m.tim.activePort = port
  used : port ≠ 0xFF
  heard : ptpDeaf m port = false

/-- What the offset a Sync message measures leads to: a correction, and the lock condition once more (R39, R40). -/
def syncCorrected (offset : Int) (m : M) : M :=
  lockCount (decide (offset.natAbs ≤ 1000)) 16 (correctOffset offset { m with tim.offset := satS 32 offset })

theorem ptpSync_of_heard (h : HearsPtp m port) (diff : Int) :
    ptpSync port diff m =
      { syncCorrected (diff - m.tim.delay) m with
        tim.ptpState := if (syncCorrected (diff - m.tim.delay) m).tim.quality = 2 then 3 else 2 } :=
  if_neg (by simp [h.mode, h.active, h.used, h.heard])

theorem ptpDelayResp_of_heard (h : HearsPtp m port) (delay : Int) :
    ptpDelayResp port delay m = { m with tim.delay := delay } :=
  if_neg (by simp [h.mode, h.active, h.used, h.heard])

theorem ptpAnnounceTimeout_portA (hmode : m.tim.mode = 0) (hdue : announceDue m m.tim.masterA = true) :
    ptpAnnounceTimeout m.tim.portA m =
      (let y := reselect (gmInUse m.tim) { m with tim.masterA := none }
       if y.tim.activePort = 0xFF then sourceLost y else y) := by
  simp [ptpAnnounceTimeout, hmode, hdue]

/-! ## REF_FRAME and REF_10M (R41, R59) -/

/-- The edge a TIM_SET waits for sets its time, and the lock condition is counted afresh. -/
theorem refEdge_of_waiting {falling : Bool} {w : Nat × Nat} {d : Desc} (hawake : m.pwr.state < 3) (hen : m.tim.refEn = true)
    (hmode : (refPresence falling m).tim.mode = 1) (hwait : (refPresence falling m).tim.setWait = some w)
    (hheld : timSetWaiting (refPresence falling m) = some d) :
    refEdge falling m =
      endTimSet d stOK (timeStep w.1 { refPresence falling m with tim.setDone := true, tim.lockRun := 0 }) := by
  simp [refEdge, Nat.not_le.mpr hawake, hen, hmode, hwait, hheld]

/-- One of the first three pulses that do not come. -/
theorem refMissed_of_few {t : Nat} (hlast : m.tim.refLast = some t) (hen : m.tim.refEn = true) (hawake : m.pwr.state < 3)
    (hperiod : refPeriod m.tim ≠ 0)
    (hdue : t * 100 + refPeriod m.tim * 100 * (m.tim.refMissed + 1) + refPeriod m.tim ≤ m.vault.mono * 100)
    (hfew : m.tim.refMissed < 3) :
    refMissed m = { m with tim.refMissed := m.tim.refMissed + 1, tim.refPulses := 0 } := by
  have hfew' : m.tim.refMissed + 1 < 4 := by omega
  simp [refMissed, hlast, hen, Nat.not_le.mpr hawake, hperiod, Nat.not_lt.mpr hdue, hfew']

theorem ref10m_of_change {ppb : Int} (hawake : m.pwr.state < 3) (hchange : decide (ppb.natAbs ≤ 10000) ≠ m.tim.tenPresent) :
    ref10m ppb m =
      refChange 1 (decide (ppb.natAbs ≤ 10000)) false
        { m with tim.tenPpb := ppb, tim.tenPresent := decide (ppb.natAbs ≤ 10000) } := by
  simp [ref10m, Nat.not_le.mpr hawake, hchange]

/-- A TIM_SET that has waited 10 s ends with TIMEOUT. -/
theorem timSetTimeout_of_due {w : Nat × Nat} {d : Desc} (hwait : m.tim.setWait = some w) (hheld : timSetWaiting m = some d)
    (hdue : w.2 + 10000000000 ≤ m.vault.mono) : timSetTimeout m = endTimSet d stTimeout m := by
  have hdue' : w.2 + 10 * nsPerS ≤ m.vault.mono := hdue
  simp [timSetTimeout, hwait, hheld, hdue']

end

/-- Settles O8: each clause is the equation of its row's meaning in the case that its hypotheses single out. -/
theorem timeRowsComplete : Obligations.TimeRowsComplete := by
  unfold Obligations.TimeRowsComplete
  refine ⟨?sync, ?delay, ?announce, ?silent, ?edge, ?missed, ?ten, ?timeout⟩
  case sync =>
    exact fun s port diff hmode hactive hused hheard =>
      ⟨_, lift_of_eq (ptpSync_of_heard ⟨hmode, hactive, hused, hheard⟩ diff), rfl, rfl⟩
  case delay =>
    exact fun s port delay hmode hactive hused hheard =>
      lift_of_eq (ptpDelayResp_of_heard ⟨hmode, hactive, hused, hheard⟩ delay)
  case announce => exact fun s port attrs sender q iv _ _ _ _ => lift_eq _ s
  case silent =>
    rintro s port hmode rfl hdue
    exact lift_of_eq (ptpAnnounceTimeout_portA hmode hdue)
  case edge =>
    exact fun s falling w d hawake hen hmode hwait hheld => lift_of_eq (refEdge_of_waiting hawake hen hmode hwait hheld)
  case missed =>
    exact fun s t hlast hen hawake hperiod hdue hfew => lift_of_eq (refMissed_of_few hlast hen hawake hperiod hdue hfew)
  case ten => exact fun s ppb hawake hchange => lift_of_eq (ref10m_of_change hawake hchange)
  case timeout => exact fun s w d hwait hheld hdue => lift_of_eq (timSetTimeout_of_due hwait hheld hdue)

end Sys2Proof.Machine

/-!
Windows and strobes (R46, R47, R237, R261, R279, R483): a window that starts for a stream or a reference output, and the deadline
of a unit's job.
-/
namespace Sys2Proof.Machine

section
variable {m : M}

/-- A window of a video stream starts with a frame completed before it and none in use: the frame is its input. -/
theorem syncStart_of_fresh {k n : Nat} {x : Strm} (hx : getStrm m k = some x) (hkind : x.kind = 2 ∨ x.kind = 6)
    (hnew : x.sync.window < boundaryNo (formatWindow x.vfmt) m.dev) (hfresh : x.sync.fresh = some n) (hnone : x.sync.current = none) :
    syncStart k m =
      updStream k
        (fun y => { y with sync := { window := boundaryNo (formatWindow x.vfmt) m.dev, fresh := none, current := some n } }) m := by
  rcases hkind with hkind | hkind <;> simp [syncStart, hx, hkind, Nat.not_le.mpr hnew, hfresh, hnone]

/-- A window of REF_OUT starts on a part that drives it: a pulse of the set width. -/
theorem refoutWindow_of_open {k : Nat} (hen : bit m.refout.enable 0 = true) (hdrive : refDriving m = true)
    (hopen : winOpen (refGrid m.refout.refRate) (tget? m.ticks 6) m = some k) :
    refoutWindow 0 m =
      winMark (refGrid m.refout.refRate) k
        (emit (.net 13 0 m.refout.width [((b2n (!m.refout.polarity) : Nat) : Int)]) { m with ticks := tset m.ticks 6 k }) := by
  simp [refoutWindow, hen, hdrive, hopen]

/-- The strobe meets a mixer whose job is not done. -/
theorem mixOverrun_of_due {die w : Nat} (hw : (getMixer m die).window = some w) (hdone : (getMixer m die).done = false)
    (hlate : (getMixer m die).late = false) (hdue : (getMixer m die).deadline ≤ m.dev) :
    mixOverrun die m =
      deadlineMiss (if (getMixer m die).len = 250000 then 1 else 0) (infraOid die) w (((getMixer m die).deadline : Int) - m.dev)
        (countLate die 47 (count .mixCnt die 0 0 (setMixer die { getMixer m die with late := true } m))) := by
  simp [mixOverrun, hw, hdone, hlate, Nat.not_lt.mpr hdue]

/-- The strobe of a decode context with no job newly late changes nothing. -/
theorem decodeStrobe_of_none_late {k : Nat} {c : Ctx} (hc : getCtx m k = some c) (hnone : lateJobs c m.dev = []) :
    decodeStrobe k m = m := by
  simp [decodeStrobe, hc, hnone]

theorem cmpStrobe_of_due {k dl : Nat} {c : Comp} {f : CFrame} (hc : getComp m k = some c) (hjob : c.job = some (f, dl))
    (hdue : dl ≤ m.dev) : cmpStrobe k m = cmpAbort k m := by
  simp [cmpStrobe, hc, hjob, hdue]

/-- The strobe of an encode context ends its frame with all its rows frozen. -/
theorem encStrobe_of_due {k : Nat} {e : Enc} {j : EncJob} (he : getEnc m k = some e) (hjob : e.job = some j)
    (hdue : j.deadline ≤ m.dev) :
    encStrobe k m = noteOut (.encLate k) (encFinish k (freeRows e m) { m with drawn := m.drawn + 4096 }) := by
  simp [encStrobe, he, hjob, hdue]

end

/-- Settles O10: a window start or strobe is the meaning of its kind, in the case that the hypotheses single out. -/
theorem windowRowsComplete : Obligations.WindowRowsComplete := by
  unfold Obligations.WindowRowsComplete
  refine ⟨fun s _ _ => lift_eq _ s, fun s _ _ => lift_eq _ s, fun s _ _ => lift_eq _ s, fun s _ _ => lift_eq _ s, ?sync, ?refout,
    ?mixer, ?noneLate, fun s _ _ => lift_eq _ s, ?compositor, ?encoder⟩
  case sync =>
    exact fun s die i x n hx hkind hnew hfresh hnone => lift_of_eq (syncStart_of_fresh hx hkind hnew hfresh hnone)
  case refout => exact fun s die k hen hdrive hopen => lift_of_eq (refoutWindow_of_open hen hdrive hopen)
  case mixer => exact fun s die i w hw hdone hlate hdue => lift_of_eq (mixOverrun_of_due hw hdone hlate hdue)
  case noneLate => exact fun s die i c hc hnone => lift_of_eq (decodeStrobe_of_none_late hc hnone)
  case compositor => exact fun s die i c f dl hc hjob hdue => lift_of_eq (cmpStrobe_of_due hc hjob hdue)
  case encoder => exact fun s die i e j he hjob hdue => lift_of_eq (encStrobe_of_due he hjob hdue)

end Sys2Proof.Machine

/-!
The one-time storage and the queue (R67): what a row, an idle step and a step do to each, the enrolment of an owner key, and the
invariant that every run keeps.
-/
namespace Sys2Proof.Machine

/-! ## What one meaning does -/

section
variable {f : M → M} {opcode : Nat} {s t : State}

theorem lift_vault (h : lift f s = .next t) : t.m.vault = s.m.vault := by
  cases h
  rfl

theorem lift_pending (h : lift f s = .next t) : t.pending = s.pending := by
  cases h
  rfl

theorem liftOp_pending (h : liftOp opcode f s = .next t) : t.pending = s.pending := by
  cases h
  rfl

theorem liftMono_pending (h : liftMono f s = .next t) : t.pending = s.pending := by
  cases h
  rfl

theorem liftMono_ownerKey (h : liftMono f s = .next t) : t.m.vault.ownerKey = s.m.vault.ownerKey := by
  cases h
  rfl

/-- A descriptor changes the owner key only from none, and only under the opcode of KEY_OWNER_ENROL. -/
theorem liftOp_ownerKey (h : liftOp opcode f s = .next t) :
    t.m.vault.ownerKey = s.m.vault.ownerKey ∨ (s.m.vault.ownerKey = none ∧ opcode = 0x0701) := by
  cases h
  by_cases hop : opcode = 0x0701
  · cases hkey : s.m.vault.ownerKey with
    | none => exact .inr ⟨rfl, hop⟩
    | some k => exact .inl rfl
  · exact .inl (enrolled_of_ne hop _ _)

end

/-! ## What one row does -/

/-- The rows that may enrol an owner key: KEY_OWNER_ENROL, and a descriptor of its opcode by the I3C port or from the peer. -/
def MayEnrol (c : Instr) : Prop :=
  (∃ d, c = .keyOwnerEnrol d) ∨ (∃ d n, c = .i3cPrivateWrite d n ∧ d.opcode = 0x0701) ∨
    ∃ d, c = .peerCommandReceived d ∧ d.opcode = 0x0701

theorem exec_ownerKey {c : Instr} {s t : State} (h : exec c s = .next t) :
    t.m.vault.ownerKey = s.m.vault.ownerKey ∨ (s.m.vault.ownerKey = none ∧ MayEnrol c) := by
  cases c with
  | alwaysOnPowerUp => exact .inl (liftMono_ownerKey h)
  | keyOwnerEnrol d => exact (liftOp_ownerKey h).imp_right (And.imp_right fun _ => .inl ⟨d, rfl⟩)
  | i3cPrivateWrite d n => exact (liftOp_ownerKey h).imp_right (And.imp_right fun hop => .inr (.inl ⟨d, n, rfl, hop⟩))
  | peerCommandReceived d => exact (liftOp_ownerKey h).imp_right (And.imp_right fun hop => .inr (.inr ⟨d, rfl, hop⟩))
  | _ => exact .inl (congrArg Vault.ownerKey (lift_vault h))

theorem exec_pending {c : Instr} {s t : State} (h : exec c s = .next t) : t.pending = s.pending := by
  rcases exec_cases c s with rfl | ⟨f, hf⟩ | ⟨opcode, f, hf⟩
  · exact liftMono_pending h
  · exact lift_pending (hf.symm.trans h)
  · exact liftOp_pending (hf.symm.trans h)

/-! ## What an idle step does -/

/-- An idle step is a tick, or the execution of the descriptor that comes next. -/
theorem idle_cases (s : State) :
    (∃ f, idle s = liftMono f s) ∨
    ∃ d m1, nextDesc s.m = some (d, m1) ∧ idle s = liftOp d.opcode (runDesc specOf d) { s with m := m1 } := by
  unfold idle
  split
  next => exact .inl ⟨_, rfl⟩
  next =>
    cases hnext : nextDesc s.m with
    | none => exact .inl ⟨_, rfl⟩
    | some p => exact .inr ⟨p.1, p.2, rfl, rfl⟩

theorem idle_ownerKey {s t : State} (h : idle s = .next t) :
    t.m.vault.ownerKey = s.m.vault.ownerKey ∨
    (s.m.vault.ownerKey = none ∧ ∃ d m1, nextDesc s.m = some (d, m1) ∧ d.opcode = 0x0701) := by
  rcases idle_cases s with ⟨f, hf⟩ | ⟨d, m1, hnext, hd⟩
  · exact .inl (liftMono_ownerKey (hf.symm.trans h))
  · have hkey := liftOp_ownerKey (hd.symm.trans h)
    simp only [nextDesc_vault hnext] at hkey
    exact hkey.imp_right (And.imp_right fun hop => ⟨d, m1, hnext, hop⟩)

theorem idle_pending {s t : State} (h : idle s = .next t) : t.pending = s.pending := by
  rcases idle_cases s with ⟨f, hf⟩ | ⟨d, m1, -, hd⟩
  · exact liftMono_pending (hf.symm.trans h)
  · exact liftOp_pending (s := { s with m := m1 }) (hd.symm.trans h)

/-! ## What a step does -/

section
variable {s t : State}

theorem step_of_empty (h : s.pending = []) : step s = idle s := by
  simp only [step, h]

theorem step_of_front {c : Instr} {rest : List Instr} (h : s.pending = c :: rest) : step s = exec c { s with pending := rest } := by
  simp only [step, h]

theorem step_pending (h : step s = .next t) : t.pending = s.pending.tail := by
  cases hp : s.pending with
  | nil =>
    rw [step_of_empty hp] at h
    exact (idle_pending h).trans hp
  | cons c rest =>
    rw [step_of_front hp] at h
    exact exec_pending h

/-- A step that changes the owner key enrols the first one. -/
theorem step_ownerKey (h : step s = .next t) : t.m.vault.ownerKey = s.m.vault.ownerKey ∨ s.m.vault.ownerKey = none := by
  cases hp : s.pending with
  | nil =>
    rw [step_of_empty hp] at h
    exact (idle_ownerKey h).imp_right And.left
  | cons c rest =>
    rw [step_of_front hp] at h
    exact (exec_ownerKey h).imp_right And.left

theorem step_keeps_ownerKey {k : Digest} (h : step s = .next t) (hk : s.m.vault.ownerKey = some k) :
    t.m.vault.ownerKey = some k := by
  rcases step_ownerKey h with hsame | hnone
  · exact hsame.trans hk
  · cases hnone.symm.trans hk

end

/-! ## A KEY_OWNER_ENROL that starts (R67) -/

theorem reports_finish (d : Desc) (ptr : Bool) (r : Reply) (m : M) : Reports m (finish d ptr r m) := by
  have herase (m1 : M) : Reports m1 { m1 with deferred := m1.deferred.erase d } := rfl
  exact ((reports_jrnAppend ..).trans (herase _)).trans (reports_post ..)

/-- A command without a boundary whose effect ends it answers with that effect, its record and its completion. -/
theorem Starts.row_of_done {sp : CmdSpec} {d x : Desc} {m m1 m2 : M} {r : Reply} (hs : Starts sp d m x m1)
    (hnow : sp.when x (sp.onExec x m1) = none) (happly : sp.apply x (sp.onExec x m1) = (m2, .done r)) :
    hostRow sp d m = finish x sp.ptr r m2 := by
  rw [hs.dispatch]
  simp [dispatchCmd, hnow, applyCmd, happly, lateReply]

/-- The running image carries an owner key: a KEY_OWNER_ENROL enrols it. -/
theorem apply_keyOwnerEnrol {x : Desc} {m1 : M} {k : Digest} (hk : runOwner m1 = some k) :
    keyOwnerEnrolSpec.apply x m1 =
      (raise 0x0202 1 synOid [.u 8 (first8 k)] { m1 with vault.ownerKey := some k }, .done (reply stOK 0 0xFF)) := by
  simp only [keyOwnerEnrolSpec, hk]
  rfl

/-- A meaning under the opcode of KEY_OWNER_ENROL, on a part without an owner key, enrols the key it leaves. -/
theorem liftOp_enrols {f : M → M} {s : State} {m : M} {k : Digest} (h : f s.m = m) (hk : m.vault.ownerKey = some k)
    (hnone : s.m.vault.ownerKey = none) :
    liftOp 0x0701 f s = .next { s with m := { m with vault := { s.m.vault with ownerKey := some k } } } := by
  simp only [liftOp, h, hk, hnone]
  rfl

/-- A KEY_OWNER_ENROL that starts on a part without an owner key enrols the one the running image carries. -/
theorem exec_keyOwnerEnrol {s : State} {d x : Desc} {m1 : M} {k : Digest} (hs : Starts keyOwnerEnrolSpec d s.m x m1)
    (hk : runOwner m1 = some k) (hnone : s.m.vault.ownerKey = none) :
    exec (.keyOwnerEnrol d) s = .next { s with m :=
      { finish x false (reply stOK 0 0xFF) (raise 0x0202 1 synOid [.u 8 (first8 k)] { m1 with vault.ownerKey := some k }) with
        vault := { s.m.vault with ownerKey := some k } } } := by
  have hreports := (reports_raise 0x0202 1 synOid [.u 8 (first8 k)] { m1 with vault.ownerKey := some k }).trans
    (reports_finish x false (reply stOK 0 0xFF) _)
  exact liftOp_enrols (hs.row_of_done rfl (apply_keyOwnerEnrol hk)) (congrArg Vault.ownerKey hreports.vault_eq) hnone

/-- Settles O37: a row or an idle step that changes the owner key enrols the first one by a descriptor of KEY_OWNER_ENROL's opcode,
and a KEY_OWNER_ENROL that starts answers the state that holds it. -/
theorem ownerKeyIsPermanent : Obligations.OwnerKeyIsPermanent := by
  unfold Obligations.OwnerKeyIsPermanent
  refine ⟨?keeps, ?row, ?idle, ?enrol⟩
  case keeps => exact fun s t k h hk => step_keeps_ownerKey h hk
  case row =>
    intro s t c rest hp h hne
    rw [step_of_front hp] at h
    exact ((exec_ownerKey h).resolve_left hne).2
  case idle =>
    intro s t hp h hne
    rw [step_of_empty hp] at h
    exact ((idle_ownerKey h).resolve_left hne).2
  case enrol => exact fun s d x m1 k hs hk hnone => ⟨_, exec_keyOwnerEnrol hs hk hnone, rfl, rfl, rfl⟩

/-- Settles O39: by induction on the run, whose every step keeps an enrolled key and takes at most the front of the queue. -/
theorem runsKeepTheOwnerKey : Obligations.RunsKeepTheOwnerKey := by
  unfold Obligations.RunsKeepTheOwnerKey
  intro s t hrun
  induction hrun with
  | refl => exact ⟨fun _ hk => hk, List.suffix_rfl⟩
  | tail _ hstep ih =>
    obtain ⟨hkey, hqueue⟩ := ih
    exact ⟨fun k hk => step_keeps_ownerKey hstep (hkey k hk), step_pending hstep ▸ (List.tail_suffix _).trans hqueue⟩

end Sys2Proof.Machine

/-!
Images and structures (R67 to R79, R419, R423): one equation for each case of staging, activation, the boot record and the steps of a
re-structure; and the obligation of the structures.
-/
namespace Sys2Proof.Machine

/-! ## A command whose unit completes it later -/

theorem applyCmd_of_later {sp : CmdSpec} {d : Desc} {m m1 : M} (h : sp.apply d m = (m1, .later)) (hsame : sp.applyLate = none)
    (late : Bool) : applyCmd sp d late m = { m1 with deferred := m1.deferred ++ [d] } := by
  cases late <;> simp [applyCmd, hsame, h]

/-! ## SYN_STAGE (R73) -/

section
variable {d : Desc} {m : M} {i : Image}

theorem applyStage_of_broken {v : Viol} (h : stageViol d m = some v) :
    applyStage d m = (ruleFail 0 v m, .done (reply stInvalid (violDetail v) 0xFF)) := by
  simp only [applyStage, h]

theorem applyStage_of_verifyOnly (h : stageViol d m = none) (hsome : d.image.isSome) (honly : verifyOnly d = true) :
    applyStage d m = (m, .done (reply stOK 0 0xFF)) := by
  obtain ⟨i, hi⟩ := Option.isSome_iff_exists.mp hsome
  simp [applyStage, h, hi, honly, okReply]

theorem applyStage_to_ram (h : stageViol d m = none) (hi : d.image = some i) (hwrite : verifyOnly d = false)
    (hram : stageTarget d = 2) :
    applyStage d m = (stagedEvent 2 i { m with syn.ram := some i, syn.ramDamaged := false }, .done (reply stOK 0 0xFF)) := by
  simp [applyStage, h, hi, hwrite, hram, okReply]

/-- The write of an image to a slot begins: the slot is invalid, its status is not known, and the command waits. -/
def stageBegun (d : Desc) (t : Nat) (i : Image) (m : M) : M :=
  let m1 := setSlot? t none (bootPut (withHash t 0) m)
  { m1 with
    syn.staging := some { d := d, target := t, image := i },
    syn.slotStA := if t = 0 then (0, 0) else m1.syn.slotStA,
    syn.slotStB := if t = 1 then (0, 0) else m1.syn.slotStB }

theorem applyStage_to_slot {t : Nat} (h : stageViol d m = none) (hi : d.image = some i) (hwrite : verifyOnly d = false)
    (ht : stageTarget d = t) (hslot : t < 2) : applyStage d m = (stageBegun d t i m, .later) := by
  simp [applyStage, h, hi, hwrite, ht, hslot.ne, stageBegun]

theorem applyCmd_stage_to_slot {t : Nat} (h : stageViol d m = none) (hi : d.image = some i) (hwrite : verifyOnly d = false)
    (ht : stageTarget d = t) (hslot : t < 2) (late : Bool) :
    applyCmd synStageSpec d late m = { stageBegun d t i m with deferred := (stageBegun d t i m).deferred ++ [d] } :=
  applyCmd_of_later (applyStage_to_slot h hi hwrite ht hslot) rfl late

end

/-! ## The end of a slot's write (R73) -/

section
variable {m : M} {g : Staging}

theorem stageDone_of_sound (hg : m.syn.staging = some g) (h : stageViol g.d m = none) :
    stageDone true m =
      finish g.d true (reply stOK 0 0xFF) (stagedEvent g.target g.image
        (slotStatus g.target none (bootPut (withHash g.target (slotHash g.image.hash))
          (setSlot? g.target (some g.image) { m with syn.staging := none })))) := by
  simp [stageDone, hg, h]

theorem stageDone_of_broken {v : Viol} (hg : m.syn.staging = some g) (h : stageViol g.d m = some v) :
    stageDone true m =
      finish g.d true (reply stInvalid (violDetail v) 0xFF) (slotStatus g.target (some v)
        (ruleFail 0 v (setSlot? g.target (some g.image) { m with syn.staging := none }))) := by
  simp [stageDone, hg, h]

theorem stageDone_of_unwritten (hg : m.syn.staging = some g) :
    stageDone false m =
      finish g.d true (reply stTimeout (violDetail (headViol 0xF01)) 0xFF)
        (slotStatus g.target (some (headViol 0xF01)) (ruleFail 0 (headViol 0xF01) { m with syn.staging := none })) := by
  simp [stageDone, hg]

end

/-! ## What a source is found to be (R67 to R72, R419) -/

section
variable {m : M} {src : Nat}

theorem sourceViol_of_unread (hslot : src ≤ 1) (hread : flashReadOk m = false) : sourceViol m src = some (headViol 0xF02) := by
  simp [sourceViol, hslot, hread]

/-- A source that is read, breaks no rule, and has the hash of the record in force, if one is. -/
theorem sourceViol_of_sound (hread : flashReadOk m = true) (h : slotViol m src = none)
    (hhash : ∀ c i, bootInForce m.syn = some c → slotImage m.syn src = some i → slotHash i.hash = copyHash c.2 src) :
    sourceViol m src = none := by
  simp only [sourceViol, hread, h]
  cases hc : bootInForce m.syn with
  | none => simp
  | some c =>
    cases hi : slotImage m.syn src with
    | none => simp
    | some i => simp [hhash c i hc hi]

theorem sourceViol_of_broken {v : Viol} (hslot : src ≤ 1) (h : slotViol m src = some v) :
    sourceViol m src = some (if flashReadOk m then v else headViol 0xF02) := by
  cases hread : flashReadOk m <;> simp [sourceViol, hslot, hread, h]

/-- The staged copy is read from hub memory, and no record holds its hash. -/
theorem sourceViol_of_ram (h : slotViol m 2 = none) : sourceViol m 2 = none := by
  simp only [sourceViol, h]
  cases bootInForce m.syn <;> cases slotImage m.syn 2 <;> simp

end

/-! ## SYN_ACTIVATE, part scope (R74) -/

section
variable {d : Desc} {m : M}

/-- The restart that the command asks for is due 10 ms from now. -/
def restartWanted (d : Desc) (m : M) : M :=
  if payBit d 3 1 then { m with syn.restartAt := some (m.vault.mono + 10000000) } else m

theorem applyActivate_of_refused {v : Viol} (hpart : pay d 0 1 = 0) (h : sourceViol m (actSource d) = some v) :
    synActivateSpec.apply d m =
      (ruleFail 1 v (draw (slotStatus (actSource d) (some v) m)), .done (reply stInvalid (violDetail v) 0xFF)) := by
  have happly : synActivateSpec.apply d m = activatePart d m := if_pos hpart
  rw [happly]
  simp [activatePart, h, refuseRule]

/-- A sound source: it is preferred where the command asks for that and the record is written, and the restart follows. -/
theorem applyActivate_of_sound (hpart : pay d 0 1 = 0) (h : sourceViol m (actSource d) = none) :
    synActivateSpec.apply d m =
      let m1 := draw (slotStatus (actSource d) none m)
      if !payBit d 3 0 then (restartWanted d m1, .done (reply stOK 0 0xFF))
      else if bootWriteOk m1 then
        (restartWanted d (bootPut (fun c => { c with preferred := actSource d }) (draw m1)), .done (reply stOK 0 0xFF))
      else (draw m1, .done (reply stTimeout 0 0xFF)) := by
  have happly : synActivateSpec.apply d m = activatePart d m := if_pos hpart
  rw [happly]
  simp only [activatePart, h]
  rfl

end

/-! ## SYN_ACTIVATE, die scope (R75) -/

/-- A sound image in hub memory, on a part that does not lead a pair: step 1 of the die's re-structure begins. -/
theorem applyActivate_of_die {d : Desc} {m : M} {i r : Image} (hdie : pay d 0 1 ≠ 0) (hsrc : actSource d = 2)
    (h : slotViol m 2 = none) (hrole : m.pair.role ≠ 2) (hrun : img m = some r) (hi : m.syn.ram = some i)
    (hrules : rulesDie r i (actDie d) (audioGuards m) = none) :
    synActivateSpec.apply d m = (restStart d i r (draw m), .later) := by
  have happly : synActivateSpec.apply d m = activateDie d m := if_neg hdie
  have hviol := sourceViol_of_ram h
  have himage : slotImage m.syn 2 = some i := hi
  have hsound : dieViol m d = none := by
    simp only [dieViol, hsrc, hviol, hrun, himage, hrules]
  have hread : draw (slotStatus 2 none m) = draw m := rfl
  have hrun' : img (draw m) = some r := hrun
  rw [happly]
  simp [activateDie, hsrc, hviol, hread, hsound, hrun', himage, hrole]

/-! ## SYN_BOOT_SET (R423) -/

/-- The boot record with the limit and the watchdog time that the command gives. -/
def bootLimits (d : Desc) (m : M) : M := bootPut (fun c => { c with limit := pay d 0 1, watchdogMs := pay d 2 2 }) m

theorem applyBootSet_of_written {d : Desc} {m : M} (h : bootWriteOk m = true) :
    applyBootSet d m =
      (bootLimits d (draw m), plainDone (bootPlain (bootNow m)) (bootPlain (bootNow (bootLimits d (draw m))))) :=
  if_pos h

theorem applyBootSet_of_unwritten {d : Desc} {m : M} (h : bootWriteOk m = false) :
    applyBootSet d m =
      (draw m, .done { reply stTimeout 0 0xFF with plain := some (bootPlain (bootNow m), bootPlain (bootNow m)) }) :=
  if_neg (by simp [h])

/-! ## The steps of a re-structure (R76 to R78) -/

section
variable {m : M} {r : Restructure}

/-- The previous sections come back, from step 3 on. -/
def rolledBack (r : Restructure) (m : M) : M :=
  { m with
    syn.run := some r.prev,
    syn.rest := some { r with step := 3, t0 := m.vault.mono, rollback := true, failStep := r.step } }

theorem restFail_of_forward (hr : m.syn.rest = some r) (hfwd : r.rollback = false) (hstep : 2 ≤ r.step) :
    restFail m = rolledBack r m := by
  have hstep1 : r.step ≠ 1 := by omega
  simp [restFail, hr, hfwd, hstep1, rolledBack]

theorem restFail_of_rollback (hr : m.syn.rest = some r) (hback : r.rollback = true) : restFail m = dieLost r.die none m := by
  simp [restFail, hr, hback]

theorem exec_restructureStepDone (ok : Bool) (res : DieResult) (s : State) :
    exec (.restructureStepDone ok res) s = .next (after s (restStep ok res s.m)) := rfl

variable (res : DieResult)

theorem restStep_failed (hr : m.syn.rest = some r) : restStep false res m = restFail m := by
  simp [restStep, hr]

theorem restStep_quiesce (hr : m.syn.rest = some r) (hstep : r.step = 1) (hdue : quiesceDue r m = true) :
    restStep true res m = restQuiesce r m := by
  simp [restStep, hr, hstep, hdue]

theorem restStep_gate (hr : m.syn.rest = some r) (hstep : r.step = 2) :
    restStep true res m = { m with syn.rest := some { r with step := 3 } } := by
  simp [restStep, hr, hstep]

theorem restStep_load (hr : m.syn.rest = some r) (hstep : r.step = 3) :
    restStep true res m =
      let run := if r.rollback then r.prev else restructured r.prev r.image r.die
      { unitsForm r.die { m with syn.run := some run } with syn.rest := some { r with step := 4 } } := by
  simp [restStep, hr, hstep]

theorem restStep_train (hr : m.syn.rest = some r) (hstep : r.step = 4)
    (henough : memShort (poolSize r.die (memTrain r.die res.chans m)) r.die = false) :
    restStep true res m =
      { poolSize r.die (memTrain r.die res.chans m) with syn.rest := some { r with step := 5 } } := by
  simp [restStep, hr, hstep, henough]

theorem restStep_links (hr : m.syn.rest = some r) (hstep : r.step = 5) (hok : res.hubLinkOk = true) :
    restStep true res m = { linksTrain r.die m with syn.rest := some { r with step := 6 } } := by
  simp [restStep, hr, hstep, hok]

theorem restStep_lanes (hr : m.syn.rest = some r) (hstep : r.step = 6) (henough : lanesShort m r.die res.lanesOk = false) :
    restStep true res m = restDone r m := by
  simp [restStep, hr, hstep, henough]

theorem restTimeout_of_forward (hr : m.syn.rest = some r) (hstep : 2 ≤ r.step) (hfwd : r.rollback = false)
    (hdue : r.t2 + 300000000 ≤ m.vault.mono) : restTimeout m = rolledBack r m := by
  rw [← restFail_of_forward hr hfwd hstep]
  simp [restTimeout, hr, hstep, hfwd, hdue]

theorem restTimeout_of_rollback (hr : m.syn.rest = some r) (hstep : 2 ≤ r.step) (hback : r.rollback = true)
    (hdue : r.t0 + 300000000 ≤ m.vault.mono) : restTimeout m = dieLost r.die none m := by
  rw [← restFail_of_rollback hr hback]
  simp [restTimeout, hr, hstep, hback, hdue]

end

/-- Settles O30: a command is its spec's effect in the case that its hypotheses single out, and a row the equation of its meaning. -/
theorem structureRowsComplete : Obligations.StructureRowsComplete := by
  unfold Obligations.StructureRowsComplete
  refine ⟨?stageRam, ?stageVerify, ?stageSlot, ?stageBroken, ?doneSound, ?doneBroken, ?doneUnwritten, ?activate, ?activateBroken,
    ?activateDie, ?restart, ?bootSet, ?enrol, ?quiesce, ?gate, ?load, ?train, ?links, ?lanes, ?stepFails, ?timeout, ?timeoutBack⟩
  case stageRam =>
    intro i
    refine completesIf_of (fun _ _ => rfl) rfl ?_
    rintro d m ⟨hsound, hi, hwrite, hram⟩
    exact applyStage_to_ram hsound hi hwrite hram
  case stageVerify =>
    refine completesIf_of (fun _ _ => rfl) rfl ?_
    rintro d m ⟨hsound, hi, honly⟩
    exact applyStage_of_verifyOnly hsound hi honly
  case stageSlot =>
    intro i
    refine actsIf_of (fun _ _ => rfl) rfl ?_
    rintro d late m ⟨hsound, hi, hwrite, hslot⟩
    exact applyCmd_stage_to_slot hsound hi hwrite rfl hslot late
  case stageBroken => exact fun v => completesIf_of (fun _ _ => rfl) rfl fun _ _ h => applyStage_of_broken h
  case doneSound => exact fun s g hg h => lift_of_eq (stageDone_of_sound hg h)
  case doneBroken => exact fun s g v hg h => lift_of_eq (stageDone_of_broken hg h)
  case doneUnwritten => exact fun s g hg => lift_of_eq (stageDone_of_unwritten hg)
  case activate =>
    refine completesIf_of (fun _ _ => rfl) rfl ?_
    rintro d m ⟨hpart, hslot, hsound, hhash⟩
    cases hread : flashReadOk m with
    | false => simpa using applyActivate_of_refused hpart (sourceViol_of_unread hslot hread)
    | true =>
      rw [applyActivate_of_sound hpart (sourceViol_of_sound hread hsound hhash)]
      cases hprefer : payBit d 3 0 with
      | false => simp [restartWanted]
      | true => cases hwrite : bootWriteOk (draw (slotStatus (actSource d) none m)) <;> simp [restartWanted, hwrite]
  case activateBroken =>
    intro v
    refine completesIf_of (fun _ _ => rfl) rfl ?_
    rintro d m ⟨hpart, hslot, hbroken⟩
    exact applyActivate_of_refused hpart (sourceViol_of_broken hslot hbroken)
  case activateDie =>
    intro i r
    refine actsIf_of (fun _ _ => rfl) rfl ?_
    rintro d late m ⟨hdie, hsrc, hsound, hrole, hrun, hi, hrules⟩
    exact applyCmd_of_later (applyActivate_of_die hdie hsrc hsound hrole hrun hi hrules) rfl late
  case restart => exact fun s t h hdue => lift_of_eq (activateRestart_of_due h hdue)
  case bootSet =>
    refine completes_of (fun _ _ => rfl) rfl fun d m => ?_
    cases hok : bootWriteOk m with
    | true => exact applyBootSet_of_written hok
    | false => exact applyBootSet_of_unwritten hok
  case enrol => exact fun s d x m1 k hs hk hnone => exec_keyOwnerEnrol hs hk hnone
  case quiesce => exact fun s r res hr hstep hdue => lift_of_eq (restStep_quiesce res hr hstep hdue)
  case gate => exact fun s r res hr hstep => lift_of_eq (restStep_gate res hr hstep)
  case load =>
    intro s r res hr hstep
    rw [exec_restructureStepDone, restStep_load res hr hstep]
  case train =>
    rintro s r res m1 hr hstep rfl henough
    exact lift_of_eq (restStep_train res hr hstep henough)
  case links => exact fun s r res hr hstep hok => lift_of_eq (restStep_links res hr hstep hok)
  case lanes => exact fun s r res hr hstep henough => lift_of_eq (restStep_lanes res hr hstep henough)
  case stepFails =>
    exact fun s r res hr hfwd hstep => lift_of_eq ((restStep_failed res hr).trans (restFail_of_forward hr hfwd hstep))
  case timeout => exact fun s r hr hstep hfwd hdue => lift_of_eq (restTimeout_of_forward hr hstep hfwd hdue)
  case timeoutBack => exact fun s r hr hstep hback hdue => lift_of_eq (restTimeout_of_rollback hr hstep hback hdue)

end Sys2Proof.Machine

/-!
Compound units (R385 to R388), and the structures once more (R73 to R77, R419, R423) by what their commands and rows leave.
-/
namespace Sys2Proof.Machine

/-! ## The pairs of a list (R387, R388) -/

/-- A pair command decides about its own pair alone. -/
theorem mem_joined_iff (p q : Nat) (join : Bool) (l : List Nat) :
    q ∈ joined p join l ↔ (q = p ∧ join = true) ∨ (q ≠ p ∧ q ∈ l) := by
  cases join with
  | false => simp [joined, and_comm]
  | true =>
    by_cases hp : p ∈ l
    · by_cases hq : q = p <;> simp [joined, hp, hq]
    · by_cases hq : q = p <;> simp [joined, hp, hq]

/-! ## The end of a slot's write (R73) -/

theorem Reports.syn_eq {a b : M} (h : Reports a b) : b.syn = a.syn := by
  rw [h]

@[simp] theorem finish_syn (d : Desc) (ptr : Bool) (r : Reply) (m : M) : (finish d ptr r m).syn = m.syn :=
  (reports_finish ..).syn_eq

@[simp] theorem stagedEvent_syn (target : Nat) (i : Image) (m : M) : (stagedEvent target i m).syn = m.syn :=
  (reports_raise ..).syn_eq

@[simp] theorem ruleFail_syn (cmd : Nat) (v : Viol) (m : M) : (ruleFail cmd v m).syn = { m.syn with lastRule := v.rule } :=
  (reports_raise ..).syn_eq

@[simp] theorem slotStatus_staging (slot : Nat) (v : Option Viol) (m : M) : (slotStatus slot v m).syn.staging = m.syn.staging := by
  unfold slotStatus
  split_ifs <;> rfl

@[simp] theorem bootPut_staging (f : BootCopy → BootCopy) (m : M) : (bootPut f m).syn.staging = m.syn.staging := by
  unfold bootPut
  split <;> rfl

@[simp] theorem setSlot?_staging (slot : Nat) (i : Option Image) (m : M) : (setSlot? slot i m).syn.staging = m.syn.staging := by
  unfold setSlot?
  split_ifs <;> rfl

/-- However the write of a slot ends, nothing is staged after it. -/
theorem stageDone_staging {m : M} {g : Staging} (hg : m.syn.staging = some g) (ok : Bool) : (stageDone ok m).syn.staging = none := by
  cases ok with
  | false => simp [stageDone_of_unwritten hg]
  | true =>
    cases hv : stageViol g.d m with
    | none => simp [stageDone_of_sound hg hv]
    | some v => simp [stageDone_of_broken hg hv]

/-- Settles O28: a command is its spec's effect in the case that its hypotheses single out, a row the equation of its meaning, and a
pair command adds or removes its own pair alone. -/
theorem compoundRowsComplete : Obligations.CompoundRowsComplete := by
  unfold Obligations.CompoundRowsComplete
  refine ⟨?codPair, ?cmpPair, ?joins, ?parts, ?others, ?stage, ?writeDone, ?activate, ?bootSet, ?otherVerify, ?gate, ?links, ?timeout⟩
  case codPair => exact completes_of (fun _ _ => rfl) rfl fun _ _ => rfl
  case cmpPair => exact completes_of (fun _ _ => rfl) rfl fun _ _ => rfl
  case joins => exact fun p l => (mem_joined_iff ..).mpr (.inl ⟨rfl, rfl⟩)
  case parts =>
    intro p l
    simp [mem_joined_iff]
  case others =>
    intro p q b l hne
    simp [mem_joined_iff, hne.symm]
  case stage =>
    intro i
    refine actsIf_of (fun _ _ => rfl) rfl ?_
    rintro d late m ⟨hsound, hi, hwrite, hslotA⟩
    exact applyCmd_stage_to_slot hsound hi hwrite hslotA (by decide) late
  case writeDone => exact fun s g ok hg => ⟨_, lift_eq _ s, rfl, stageDone_staging hg ok⟩
  case activate =>
    refine completesIf_of (fun _ _ => rfl) rfl ?_
    rintro d m ⟨hpart, hslot, hkeep, hstay, hsound, hnoRecord⟩
    cases hread : flashReadOk m with
    | false => simpa using applyActivate_of_refused hpart (sourceViol_of_unread hslot hread)
    | true =>
      have hviol := sourceViol_of_sound hread hsound (by simp [hnoRecord])
      simpa [hkeep, restartWanted, hstay] using applyActivate_of_sound hpart hviol
  case bootSet =>
    refine completes_of (fun _ _ => rfl) rfl fun d m => ?_
    cases hok : bootWriteOk m with
    | true => exact applyBootSet_of_written hok
    | false => exact applyBootSet_of_unwritten hok
  case otherVerify => exact fun s n h => ⟨_, lift_of_eq (otherVerifyDone_of_some h), rfl, rfl⟩
  case gate => exact fun s r res hr hstep => ⟨_, lift_of_eq (restStep_gate res hr hstep), rfl, rfl⟩
  case links => exact fun s r res hr hstep hok => ⟨_, lift_of_eq (restStep_links res hr hstep hok), rfl, rfl⟩
  case timeout =>
    exact fun s r hr hstep hfwd hdue =>
      ⟨_, _, lift_of_eq (restTimeout_of_forward hr hstep hfwd hdue), rfl, rfl, rfl, rfl, rfl, rfl, rfl⟩

end Sys2Proof.Machine

/-!
Refused and held commands (R88, R96, R99): the row of every host command from its spec, the taking of a descriptor and a refusal as
reports, the command due first of those held, and the obligations of both.
-/
namespace Sys2Proof.Machine

/-! ## The row of a host command -/

/-- One case for each host command: its arm of the dispatch is its spec's row. -/
theorem exec_of_hostSpec {i : Instr} {d : Desc} {sp : CmdSpec} (h : hostSpec i = some (d, sp)) (s : State) :
    exec i s = lift (hostRow sp d) s := by
  unfold hostSpec at h
  split at h <;> cases h <;> rfl

/-- The row of a host command that only reports answers a state in which only reports differ. -/
theorem exec_of_reports {i : Instr} {d : Desc} {sp : CmdSpec} (h : hostSpec i = some (d, sp)) {s : State}
    (hr : Reports s.m (hostRow sp d s.m)) : ∃ t, exec i s = .next t ∧ t.pending = s.pending ∧ Reports s.m t.m := by
  have hafter : (after s (hostRow sp d s.m)).m = hostRow sp d s.m := by
    rw [after, ← hr.vault_eq]
  exact ⟨_, exec_of_hostSpec h s, rfl, hafter ▸ hr⟩

/-! ## A descriptor is taken (R88) -/

theorem reports_queuePop (f r : Nat) (m : M) : Reports m (queuePop f r m) :=
  .ite _ (reports_setFn ..) (reports_setFn ..)

/-- A descriptor that enters a queue of its function and is taken from its head. -/
theorem reports_popped {f r : Nat} {fn : Fn} {x : Desc} {m m1 : M}
    (h : ((queueHead (setFn f fn m) f r).map fun x => (x, queuePop f r (setFn f fn m))) = some (x, m1)) : Reports m m1 := by
  obtain ⟨y, -, hy⟩ := Option.map_eq_some_iff.mp h
  cases hy
  exact (reports_setFn ..).trans (reports_queuePop ..)

/-- Taking a descriptor touches its queue alone, or the I3C port. -/
theorem reports_taken {d x : Desc} {m m1 : M} (h : taken d m = some (x, m1)) : Reports m m1 := by
  unfold taken at h
  split at h
  · cases h
  · split at h
    next =>
      cases h
      exact .refl m
    next =>
      split at h <;> cases h
      rfl
    next =>
      simp only at h
      split_ifs at h
      · exact reports_popped h
      · split at h
        · cases h
        · split_ifs at h
          exact reports_popped h

/-! ## A refusal (R96, R109) -/

theorem reports_denyEvent (d : Desc) (m : M) : Reports m (denyEvent d m) :=
  reports_limited _ _ _ (fun _ => reports_raise ..) m

theorem reports_rejectCmd (sp : CmdSpec) (d : Desc) (f : Nat × Nat) (m : M) : Reports m (rejectCmd sp d f m) :=
  .ite _ ((reports_finish ..).trans (reports_denyEvent ..)) (reports_finish ..)

/-- Settles O44: the descriptor's taking and the refusal only report, and so does the row that is made of them. -/
theorem refusedCommandsHaveNoEffect : Obligations.RefusedCommandsHaveNoEffect := by
  unfold Obligations.RefusedCommandsHaveNoEffect
  have hrow {sp : CmdSpec} {d x : Desc} {m m1 : M} (f : Nat × Nat) (ht : taken { d with opcode := sp.opcode } m = some (x, m1))
      (hrun : runSpec sp x m1 = rejectCmd sp x f m1) : Reports m (hostRow sp d m) := by
    rw [hostRow, submit_eq _ _ _ ht, hrun]
    exact (reports_taken ht).trans (reports_rejectCmd ..)
  refine ⟨?early, ?late⟩
  case early => exact fun i d sp hi s x m1 f ht hf => exec_of_reports hi (hrow f ht (runSpec_early hf))
  case late =>
    intro i d sp hi s x m1 f ht hpass hstill hf
    have hrun := runSpec_late hpass (hstill.symm ▸ hf)
    rw [hstill] at hrun
    exact exec_of_reports hi (hrow f ht hrun)

/-! ## Commands are held (R99) -/

section
variable {sp : CmdSpec} {d : Desc} {m : M} {b : Boundary}

theorem dispatchCmd_of_full (hw : sp.when d m = some b) (hfull : 4096 ≤ m.pend.length) :
    dispatchCmd sp d m = rejectCmd sp d (stBusy, 0) m := by
  simp [dispatchCmd, hw, heldMax, hfull]

theorem dispatchCmd_of_room (hw : sp.when d m = some b) (hroom : m.pend.length < 4096) :
    dispatchCmd sp d m = holdCmd sp d b m := by
  simp [dispatchCmd, hw, heldMax, Nat.not_le.mpr hroom]

theorem length_pend_holdCmd (sp : CmdSpec) (d : Desc) (b : Boundary) (m : M) :
    (holdCmd sp d b m).pend.length = m.pend.length + 1 := by
  simp only [holdCmd]
  split_ifs <;> simp [count]

theorem jrn_holdCmd (sp : CmdSpec) (d : Desc) (b : Boundary) (m : M) : (holdCmd sp d b m).jrn = m.jrn := by
  simp only [holdCmd]
  split_ifs <;> rfl

end

/-! ## The command due first (R99) -/

/-- A held command may apply at a device time: it does not wait for an edge, and its time has come. -/
def IsDue (now : Nat) (p : Pend) : Prop := p.waits = false ∧ p.due ≤ now

/-- Of the held commands `p` is due, earlier than every due one before it and no later than every one after it. -/
def DueFirst (now : Nat) (ps : List Pend) (p : Pend) : Prop :=
  IsDue now p ∧ ∃ a b, ps = a ++ p :: b ∧ (∀ q ∈ a, IsDue now q → p.due < q.due) ∧ ∀ q ∈ b, IsDue now q → p.due ≤ q.due

section
variable {now : Nat} {ps : List Pend} {p q : Pend}

theorem isDue_iff : IsDue now q ↔ ¬ (q.waits || decide (now < q.due)) = true := by
  simp [IsDue]

theorem dueFirst_concat_of_not (h : ¬ IsDue now q) : dueFirst now (ps ++ [q]) = dueFirst now ps := by
  rw [isDue_iff, not_not] at h
  unfold dueFirst
  rw [List.foldl_append]
  exact if_pos h

theorem dueFirst_concat_of_none (h : IsDue now q) (hnone : dueFirst now ps = none) : dueFirst now (ps ++ [q]) = some q := by
  rw [isDue_iff] at h
  unfold dueFirst at *
  rw [List.foldl_append, hnone]
  exact if_neg h

theorem dueFirst_concat_of_some (h : IsDue now q) (hsome : dueFirst now ps = some p) :
    dueFirst now (ps ++ [q]) = if q.due < p.due then some q else some p := by
  rw [isDue_iff] at h
  unfold dueFirst at *
  rw [List.foldl_append, hsome]
  exact if_neg h

theorem DueFirst.le (h : DueFirst now ps p) (hq : q ∈ ps) (hd : IsDue now q) : p.due ≤ q.due := by
  obtain ⟨-, a, b, rfl, ha, hb⟩ := h
  rcases List.mem_append.mp hq with hq | hq
  · exact (ha q hq hd).le
  · rcases List.mem_cons.mp hq with rfl | hq
    · exact le_rfl
    · exact hb q hq hd

/-- A command that joins the list behind the first due one leaves it first, unless it is due earlier. -/
theorem DueFirst.concat (h : DueFirst now ps p) (hq : IsDue now q → p.due ≤ q.due) : DueFirst now (ps ++ [q]) p := by
  obtain ⟨hp, a, b, rfl, ha, hb⟩ := h
  exact ⟨hp, a, b ++ [q], by simp, ha, List.forall_mem_append.mpr ⟨hb, by simpa using hq⟩⟩

theorem not_isDue_of_dueFirst (h : dueFirst now ps = none) : ∀ q ∈ ps, ¬ IsDue now q := by
  induction ps using List.reverseRecOn with
  | nil => simp
  | append_singleton l q ih =>
    by_cases hq : IsDue now q
    · cases hl : dueFirst now l with
      | none => simp [dueFirst_concat_of_none hq hl] at h
      | some p =>
        rw [dueFirst_concat_of_some hq hl] at h
        split_ifs at h
    · rw [dueFirst_concat_of_not hq] at h
      exact List.forall_mem_append.mpr ⟨ih h, by simpa using hq⟩

theorem dueFirst_spec (h : dueFirst now ps = some p) : DueFirst now ps p := by
  induction ps using List.reverseRecOn generalizing p with
  | nil => cases h
  | append_singleton l q ih =>
    by_cases hq : IsDue now q
    · cases hl : dueFirst now l with
      | none =>
        rw [dueFirst_concat_of_none hq hl] at h
        cases h
        exact ⟨hq, l, [], rfl, fun x hx hd => absurd hd (not_isDue_of_dueFirst hl x hx), by simp⟩
      | some c =>
        rw [dueFirst_concat_of_some hq hl] at h
        split_ifs at h with hlt <;> cases h
        · exact ⟨hq, l, [], rfl, fun x hx hd => hlt.trans_le ((ih hl).le hx hd), by simp⟩
        · exact (ih hl).concat fun _ => not_lt.mp hlt
    · rw [dueFirst_concat_of_not hq] at h
      exact (ih h).concat fun hd => absurd hd hq

end

theorem applyPend_of_lateFail {sp : CmdSpec} {p : Pend} {m : M} {f : Nat × Nat} (h : lateFail sp p.d (dropPend p.order m) = some f) :
    applyPend sp p m = rejectCmd sp p.d f (dropPend p.order m) := by
  simp [applyPend, h]

/-- Settles O46: a command with a boundary is refused or held by the list's length, the first due one is the fold's by induction on
the list from its end, and a refusal at the boundary is a report. -/
theorem heldCommandsApplyInOrder : Obligations.HeldCommandsApplyInOrder := by
  unfold Obligations.HeldCommandsApplyInOrder
  refine ⟨?full, ?room, ?first, ?noneDue, ?refused⟩
  case full => exact fun sp d m b hw hfull => dispatchCmd_of_full hw hfull
  case room =>
    intro sp d m b hw hroom
    rw [dispatchCmd_of_room hw hroom]
    exact ⟨length_pend_holdCmd .., jrn_holdCmd ..⟩
  case first =>
    intro now ps p h
    obtain ⟨⟨hwaits, hdue⟩, a, b, hsplit, ha, hb⟩ := dueFirst_spec h
    exact ⟨hwaits, hdue, a, b, hsplit, fun q hq hw hd => ha q hq ⟨hw, hd⟩, fun q hq hw hd => hb q hq ⟨hw, hd⟩⟩
  case noneDue =>
    intro now ps h q hq
    have hnot := not_isDue_of_dueFirst h q hq
    rw [isDue_iff, not_not] at hnot
    simpa using hnot
  case refused =>
    intro sp p m f hf
    rw [applyPend_of_lateFail hf]
    exact reports_rejectCmd ..

end Sys2Proof.Machine

/-!
The event queues of R101: the record a full queue loses and the record a pop takes, each the oldest of its level; and the two
obligations of the event queues.
-/
namespace Sys2Proof.Machine

/-! ## The oldest record of a level -/

theorem dropOldest_split {l : Nat} {recs : List EvRec} (h : ∃ e ∈ recs, e.level = l) :
    ∃ a e b, recs = a ++ e :: b ∧ e.level = l ∧ (∀ x ∈ a, x.level ≠ l) ∧ dropOldest l recs = a ++ b := by
  induction recs with
  | nil => simp at h
  | cons e r ih =>
    by_cases he : e.level = l
    · exact ⟨[], e, r, rfl, he, by simp, by simp [dropOldest, he]⟩
    · obtain ⟨a, x, b, rfl, hx, ha, hd⟩ := ih (by simpa [he] using h)
      exact ⟨e :: a, x, b, rfl, hx, by simpa [he] using ha, by simp [dropOldest, he, hd]⟩

theorem length_dropOldest {l : Nat} {recs : List EvRec} (h : ∃ e ∈ recs, e.level = l) :
    (dropOldest l recs).length + 1 = recs.length := by
  obtain ⟨a, e, b, rfl, -, -, hd⟩ := dropOldest_split h
  simp [hd, Nat.add_assoc]

/-! ## The lowest priority among the records and the arriving one -/

theorem worstLevel_cons (e : EvRec) (recs : List EvRec) (r : EvRec) :
    worstLevel (e :: recs) r = worstLevel recs (if r.level < e.level then e else r) := by
  unfold worstLevel
  rw [List.foldl_cons, apply_ite EvRec.level]

theorem le_worstLevel (recs : List EvRec) (r : EvRec) : ∀ e ∈ r :: recs, e.level ≤ worstLevel recs r := by
  induction recs generalizing r with
  | nil => simp [worstLevel]
  | cons x recs ih =>
    rw [worstLevel_cons]
    split_ifs with hlt
    · obtain ⟨hx, hrest⟩ := List.forall_mem_cons.mp (ih x)
      simpa using ⟨hlt.le.trans hx, hx, hrest⟩
    · obtain ⟨hr, hrest⟩ := List.forall_mem_cons.mp (ih r)
      simpa using ⟨hr, (not_lt.mp hlt).trans hr, hrest⟩

theorem worstLevel_attained (recs : List EvRec) (r : EvRec) :
    r.level = worstLevel recs r ∨ ∃ e ∈ recs, e.level = worstLevel recs r := by
  induction recs generalizing r with
  | nil => exact .inl rfl
  | cons x recs ih =>
    rw [worstLevel_cons]
    split_ifs
    · exact .inr ((ih x).elim (fun h => ⟨x, by simp, h⟩) fun ⟨e, he, h⟩ => ⟨e, by simp [he], h⟩)
    · exact (ih r).imp_right fun ⟨e, he, h⟩ => ⟨e, by simp [he], h⟩

/-! ## Insertion -/

section
variable {recs : List EvRec} {r : EvRec}

theorem evqInsert_of_room (h : recs.length < 512) : evqInsert recs r = { recs := recs ++ [r], lost := none, held := true } :=
  if_pos h

/-- A full queue with a record of the lowest level loses the oldest of them to the arriving one. -/
theorem evqInsert_of_full (hfull : 512 ≤ recs.length) (h : ∃ e ∈ recs, e.level = worstLevel recs r) :
    evqInsert recs r =
      { recs := dropOldest (worstLevel recs r) recs ++ [r], lost := some (worstLevel recs r), held := true } := by
  simp [evqInsert, Nat.not_lt.mpr hfull, h]

/-- An arriving record that alone has the lowest level is lost itself. -/
theorem evqInsert_of_lowest (hfull : 512 ≤ recs.length) (h : ∀ e ∈ recs, e.level ≠ worstLevel recs r) :
    evqInsert recs r = { recs := recs, lost := some (worstLevel recs r), held := false } := by
  simpa [evqInsert, Nat.not_lt.mpr hfull] using h

theorem evqInsert_lost (hfull : 512 ≤ recs.length) : (evqInsert recs r).lost = some (worstLevel recs r) := by
  by_cases h : ∃ e ∈ recs, e.level = worstLevel recs r
  · rw [evqInsert_of_full hfull h]
  · rw [evqInsert_of_lowest hfull (by simpa using h)]

theorem length_evqInsert_le (hle : recs.length ≤ 512) : (evqInsert recs r).recs.length ≤ 512 := by
  by_cases hroom : recs.length < 512
  · simp [evqInsert_of_room hroom]
    omega
  · have hfull := Nat.not_lt.mp hroom
    by_cases h : ∃ e ∈ recs, e.level = worstLevel recs r
    · have hlen := length_dropOldest h
      simp [evqInsert_of_full hfull h]
      omega
    · rw [evqInsert_of_lowest hfull (by simpa using h)]
      exact hle

end

/-- Settles O53: below 512 records there is room; at 512 the lost level is the lowest present, and its oldest record goes unless the
arriving one alone has it. -/
theorem eventQueueInsertion : Obligations.EventQueueInsertion := by
  unfold Obligations.EventQueueInsertion
  refine ⟨fun recs r h => evqInsert_of_room h, fun recs r h => length_evqInsert_le h, fun recs r hfull => ?full⟩
  refine ⟨worstLevel recs r, evqInsert_lost hfull, le_worstLevel recs r, fun h => ?held, fun h => ?refused⟩
  case held =>
    obtain ⟨a, e, b, hsplit, he, ha, hdrop⟩ := dropOldest_split h
    rw [evqInsert_of_full hfull h, hdrop]
    exact ⟨a, e, b, hsplit, he, ha, rfl, rfl⟩
  case refused =>
    have hown := (worstLevel_attained recs r).resolve_right fun ⟨e, he, hw⟩ => h e he hw
    rw [evqInsert_of_lowest hfull h]
    exact ⟨hown, rfl, rfl⟩

/-! ## The record a pop takes -/

section
variable {recs : List EvRec} {b : EvRec}

theorem evqBest_concat_of_none (h : evqBest recs = none) (e : EvRec) : evqBest (recs ++ [e]) = some e := by
  unfold evqBest at *
  rw [List.foldl_append, h]
  rfl

theorem evqBest_concat_of_some (h : evqBest recs = some b) (e : EvRec) :
    evqBest (recs ++ [e]) = if e.level < b.level then some e else some b := by
  unfold evqBest at *
  rw [List.foldl_append, h]
  rfl

theorem eq_nil_of_evqBest (h : evqBest recs = none) : recs = [] := by
  induction recs using List.reverseRecOn with
  | nil => rfl
  | append_singleton l e _ =>
    cases hl : evqBest l with
    | none => simp [evqBest_concat_of_none hl] at h
    | some c =>
      rw [evqBest_concat_of_some hl] at h
      split_ifs at h

/-- A pop takes a record that is held, of the least level held. -/
theorem evqBest_least (h : evqBest recs = some b) : b ∈ recs ∧ ∀ e ∈ recs, b.level ≤ e.level := by
  induction recs using List.reverseRecOn generalizing b with
  | nil => cases h
  | append_singleton l e ih =>
    cases hl : evqBest l with
    | none =>
      rw [evqBest_concat_of_none hl] at h
      cases h
      simp [eq_nil_of_evqBest hl]
    | some c =>
      obtain ⟨hmem, hleast⟩ := ih hl
      rw [evqBest_concat_of_some hl] at h
      split_ifs at h with hlt <;> cases h
      · exact ⟨by simp, List.forall_mem_append.mpr ⟨fun x hx => hlt.le.trans (hleast x hx), by simp⟩⟩
      · exact ⟨by simp [hmem], List.forall_mem_append.mpr ⟨hleast, by simpa using hlt⟩⟩

theorem length_evqPopRecs (h : evqBest recs = some b) : (evqPopRecs recs).length + 1 = recs.length := by
  simp only [evqPopRecs, h]
  exact length_dropOldest ⟨b, (evqBest_least h).1, rfl⟩

end

/-! ## The ports of an event queue -/

section
variable {m : M} {f q : Nat}

theorem evqPop_of_best {r : EvRec} (hport : evqPort m f q = true) (h : evqBest (getEvq m f q).recs = some r) :
    evqPop f q m = setEvq f q { getEvq m f q with recs := evqPopRecs (getEvq m f q).recs, head := r } m := by
  simp [evqPop, hport, h]

theorem evqPop_of_empty (hport : evqPort m f q = true) (h : (getEvq m f q).recs = []) :
    evqPop f q m = setEvq f q { getEvq m f q with underrun := true } m := by
  have hnone : evqBest (getEvq m f q).recs = none := by
    rw [h]
    rfl
  simp [evqPop, hport, hnone]

theorem evqClear_of_set {v : Nat} (hport : evqPort m f q = true) (h : bit v 30 = true) :
    evqClear f q v m = setEvq f q { getEvq m f q with underrun := false } m := by
  simp [evqClear, hport, h]

end

/-- Settles O3: a pop of a queue with records, a pop of an empty one and a clear are one equation each, and the record taken is the
least by the fold that finds it. -/
theorem eventQueuePortsComplete : Obligations.EventQueuePortsComplete := by
  unfold Obligations.EventQueuePortsComplete
  refine ⟨?pop, ?empty, ?clear, ?best⟩
  case pop => exact fun s f q r hport h => lift_of_eq (evqPop_of_best hport h)
  case empty => exact fun s f q hport h => lift_of_eq (evqPop_of_empty hport h)
  case clear => exact fun s f q v hport h => lift_of_eq (evqClear_of_set hport h)
  case best =>
    intro recs r h
    obtain ⟨hmem, hleast⟩ := evqBest_least h
    exact ⟨hmem, hleast, length_evqPopRecs h⟩

end Sys2Proof.Machine

/-!
The host link (R81 to R90, R103): the host-queue commands by their specs, and the direct port, the doorbells, the coalescing timer
and the MSI-X table, one equation for each case of the meanings of their rows.
-/
namespace Sys2Proof.Machine

/-! ## A function's registers after a write -/

@[simp] theorem getFn_setFn_same (f : Nat) (x : Fn) (m : M) : getFn (setFn f x m) f = x :=
  tget_tset_same ..

theorem getFn_setFn_other {f g : Nat} (x : Fn) (m : M) (h : g ≠ f) : getFn (setFn f x m) g = getFn m g :=
  tget_tset_other _ _ _ h

/-! ## Rings (R103) -/

section
variable {d : Desc} {m : M}

theorem createRing_sub (h : qKind d = 0) : tget? (getFn (createRing d m) (qFn d m)).sub (qNo d) =
    some { fault := false, base := pay d 0 8, depth := pay d 8 4, cq := pay d 20 2, weight := pay d 28 1, fetched := 0, waiting := [] } := by
  simp [createRing, h]

theorem createRing_cmp (h : qKind d ≠ 0) : tget? (getFn (createRing d m) (qFn d m)).cmp (qNo d) =
    some { base := pay d 0 8, depth := pay d 8 4, writeBack := pay d 12 8, vector := pay d 22 2, coalCount := pay d 24 2,
           coalUs := pay d 26 2, written := 0, returned := 0, unsignalled := 0, firstAt := 0, backlog := [] } := by
  simp [createRing, h]

theorem deleteRing_sub (h : qKind d = 0) : tget? (getFn (deleteRing d m) (qFn d m)).sub (qNo d) = none := by
  simp [deleteRing, h]

theorem deleteRing_cmp (h : qKind d ≠ 0) : tget? (getFn (deleteRing d m) (qFn d m)).cmp (qNo d) = none := by
  simp [deleteRing, h]

end

/-- Settles O1: a command is its spec's effect, and a ring reads back as the command that made or removed it left it. -/
theorem hostQueueCommandsComplete : Obligations.HostQueueCommandsComplete := by
  unfold Obligations.HostQueueCommandsComplete
  refine ⟨?create, ?subMade, ?cmpMade, ?delete, ?subGone, ?cmpGone, ?config, ?nop⟩
  case create => exact completes_of (fun _ _ => rfl) rfl fun _ _ => rfl
  case subMade => exact fun d m h => createRing_sub h
  case cmpMade => exact fun d m h => createRing_cmp h
  case delete => exact completes_of (fun _ _ => rfl) rfl fun _ _ => rfl
  case subGone => exact fun d m h => deleteRing_sub h
  case cmpGone => exact fun d m h => deleteRing_cmp h
  case config => exact completes_of (fun _ _ => rfl) rfl fun _ _ => rfl
  case nop => exact completes_of (fun _ _ => rfl) rfl fun _ _ => rfl

/-! ## The direct port (R85) -/

section
variable {m : M} {f : Nat}

section
variable (hbar : barOpen m = true) (hf : fnExists m f = true)
include hbar hf

theorem directWrite_of_room (hroom : (getFn m f).directOut < 16) (d : Desc) :
    directWrite f d m =
      setFn f { getFn m f with directOut := (getFn m f).directOut + 1, directWait := (getFn m f).directWait ++ [d] } m := by
  simp [directWrite, hbar, hf, Nat.not_le.mpr hroom]

theorem directWrite_of_full (hfull : 16 ≤ (getFn m f).directOut) (d : Desc) : directWrite f d m = count .fnDirectDrop f 0 0 m := by
  simp [directWrite, hbar, hf, hfull]

theorem directPop_of_cons {c : Completion} {r : List Completion} (h : (getFn m f).directFifo = c :: r) :
    directPop f m =
      setFn f { getFn m f with directFifo := r, directOut := (getFn m f).directOut - 1,
                               directHead := r.headD (getFn m f).directHead } m := by
  simp [directPop, hbar, hf, h]

/-! ## Doorbells (R86) -/

/-- A doorbell that brings as many descriptors as its count says, no more than the ring holds. -/
theorem doorbell_of_new {r cnt : Nat} {ds : List Desc} {x : SubRing} (hx : tget? (getFn m f).sub r = some x) (hok : x.fault = false)
    (hlen : ds.length = (cnt + 2 ^ 32 - x.fetched) % 2 ^ 32) (hdepth : ds.length ≤ x.depth) :
    doorbell f r cnt ds m =
      setFn f { getFn m f with
        sub := tset (getFn m f).sub r { x with fetched := (x.fetched + ds.length) % 2 ^ 32, waiting := x.waiting ++ ds } } m := by
  simp only [doorbell, hbar, hf, hx, hok, ← hlen, List.take_length]
  simp [Nat.not_lt.mpr hdepth]

theorem doorbell_of_noRing {r : Nat} (h : tget? (getFn m f).sub r = none) (cnt : Nat) (ds : List Desc) :
    doorbell f r cnt ds m = count .fnBadDoorbell f 0 0 m := by
  simp [doorbell, hbar, hf, h]

/-- Slots that held completions come back, and completions that waited take them. -/
theorem headDoorbell_of_returned {q cnt : Nat} {x : CmpRing} (hx : tget? (getFn m f).cmp q = some x)
    (hle : (cnt + 2 ^ 32 - x.returned % 2 ^ 32) % 2 ^ 32 ≤ x.written - x.returned) :
    headDoorbell f q cnt m =
      cqDrain f q x.backlog.length (setFn f { getFn m f with
        cmp := tset (getFn m f).cmp q { x with returned := x.returned + (cnt + 2 ^ 32 - x.returned % 2 ^ 32) % 2 ^ 32 } } m) := by
  simp only [headDoorbell, hbar, hf, hx, Nat.not_lt.mpr hle]
  rfl

end

/-! ## A failed fetch, the coalescing timer, the MSI-X table (R87, R90) -/

theorem fetchFault_of_running {r : Nat} {x : SubRing} (hbar : barOpen m = true) (hx : tget? (getFn m f).sub r = some x)
    (hok : x.fault = false) :
    fetchFault f r m =
      announce 8 0x0601 1 (ringOid f 0 r) [.u 1 f, .u 2 r, .u 1 1] 0
        (count .fnFetchFault f 0 0 (setFn f { getFn m f with sub := tset (getFn m f).sub r { x with fault := true } } m)) := by
  simp [fetchFault, hbar, hx, hok]

theorem coalesce_of_due {q : Nat} {x : CmpRing} (hx : tget? (getFn m f).cmp q = some x) (hsome : x.unsignalled ≠ 0)
    (hawake : m.pwr.state < 3) (hdue : x.firstAt + x.coalUs * 1000 ≤ m.vault.mono) :
    coalesce f q m =
      msixRaise f x.vector (setFn f { getFn m f with cmp := tset (getFn m f).cmp q { x with unsignalled := 0 } } m) := by
  simp [coalesce, hx, hsome, Nat.not_le.mpr hawake, Nat.not_lt.mpr hdue]

theorem unmask_of_pending {v : Nat} (hf : fnExists m f = true) (hv : v < vectorsOf f)
    (hpending : tget m.host.msix (msixKey f v) (true, false) = (true, true)) :
    unmask f v m = emit (.msix f v) { m with host.msix := tset m.host.msix (msixKey f v) (false, false) } := by
  simp [unmask, hf, Nat.not_le.mpr hv, hpending]

end

/-- Settles O2: each clause is the equation of its row's meaning in the case that its hypotheses single out. -/
theorem hostPortsComplete : Obligations.HostPortsComplete := by
  unfold Obligations.HostPortsComplete
  refine ⟨?write, ?drop, ?pop, ?newDescs, ?noRing, ?returned, ?fault, ?coalesce, ?unmask⟩
  case write => exact fun s f d hbar hf hroom => lift_of_eq (directWrite_of_room hbar hf hroom d)
  case drop => exact fun s f d hbar hf hfull => lift_of_eq (directWrite_of_full hbar hf hfull d)
  case pop => exact fun s f c r hbar hf h => lift_of_eq (directPop_of_cons hbar hf h)
  case newDescs =>
    exact fun s f r cnt ds x hbar hf hx hok hlen hdepth => lift_of_eq (doorbell_of_new hbar hf hx hok hlen hdepth)
  case noRing => exact fun s f r cnt ds hbar hf h => lift_of_eq (doorbell_of_noRing hbar hf h cnt ds)
  case returned => exact fun s f q cnt x hbar hf hx hle => lift_of_eq (headDoorbell_of_returned hbar hf hx hle)
  case fault => exact fun s f r x hbar hx hok => lift_of_eq (fetchFault_of_running hbar hx hok)
  case coalesce => exact fun s f q x hx hsome hawake hdue => lift_of_eq (coalesce_of_due hx hsome hawake hdue)
  case unmask => exact fun s f v hf hv hpending => lift_of_eq (unmask_of_pending hf hv hpending)

end Sys2Proof.Machine

/-!
Accesses to the BARs (R83, R426 to R428, R463 to R473): one equation for each case of the meanings of the reads, the writes and the
registers of Stem mode, and their obligation.
-/
namespace Sys2Proof.Machine

section
variable {m : M}

/-! ## Interrupt masks (R472, R473) -/

/-- The writer of a function's mask sets it, and each queue it uncovers signals. -/
theorem writeIntMask_of_writer {fn f : Nat} (hbar : barOpen m = true) (hlt : f < 64) (hfn : fn = maskWriter f) (v : Nat) :
    writeIntMask fn f v m =
      (List.range (imgGrant (img m) f).evq).foldl
        (fun x q => maskCleared f q (tget m.host.evqMask f 0) (v % 2 ^ (imgGrant (img m) f).evq) x)
        { m with host.evqMask := tset m.host.evqMask f (v % 2 ^ (imgGrant (img m) f).evq) } := by
  have hle : ¬ 63 < f := by omega
  simp [writeIntMask, hbar, hle, hfn]

theorem writeIntMask_of_other {fn f : Nat} (hbar : barOpen m = true) (h : 63 < f ∨ fn ≠ maskWriter f) (v : Nat) :
    writeIntMask fn f v m = noteAccess .ignoredWrites fn 0 (0xB00000 + 8 * f) m := by
  simp [writeIntMask, hbar, h.symm]

/-! ## Reads with an effect (R463, R466, R471) -/

theorem nowNsRead_of_up (hawake : m.pwr.state < 3) (hphase : m.start.phase ≠ .starting) :
    nowNsRead m =
      emit (.read [m.dev % 1000000000])
        { m with tim.latchSec := m.dev / 1000000000 % 2 ^ 48, tim.latchMono := m.vault.mono % 2 ^ 64 } := by
  simp [nowNsRead, nsPerS, Nat.not_le.mpr hawake, hphase]

theorem wideRead_of_lit {r : WideReg} (hlit : wideDark m r = false) (hr : r ≠ .globalStatus) (fn : Nat) :
    wideRead fn r m =
      emit (.read [wideValue m r % 2 ^ 32])
        (setFn fn { getFn m fn with latch := some (r, wideValue m r / 2 ^ 32 % 2 ^ 32) } m) := by
  simp [wideRead, hlit, wideCleared, hr]

theorem rcRead_of_lit {id : CntId} (hawake : m.pwr.state < 3) (hphase : m.start.phase ≠ .starting) (hlit : windowDark m id = false) :
    rcRead id m = emit (.read [cntGet m id]) { m with cnt := cntPut m.cnt id 0 } := by
  simp [rcRead, Nat.not_le.mpr hawake, hphase, hlit, cntClear]

theorem cntFind_cntPut_same (c : List (CntId × Nat)) (id : CntId) (n : Nat) : cntFind (cntPut c id n) id = n := by
  induction c with
  | nil => simp [cntPut, cntFind]
  | cons p r ih => by_cases h : p.1 = id <;> simp [cntPut, cntFind, h, ih]

/-! ## Ignored and bad accesses (R464, R470) -/

/-- An access through BAR0 of a PF is counted, and its place is kept. -/
theorem noteAccess_bar0 {fn : Nat} (hfn : fn ≤ 2) (r : CntReg) (off : Nat) (m : M) :
    noteAccess r fn 0 off m = { count r 0 0 0 m with host.lastFn := fn, host.lastBar := 0, host.lastOffset := off } := by
  simp [noteAccess, Nat.not_lt.mpr hfn]

section
variable (hawake : m.pwr.state < 3)
include hawake

theorem badAccess_bar0 {fn : Nat} (hfn : fn ≤ 2) (hphase : m.start.phase ≠ .starting) (off : Nat) (write : Bool) :
    badAccess fn 0 off write m =
      { count .badAccess 0 0 0 (if write then m else emit (.read [0]) m) with
        host.lastFn := fn, host.lastBar := 0, host.lastOffset := off } := by
  cases write <;> simp [badAccess, Nat.not_le.mpr hawake, hphase, noteAccess_bar0 hfn]

theorem badAccess_bar4_write (hphase : m.start.phase ≠ .starting) (off : Nat) :
    badAccess 0 4 off true m =
      { count .badAccess 0 0 0 m with host.lastFn := 0, host.lastBar := 1, host.lastOffset := off } := by
  simp [badAccess, Nat.not_le.mpr hawake, hphase, noteAccess]

variable (hready : m.start.phase = .ready)
include hready

theorem badAccess_bar2_write (fn off : Nat) : badAccess fn 2 off true m = count .fnBadWrite fn 0 0 m := by
  simp [badAccess, Nat.not_le.mpr hawake, hready]

/-- BAR0 holds no register that a plain write reaches but the interrupt masks and the scratch words. -/
theorem otherWrite_bar0 {fn off : Nat} (hfn : fn ≤ 2) (hoff : off < 0xB00000 ∨ (0xB00200 ≤ off ∧ off < 0xB01000) ∨ 0xB01010 ≤ off)
    (v : Nat) :
    otherWrite fn 0 off v m =
      { count .ignoredWrites 0 0 0 m with host.lastFn := fn, host.lastBar := 0, host.lastOffset := off } := by
  have hmask : ¬ (0xB00000 ≤ off ∧ off < 0xB00200) := by omega
  have hscratch : ¬ (0xB01000 ≤ off ∧ off < 0xB01010) := by omega
  simp [otherWrite, Nat.not_le.mpr hawake, hready, hmask, hscratch, noteAccess_bar0 hfn]

/-- BAR2 holds no register that a plain write reaches but the MSI-X table. -/
theorem otherWrite_bar2 {off : Nat} (hoff : off < 0x8000 ∨ 0xC000 ≤ off) (fn v : Nat) :
    otherWrite fn 2 off v m = count .fnBadWrite fn 0 0 m := by
  have htable : ¬ (0x8000 ≤ off ∧ off < 0xC000) := by omega
  simp [otherWrite, Nat.not_le.mpr hawake, hready, htable]

theorem otherWrite_scratch {off : Nat} (hlo : 0xB01000 ≤ off) (hhi : off < 0xB01010) (hword : off % 4 = 0) (v : Nat) :
    otherWrite 2 0 off v m = { m with host.scratch := listSet m.host.scratch ((off - 0xB01000) / 4) (v % 2 ^ 32) } := by
  have hmask : ¬ (0xB00000 ≤ off ∧ off < 0xB00200) := by omega
  simp [otherWrite, Nat.not_le.mpr hawake, hready, hmask, hlo, hhi, hword]

end

/-! ## BAR4's size and function-level reset (R83, R470) -/

theorem bar4Resize_of_size {mib : Nat} (h : mib ∈ [256, 512, 1024, 2048, 4096]) : bar4Resize mib m = { m with host.bar4Mib := mib } :=
  if_pos (List.contains_iff_mem.mpr h)

theorem flr_of_ready {f : Nat} (hready : m.start.phase = .ready) (hf : fnExists m f = true) : flr f m = resetFn f 0 m := by
  simp [flr, hready, hf]

/-! ## Stem mode (R426 to R428) -/

theorem Reports.start_eq {a b : M} (h : Reports a b) : b.start = a.start := by
  rw [h]

@[simp] theorem stemRecord_start (code old new result : Nat) (m : M) : (stemRecord code old new result m).start = m.start := rfl

@[simp] theorem msixRaise_start (f v : Nat) (m : M) : (msixRaise f v m).start = m.start :=
  (reports_msixRaise ..).start_eq

/-- The end of a flash operation, whatever its outcome: none runs, and the outcome and its rule stand in the registers. -/
theorem flashDone_registers {o : StemOp} (h : m.start.flashOp = some o) (ok : Bool) (i : Option Image) (data : List Byte) :
    (flashDone ok i data m).start.flashOp = none ∧
      (flashDone ok i data m).start.flashOutcome = (flashOutcome o ok m).1 ∧
      (flashDone ok i data m).start.flashRule = if (flashOutcome o ok m).1 = 4 then (flashOutcome o ok m).2 else 0 := by
  simp [flashDone, h]

theorem debugUnlock_unlocked (m : M) : (debugUnlock m).start.debugUnlocked = (unlockOk m || m.start.debugUnlocked) := by
  cases h : unlockOk m with
  | true => simp [debugUnlock_of_ok h]
  | false => simp [debugUnlock_of_refused h]

/-- A row whose meaning is a write to STM_FLASH_CMD begins its operation and touches nothing else of the images and the journal. -/
theorem exec_of_flashStart {i : Instr} {s : State} {op len : Nat} (hexec : exec i s = lift (stmWrite stmFlashCmd (flashStart op len)) s)
    (hstem : s.m.start.phase = .stem) (hfree : s.m.start.flashOp = none) :
    ∃ t, exec i s = .next t ∧ t.pending = s.pending ∧
      t.m.start.flashOp = some { op := op, addr := s.m.start.flashAddr, len := len } ∧ t.m.syn = s.m.syn ∧ t.m.jrn = s.m.jrn :=
  ⟨_, hexec.trans (lift_of_eq (stmWrite_flashStart hstem hfree op len)), rfl, rfl, rfl, rfl⟩

end

/-- Settles O4: each clause is the equation of its row's meaning in the case that its hypotheses single out, or what that equation
leaves in the registers. -/
theorem registerAccessesComplete : Obligations.RegisterAccessesComplete := by
  unfold Obligations.RegisterAccessesComplete
  refine ⟨?mask, ?maskIgnored, ?nowNs, ?wide, ?rc, ?cleared, ?bad0, ?bad4, ?bad2, ?ignored0, ?bad2Write, ?scratch, ?resize, ?flr,
    ?flashBegins, ?flashEnds, ?unlock, ?jtag⟩
  case mask => exact fun s fn f v hbar hlt hfn => lift_of_eq (writeIntMask_of_writer hbar hlt hfn v)
  case maskIgnored => exact fun s fn f v hbar h => lift_of_eq (writeIntMask_of_other hbar h v)
  case nowNs => exact fun s hawake hphase => lift_of_eq (nowNsRead_of_up hawake hphase)
  case wide => exact fun s fn r hlit hr => lift_of_eq (wideRead_of_lit hlit hr fn)
  case rc => exact fun s id hawake hphase hlit => lift_of_eq (rcRead_of_lit hawake hphase hlit)
  case cleared => exact cntFind_cntPut_same
  case bad0 =>
    exact fun s fn off hfn hawake hphase =>
      ⟨lift_of_eq (badAccess_bar0 hawake hfn hphase off true), lift_of_eq (badAccess_bar0 hawake hfn hphase off false)⟩
  case bad4 => exact fun s off hawake hphase => lift_of_eq (badAccess_bar4_write hawake hphase off)
  case bad2 => exact fun s fn off hawake hready => lift_of_eq (badAccess_bar2_write hawake hready fn off)
  case ignored0 => exact fun s fn off v hfn hawake hready hoff => lift_of_eq (otherWrite_bar0 hawake hready hfn hoff v)
  case bad2Write => exact fun s fn off v hawake hready hoff => lift_of_eq (otherWrite_bar2 hawake hready hoff fn v)
  case scratch => exact fun s off v hawake hready hlo hhi hword => lift_of_eq (otherWrite_scratch hawake hready hlo hhi hword v)
  case resize => exact fun s mib h => lift_of_eq (bar4Resize_of_size h)
  case flr => exact fun s f hready hf => lift_of_eq (flr_of_ready hready hf)
  case flashBegins =>
    rintro s n i o hstem hfree (⟨rfl, rfl⟩ | ⟨rfl, rfl⟩ | ⟨rfl, rfl⟩ | ⟨rfl, rfl⟩ | ⟨rfl, rfl⟩) <;>
      exact exec_of_flashStart rfl hstem hfree
  case flashEnds => exact fun s ok i data o h => ⟨_, lift_eq _ s, rfl, flashDone_registers h ok i data⟩
  case unlock =>
    exact fun s hstem => ⟨_, lift_of_eq (stmWrite_of_stem hstem _ _), rfl, debugUnlock_unlocked s.m⟩
  case jtag => exact fun s => ⟨_, lift_eq _ s, rfl, rfl⟩

end Sys2Proof.Machine

/-!
The record of a command (R96, R111, R119): what events and exports leave of the journal and of the direct ports, the record and
the checkpoint that the end of a command appends, and the completion that carries its number.
-/
namespace Sys2Proof.Machine

/-! ## What events and exports leave alone -/

/-- The journal's head and records, and of a function its direct completions and its count of resets. -/
structure Recorded where
  head : Nat
  ringUp : Bool
  ring : List JRec
  buffer : List JRec
  fifo : List Completion
  epoch : Nat

def recorded (g : Nat) (m : M) : Recorded :=
  { head := m.jrn.head, ringUp := m.jrn.ringUp, ring := m.jrn.ring, buffer := m.jrn.buffer, fifo := (getFn m g).directFifo,
    epoch := (getFn m g).epoch }

section
variable (g : Nat)

theorem recorded_foldl {β : Type} (f : M → β → M) (hf : ∀ m b, recorded g (f m b) = recorded g m) (l : List β) (m : M) :
    recorded g (l.foldl f m) = recorded g m :=
  List.foldlRecOn (motive := fun x : M => recorded g x = recorded g m) l f rfl fun x hx b _ => (hf x b).trans hx

@[simp] theorem recorded_emit (o : Out) (m : M) : recorded g (emit o m) = recorded g m := rfl

@[simp] theorem recorded_count (r : CntReg) (i j k : Nat) (m : M) : recorded g (count r i j k m) = recorded g m := rfl

@[simp] theorem recorded_exportSet (q : Nat) (e : ExportQ) (m : M) : recorded g (exportSet q e m) = recorded g m := rfl

/-- An event queue is a part of its function, whose direct port it leaves. -/
@[simp] theorem recorded_setEvq (f q : Nat) (e : Evq) (m : M) : recorded g (setEvq f q e m) = recorded g m := by
  by_cases h : g = f
  · subst h
    simp only [recorded, setEvq, getFn_setFn_same]
    rfl
  · simp only [recorded, setEvq, getFn_setFn_other _ _ h]
    rfl

@[simp] theorem recorded_msixRaise (f v : Nat) (m : M) : recorded g (msixRaise f v m) = recorded g m := by
  simp only [msixRaise]
  split_ifs <;> rfl

@[simp] theorem recorded_evqSignal (f q level : Nat) (m : M) : recorded g (evqSignal f q level m) = recorded g m := by
  simp only [evqSignal]
  split_ifs <;> simp

@[simp] theorem recorded_evqTake (f q : Nat) (r : EvRec) (m : M) : recorded g (evqTake f q r m) = recorded g m := by
  simp only [evqTake]
  split
  · cases (evqInsert (getEvq m f q).recs r).lost <;> split_ifs <;> simp
  · rfl

@[simp] theorem recorded_raise (type level obj : Nat) (data : List Item) (m : M) :
    recorded g (raise type level obj data m) = recorded g m := by
  simp only [raise]
  split_ifs
  · rfl
  · rfl
  · exact recorded_foldl g _ (fun _ _ => recorded_foldl g _ (fun _ _ => recorded_evqTake ..) _ _) _ _

@[simp] theorem recorded_exportWrite (q : Nat) (r : JRec) (m : M) : recorded g (exportWrite q r m) = recorded g m := by
  simp only [exportWrite]
  cases exportGet m q with
  | none => rfl
  | some e => simp only [apply_ite (recorded g), recorded_msixRaise, recorded_emit, recorded_exportSet, ite_self]

@[simp] theorem recorded_exportStep (q : Nat) (m : M) : recorded g (exportStep q m) = recorded g m := by
  simp only [exportStep]
  cases exportGet m q with
  | none => rfl
  | some e =>
    dsimp only
    split_ifs
    · rfl
    · rfl
    · simp
    · cases ringAt m.jrn e.next with
      | none => rfl
      | some r => simp [apply_ite (recorded g)]

theorem recorded_exportCatchUp (q n : Nat) (m : M) : recorded g (exportCatchUp q n m) = recorded g m := by
  induction n generalizing m with
  | zero => rfl
  | succ n ih =>
    simp only [exportCatchUp]
    cases exportGet m q with
    | none => rfl
    | some e =>
      dsimp only
      split_ifs
      · rfl
      · cases exportGet (exportStep q m) q <;> simp [apply_ite (recorded g), ih]

theorem recorded_exportAll (m : M) : recorded g (exportAll m) = recorded g m :=
  recorded_foldl g _ (fun _ _ => recorded_exportCatchUp ..) _ _

end

/-! ## One record (R111, R112) -/

/-- The record an entry takes, at the journal's head. -/
def recordOf (i : JIn) (m : M) : JRec :=
  let r0 : JRec :=
    { seq := m.jrn.head, sec := m.dev / nsPerS, ns := m.dev % nsPerS, monoLo := m.vault.mono % 2 ^ 32, path := i.path,
      origin := i.domain * 32 + i.kind * 8 + m.tim.quality * 2 + b2n i.payloadForm, result := i.result, obj := i.obj,
      opcode := i.opcode, old := i.old, new := i.new, chain := 0 }
  { r0 with chain := chainOf m.jrn.lastChain r0 }

/-- What is offered to the mirror's backlog leaves the journal itself. -/
theorem recorded_mirrorOffer (g : Nat) (r : JRec) (j : JrnSt) (m : M) :
    recorded g { m with jrn := mirrorOffer r j } = recorded g { m with jrn := j } := by
  unfold mirrorOffer
  split <;> rfl

/-- One record joins the ring, or the buffer until the ring is up, and the head moves by one. -/
theorem recorded_jrnPut (g : Nat) (i : JIn) (m : M) :
    recorded g (jrnPut i m) =
      { recorded g m with
        head := m.jrn.head + 1
        ring := if m.jrn.ringUp then (recordOf i m :: m.jrn.ring).take ringSize else m.jrn.ring
        buffer := if m.jrn.ringUp then m.jrn.buffer else recordOf i m :: m.jrn.buffer } := by
  simp only [jrnPut]
  cases critical i
  · rfl
  · exact recorded_mirrorOffer ..

section
variable (i j : JIn) (m : M)

theorem jrnPut_head : (jrnPut i m).jrn.head = m.jrn.head + 1 :=
  congrArg Recorded.head (recorded_jrnPut 0 i m)

theorem jrnPut_ringUp : (jrnPut i m).jrn.ringUp = m.jrn.ringUp :=
  congrArg Recorded.ringUp (recorded_jrnPut 0 i m)

theorem jrnPut_ring : (jrnPut i m).jrn.ring = if m.jrn.ringUp then (recordOf i m :: m.jrn.ring).take ringSize else m.jrn.ring :=
  congrArg Recorded.ring (recorded_jrnPut 0 i m)

theorem jrnPut_buffer : (jrnPut i m).jrn.buffer = if m.jrn.ringUp then m.jrn.buffer else recordOf i m :: m.jrn.buffer :=
  congrArg Recorded.buffer (recorded_jrnPut 0 i m)

/-- The journal holds a record, in its ring or in the buffer. -/
def InJournal (x : JRec) (j : JrnSt) : Prop := x ∈ j.ring ∨ x ∈ j.buffer

theorem jrnPut_inJournal : InJournal (recordOf i m) (jrnPut i m).jrn := by
  rw [InJournal, jrnPut_ring, jrnPut_buffer]
  cases m.jrn.ringUp <;> simp [ringSize]

/-- The ring holds the record before the newest too. -/
theorem jrnPut_jrnPut_inJournal : InJournal (recordOf i m) (jrnPut j (jrnPut i m)).jrn := by
  rw [InJournal, jrnPut_ring, jrnPut_buffer, jrnPut_ringUp, jrnPut_ring, jrnPut_buffer]
  cases m.jrn.ringUp <;> simp [ringSize]

end

/-! ## A record and its checkpoint (R119) -/

/-- A checkpoint follows a record at a multiple of 2^20, but not a start record. -/
abbrev NeedsCheckpoint (i : JIn) (m : M) : Prop := m.jrn.head % 2 ^ 20 = 0 ∧ ¬ (i.opcode = 0x04C0 ∧ i.domain = 0)

/-- The checkpoint of a sequence number (Table 05-6). -/
def checkpointEntry (seq : Nat) : JIn :=
  { path := 7, domain := 0, kind := 3, payloadForm := false, result := 0, obj := jrnOid, opcode := 0x04C2, old := seq, new := 0,
    urgent := false }

/-- Exports apart, an entry is its record, with a checkpoint behind it or not. -/
theorem jrnAppend_cases (i : JIn) (m : M) :
    (¬ NeedsCheckpoint i m ∧ ∀ g, recorded g (jrnAppend i m) = recorded g (jrnPut i m)) ∨
    (NeedsCheckpoint i m ∧
      ∀ g, recorded g (jrnAppend i m) =
        recorded g (jrnPut (checkpointEntry ((jrnPut i m).jrn.head - 1)) (jrnPut i m))) := by
  have hexport (g : Nat) (x : M) : recorded g (if x.jrn.ringUp then exportAll x else x) = recorded g x := by
    rw [apply_ite (recorded g), recorded_exportAll, ite_self]
  have hiff : NeedsCheckpoint i m ↔ (decide (m.jrn.head % 2 ^ 20 = 0) && !(i.opcode == 0x04C0 && i.domain == 0)) = true := by
    simp [NeedsCheckpoint, ← imp_iff_not_or]
  by_cases h : NeedsCheckpoint i m
  · refine .inr ⟨h, fun g => ?_⟩
    simp only [jrnAppend, if_pos (hiff.mp h), hexport]
    rfl
  · refine .inl ⟨h, fun g => ?_⟩
    simp only [jrnAppend, if_neg (mt hiff.mpr h), hexport]

section
variable (i : JIn) (m : M)

theorem jrnAppend_head : (jrnAppend i m).jrn.head = m.jrn.head + if NeedsCheckpoint i m then 2 else 1 := by
  rcases jrnAppend_cases i m with ⟨hno, h⟩ | ⟨hyes, h⟩
  · rw [if_neg hno]
    exact (congrArg Recorded.head (h 0)).trans (jrnPut_head i m)
  · rw [if_pos hyes]
    exact (congrArg Recorded.head (h 0)).trans ((jrnPut_head ..).trans (congrArg (· + 1) (jrnPut_head i m)))

theorem jrnAppend_inJournal : InJournal (recordOf i m) (jrnAppend i m).jrn := by
  rcases jrnAppend_cases i m with ⟨-, h⟩ | ⟨-, h⟩
  · have hring : (jrnAppend i m).jrn.ring = _ := congrArg Recorded.ring (h 0)
    have hbuffer : (jrnAppend i m).jrn.buffer = _ := congrArg Recorded.buffer (h 0)
    rw [InJournal, hring, hbuffer]
    exact jrnPut_inJournal i m
  · have hring : (jrnAppend i m).jrn.ring = _ := congrArg Recorded.ring (h 0)
    have hbuffer : (jrnAppend i m).jrn.buffer = _ := congrArg Recorded.buffer (h 0)
    rw [InJournal, hring, hbuffer]
    exact jrnPut_jrnPut_inJournal i _ m

theorem jrnAppend_directFifo (g : Nat) : (getFn (jrnAppend i m) g).directFifo = (getFn m g).directFifo := by
  rcases jrnAppend_cases i m with ⟨-, h⟩ | ⟨-, h⟩ <;> exact congrArg Recorded.fifo (h g)

theorem jrnAppend_epoch (g : Nat) : (getFn (jrnAppend i m) g).epoch = (getFn m g).epoch := by
  rcases jrnAppend_cases i m with ⟨-, h⟩ | ⟨-, h⟩ <;> exact congrArg Recorded.epoch (h g)

end

/-! ## The completion (R85, R106) -/

theorem msixRaise_jrn (f v : Nat) (m : M) : (msixRaise f v m).jrn = m.jrn := by
  simp only [msixRaise]
  split_ifs <;> rfl

theorem cqWrite_jrn (f q : Nat) (c : Completion) (m : M) : (cqWrite f q c m).jrn = m.jrn := by
  simp only [cqWrite]
  split
  · rfl
  · simp [apply_ite M.jrn, msixRaise_jrn]

theorem post_jrn (p : Path) (c : Completion) (m : M) : (post p c m).jrn = m.jrn := by
  cases p with
  | host f r cq =>
    simp only [post]
    split_ifs
    · rfl
    · rfl
    · exact cqWrite_jrn ..
  | i3c => rfl
  | peer => rfl

theorem post_direct {f c : Nat} {m : M} (h : c / 1024 = (getFn m f).epoch) (x : Completion) :
    (getFn (post (.host f 0x3FF c) x m) f).directFifo = (getFn m f).directFifo ++ [x] := by
  simp [post, h, directPush]

/-! ## The end of a command (R96, R111) -/

/-- What the journal notes of a command that has ended. -/
def commandEntry (d : Desc) (ptr : Bool) (r : Reply) (m : M) : JIn :=
  let vals := r.plain.getD (r.before % 256 + r.after % 256 * 256, shaFirst 8 (digestBytes ptr d))
  { path := pathField d.path, domain := pathDomain m d.path, kind := pathKind d.path, payloadForm := r.plain.isNone,
    result := r.status, obj := oid d, opcode := d.opcode % 65536, old := vals.1, new := vals.2, urgent := false }

/-- The completion of a command that has ended. -/
def commandCompletion (d : Desc) (r : Reply) (m : M) : Completion :=
  { tag := tagN d, status := r.status, ostate := r.after, seqLo := m.jrn.head % 2 ^ 32, detail := r.detail % 2 ^ 48 }

/-- The part no longer owes a command its completion. -/
def unowed (d : Desc) (m : M) : M := { m with deferred := m.deferred.erase d }

theorem getFn_unowed (d : Desc) (m : M) (f : Nat) : getFn (unowed d m) f = getFn m f := rfl

section
variable (d : Desc) (ptr : Bool) (r : Reply) (m : M)

/-- The end of a command: its entry, one command owed less, its completion. -/
theorem finish_eq :
    finish d ptr r m =
      post d.path (commandCompletion d r m) (unowed d (jrnAppend (commandEntry d ptr r m) m)) := by
  obtain ⟨status, detail, plain, before, after⟩ := r
  cases plain <;> rfl

theorem finish_jrn : (finish d ptr r m).jrn = (jrnAppend (commandEntry d ptr r m) m).jrn := by
  rw [finish_eq, post_jrn]
  rfl

end

/-- Settles O52: the end of a command appends one entry, and the completion it posts carries the head from before. -/
theorem commandsAreRecordedOnce : Obligations.CommandsAreRecordedOnce := by
  unfold Obligations.CommandsAreRecordedOnce
  refine ⟨?head, ?record, ?i3c, ?direct⟩
  case head =>
    intro d ptr r m
    rw [finish_jrn, jrnAppend_head]
    rfl
  case record =>
    intro d ptr r m
    rw [finish_jrn]
    exact ⟨recordOf (commandEntry d ptr r m) m, rfl, rfl, rfl, rfl, rfl, jrnAppend_inJournal ..⟩
  case i3c =>
    intro d ptr r m h
    rw [finish_eq, h]
    rfl
  case direct =>
    intro d ptr r m f c h hepoch
    have hsame : c / 1024 = (getFn (unowed d (jrnAppend (commandEntry d ptr r m) m)) f).epoch := by
      rw [getFn_unowed, jrnAppend_epoch, hepoch]
    rw [finish_eq, h, post_direct hsame, getFn_unowed, jrnAppend_directFifo]
    rfl

end Sys2Proof.Machine

/-!
The journal (R116 to R124): its commands and its own rows, one equation for each case of their meanings; the chain that a record
takes; and the record that a start takes the chain from.
-/
namespace Sys2Proof.Machine

/-! ## JRN_EXPORT_SET (R122, R123) -/

theorem applyExport_of_enable {d : Desc} {m : M} (h : payBit d 0 0 = true) :
    applyExport d m = exportSet (exportIdx d) (exportNew d m) m :=
  if_pos h

theorem applyExport_of_disable {d : Desc} {m : M} (h : payBit d 0 0 = false) :
    applyExport d m =
      { m with jrn.exports := tupd m.jrn.exports (exportIdx d) fun e => { e with enabled := false, full := false } } :=
  if_neg (ne_true_of_eq_false h)

/-! ## JRN_VERIFY (R124) -/

/-- A JRN_VERIFY that starts holds its range and is owed by its unit. -/
theorem hostRow_jrnVerify {d x : Desc} {m m1 : M} (hs : Starts jrnVerifySpec d m x m1) :
    hostRow jrnVerifySpec d m =
      { m1 with jrn.verify := some (x, pay x 0 8, pay x 8 4), deferred := m1.deferred ++ [x] } :=
  hs.dispatch.trans (applyCmd_of_later (sp := jrnVerifySpec) rfl rfl false)

section
variable {m : M} {damaged : List Nat} {d : Desc} {first n : Nat} (hrange : m.jrn.verify = some (d, first, n))
include hrange

theorem verifyDone_of_match (h : firstMismatch m.jrn damaged first n = none) :
    verifyDone damaged m = finish d false (reply stOK 0 0xFF) { m with jrn.verify := none } := by
  simp only [verifyDone, hrange, h]

theorem verifyDone_of_mismatch {bad : Nat} (h : firstMismatch m.jrn damaged first n = some bad) :
    verifyDone damaged m =
      finish d false (reply stOK (1 + (bad - first) * 2 ^ 16) 0xFF)
        (announce jrnUnit 0x0403 0 jrnOid [.u 8 bad] 0 { m with jrn.verify := none }) := by
  simp only [verifyDone, hrange, h]

end

/-- Settles O5: an export queue is set or disabled as its enable bit says, a mark is its spec's effect, and a verification waits for
its unit, which finds a mismatch or none. -/
theorem journalCommandsComplete : Obligations.JournalCommandsComplete := by
  unfold Obligations.JournalCommandsComplete
  refine ⟨?enable, ?disable, ?mark, ?verify, ?good, ?bad⟩
  case enable =>
    exact completesIf_of (fun _ _ => rfl) rfl fun _ _ h => congrArg (·, Applied.done (reply stOK 0 0xFF)) (applyExport_of_enable h)
  case disable =>
    exact completesIf_of (fun _ _ => rfl) rfl fun _ _ h => congrArg (·, Applied.done (reply stOK 0 0xFF)) (applyExport_of_disable h)
  case mark => exact completes_of (fun _ _ => rfl) rfl fun _ _ => rfl
  case verify => exact fun s d x m1 hs => lift_of_eq (hostRow_jrnVerify hs)
  case good => exact fun s damaged d first n hrange h => lift_of_eq (verifyDone_of_match hrange h)
  case bad => exact fun s damaged d first n bad hrange h => lift_of_eq (verifyDone_of_mismatch hrange h)

/-! ## The flash mirror (R120) -/

section
variable {m : M} {r : JRec} {rest : List JRec} (hrun : m.jrn.mirrorFault = false) (hhead : m.jrn.backlog = r :: rest)
include hrun hhead

theorem mirrorDone_of_programmed :
    mirrorDone true m = mirrorSpace { m with jrn := mirrorProgram r { m.jrn with backlog := rest, retried := false } } := by
  simp [mirrorDone, hrun, hhead]

theorem mirrorDone_of_firstFailure (h : m.jrn.retried = false) : mirrorDone false m = { m with jrn.retried := true } := by
  simp [mirrorDone, hrun, hhead, h]

theorem mirrorDone_of_secondFailure (h : m.jrn.retried = true) :
    mirrorDone false m =
      announce jrnUnit 0x0402 1 jrnOid [.u 1 0, .u 4 (m.jrn.backlog.length + m.jrn.unmirrored)] 0
        { m with jrn.mirrorFault := true, jrn.backlog := [], jrn.unmirrored := 0 } := by
  simp [mirrorDone, hrun, hhead, h]

end

/-! ## The anchor timer (R117) -/

theorem anchorTimer_of_due {m : M} (hany : m.jrn.anchors ≠ []) (hdue : m.jrn.lastAnchor + 3600 * nsPerS ≤ m.vault.mono) :
    anchorTimer m = jrnAnchor m := by
  simp [anchorTimer, hany, Nat.not_lt.mpr hdue]

/-! ## The timers of an export queue (R123) -/

section
variable {m : M} {q : Nat} {e : ExportQ} (he : exportGet m q = some e) (hawake : m.pwr.state < 3)
include he hawake

theorem exportPoll_of_full (hfull : e.full = true) (hdue : e.lastPoll = 0 ∨ e.lastPoll + 10000 ≤ m.vault.mono) (n : Nat) :
    exportPoll q n m =
      exportAll (exportSet q { e with consumed := n % 2 ^ 32, full := false, lastPoll := m.vault.mono } m) := by
  have hwait : ¬ (e.lastPoll ≠ 0 ∧ m.vault.mono < e.lastPoll + 10000) := by omega
  simp [exportPoll, he, hfull, Nat.not_le.mpr hawake, hwait]

theorem exportTimeout_of_due (hsome : e.unsignalled ≠ 0) (hdue : e.firstAt + 1000000 ≤ m.vault.mono) :
    exportTimeout q m = msixRaise 1 e.vector (exportSet q { e with unsignalled := 0 } m) := by
  simp [exportTimeout, he, hsome, Nat.not_le.mpr hawake, Nat.not_lt.mpr hdue]

end

/-- Settles O6: each clause is the equation of its row's meaning in the case that its hypotheses single out. -/
theorem journalRowsComplete : Obligations.JournalRowsComplete := by
  unfold Obligations.JournalRowsComplete
  refine ⟨?programmed, ?retry, ?stop, ?anchor, ?poll, ?interrupt⟩
  case programmed => exact fun s r rest hrun hhead => lift_of_eq (mirrorDone_of_programmed hrun hhead)
  case retry => exact fun s r rest hrun hhead h => lift_of_eq (mirrorDone_of_firstFailure hrun hhead h)
  case stop => exact fun s r rest hrun hhead h => lift_of_eq (mirrorDone_of_secondFailure hrun hhead h)
  case anchor => exact fun s hany hdue => lift_of_eq (anchorTimer_of_due hany hdue)
  case poll => exact fun s q n e he hfull hawake hdue => lift_of_eq (exportPoll_of_full he hawake hfull hdue n)
  case interrupt => exact fun s q e he hsome hawake hdue => lift_of_eq (exportTimeout_of_due he hawake hsome hdue)

/-! ## The chain of a record (R116) -/

@[simp] theorem leBytes_length (k n : Nat) : (leBytes k n).length = k := by
  induction k generalizing n with
  | zero => rfl
  | succ k ih => exact congrArg (· + 1) (ih _)

theorem recBytes_length (r : JRec) : (recBytes r).length = 48 := by
  simp [recBytes]

/-- The bytes that are hashed do not hold the record's own chain. -/
theorem chainOf_withChain (prev c : BitVec 128) (r : JRec) : chainOf prev { r with chain := c } = chainOf prev r := by
  have hbytes : recBytes { r with chain := c } = recBytes r := rfl
  rw [chainOf, chainOf, hbytes]

theorem recordOf_chain (i : JIn) (m : M) : (recordOf i m).chain = chainOf m.jrn.lastChain (recordOf i m) :=
  (chainOf_withChain ..).symm

theorem mirrorOffer_lastChain (r : JRec) (j : JrnSt) : (mirrorOffer r j).lastChain = j.lastChain := by
  unfold mirrorOffer
  split <;> rfl

theorem jrnPut_lastChain (i : JIn) (m : M) : (jrnPut i m).jrn.lastChain = (recordOf i m).chain := by
  simp only [jrnPut]
  cases critical i
  · rfl
  · exact mirrorOffer_lastChain ..

/-! ## The newest record of the mirror (R116, R119) -/

/-- The records of the flash mirror, mirror gaps apart. -/
def mirrorRecords (j : JrnSt) : List JRec := j.mirror.filter fun r => !isMirrorGap r

theorem mem_mirrorRecords {j : JrnSt} {r : JRec} : r ∈ mirrorRecords j ↔ r ∈ j.mirror ∧ isMirrorGap r = false := by
  simp [mirrorRecords]

theorem mirrorNewest_eq_argmax (j : JrnSt) : mirrorNewest j = (mirrorRecords j).argmax JRec.seq := by
  rw [mirrorRecords, List.argmax, List.foldl_filter, mirrorNewest]
  congr
  funext a r
  cases isMirrorGap r <;> cases a <;> rfl

/-- Nothing on the mirror but gaps: no newest record. -/
theorem mirrorNewest_eq_none {j : JrnSt} : mirrorNewest j = none ↔ ∀ x ∈ j.mirror, isMirrorGap x = true := by
  rw [mirrorNewest_eq_argmax, List.argmax_eq_none]
  simp [mirrorRecords]

section
variable {j : JrnSt} {r : JRec} (h : mirrorNewest j = some r)
include h

theorem mirrorNewest_mem : r ∈ j.mirror ∧ isMirrorGap r = false :=
  mem_mirrorRecords.mp (List.argmax_mem ((mirrorNewest_eq_argmax j).symm.trans h))

theorem seq_le_mirrorNewest {x : JRec} (hx : x ∈ j.mirror) (hgap : isMirrorGap x = false) : x.seq ≤ r.seq :=
  List.le_of_mem_argmax (mem_mirrorRecords.mpr ⟨hx, hgap⟩) ((mirrorNewest_eq_argmax j).symm.trans h)

end

theorem jrnStart_lastChain (m : M) : (jrnStart m).jrn.lastChain = ((mirrorNewest m.jrn).map JRec.chain).getD 0 := rfl

/-- Settles O51: the record that is put is `recordOf`, chained over the 16 bytes of the last chain and its own 48; a start takes its
chain from the record of greatest number among the mirror's records. -/
theorem journalChain : Obligations.JournalChain := by
  unfold Obligations.JournalChain
  refine ⟨?put, ?newest, ?fresh⟩
  case put =>
    refine fun i m => ⟨recordOf i m, jrnPut_lastChain i m, recordOf_chain i m, ?_, rfl, jrnPut_head i m, ?_, ?_⟩
    · rw [List.length_append, leBytes_length, recBytes_length]
    · exact fun hup => (jrnPut_ring i m).trans (if_pos hup)
    · exact fun hdown => (jrnPut_buffer i m).trans (if_neg (ne_true_of_eq_false hdown))
  case newest =>
    intro m r h
    obtain ⟨hmem, hgap⟩ := mirrorNewest_mem h
    refine ⟨hmem, hgap, fun x hx => seq_le_mirrorNewest h hx, ?_⟩
    rw [jrnStart_lastChain, h]
    rfl
  case fresh =>
    intro m h
    refine ⟨mirrorNewest_eq_none.mp h, ?_⟩
    rw [jrnStart_lastChain, h]
    rfl

end Sys2Proof.Machine

/-!
SDI inputs (R141, R142): a lane locks or loses lock, and what a stream takes of a frame; the obligation of their rows.
-/
namespace Sys2Proof.Machine

/-! ## Reports leave the legs, the streams and the ports alone -/

theorem Reports.net_eq {a b : M} (h : Reports a b) : b.net = a.net := by
  rw [h]

@[simp] theorem raise_net (type level obj : Nat) (data : List Item) (m : M) : (raise type level obj data m).net = m.net :=
  (reports_raise ..).net_eq

@[simp] theorem getPort_setPort_same (port : Nat) (p : PortSt) (m : M) : getPort (setPort port p m) port = p :=
  tget_tset_same ..

@[simp] theorem getPort_raise (type level obj : Nat) (data : List Item) (m : M) (port : Nat) :
    getPort (raise type level obj data m) port = getPort m port := by
  simp [getPort]

/-! ## A lane locks or loses lock (R141) -/

/-- The port of a lane whose receiver has locked, with what ST 352 says. -/
def lockedPort (r : Nat) (frac : Bool) (id : Nat) (p : PortSt) : PortSt :=
  { p with linkUp := true, sdiRate := r, sdiFrac := frac, st352 := some id }

/-- The port of a lane without lock. -/
def lostPort (p : PortSt) : PortSt :=
  { p with linkUp := false, sdiRate := 0, sdiFrac := false, st352 := none }

section
variable {m : M} {die lane : Nat} (hsdi : lanePers (img m) die lane = 4) (hlane : lane < 8) (hdie : dieRun m die = true)
include hsdi hlane hdie

theorem sdiLock_lost (hup : (getPort m (die * 16 + lane)).linkUp = true) :
    sdiLock die lane none none false m =
      let m1 := raise 0x0B04 1 (infraOid die) [.u 1 (die * 16 + lane), .u 1 0, .u 1 0, .u 4 0]
        (setPort (die * 16 + lane) (lostPort (getPort m (die * 16 + lane))) m)
      (sdiStreams m1 (die * 16 + lane)).foldl (fun x e => stallStream e.1 x) m1 := by
  have hnew : lostPort (getPort m (die * 16 + lane)) ≠ getPort m (die * 16 + lane) :=
    fun h => by simpa [hup, lostPort] using congrArg PortSt.linkUp h
  unfold lostPort at hnew ⊢
  simp [sdiLock, hsdi, hdie, Nat.not_le.mpr hlane, hnew, b2n]

theorem sdiLock_gained (hdown : (getPort m (die * 16 + lane)).linkUp = false) {r : Nat} (hlow : 1 ≤ r) (hhigh : r ≤ 3)
    (frac : Bool) (id : Nat) (inv : Bool) :
    sdiLock die lane (some (r, frac)) (some id) inv m =
      raise 0x0B04 1 (infraOid die) [.u 1 (die * 16 + lane), .u 1 1, .u 1 r, .u 4 (id % 2 ^ 32)]
        (setPort (die * 16 + lane) (lockedPort r frac id (getPort m (die * 16 + lane))) (laneSensed die lane inv m)) := by
  have hnew : lockedPort r frac id (getPort m (die * 16 + lane)) ≠ getPort m (die * 16 + lane) :=
    fun h => by simpa [hdown, lockedPort] using congrArg PortSt.linkUp h
  unfold lockedPort at hnew ⊢
  simp [sdiLock, hsdi, hdie, Nat.not_le.mpr hlane, hlow, hhigh, hnew, b2n]

end

/-! ## A frame (R141, R142) -/

section
variable {m : M} {k : Nat} {x : Strm}

theorem sdiFormat_of_same (hx : getStrm m k = some x) (id : Nat) :
    sdiFormat k x.vfmt id m = updStream k (fun y => { y with mismatch := false }) m := by
  simp [sdiFormat, hx]

/-- Another format than the stream's is reported at the first frame of it. -/
theorem sdiFormat_of_other {fmt : Nat} (hx : getStrm m k = some x) (hother : fmt ≠ x.vfmt) (hfirst : x.mismatch = false) (id : Nat) :
    sdiFormat k fmt id m =
      raise 0x0B05 2 (strmOid k) [.u 2 (keyIdx k), .u 4 (id % 2 ^ 32)]
        (stallStream k (updStream k (fun y => { y with mismatch := true }) m)) := by
  simp [sdiFormat, hx, hother, hfirst]

variable {die lane : Nat}

theorem sdiFrame_of_noStream (hnone : sdiStreams m (die * 16 + lane) = []) (fmt id : Nat)
    (groups : List (Nat × List (List Int))) (marks : SdiMarks) : sdiFrame die lane fmt id groups marks m = m := by
  simp [sdiFrame, hnone]

/-- A frame reaches one stream, `x` under the key `k`: the SDI lane is up and not in test mode 3 (R392), and the stream's leg is LIVE. -/
structure SdiFrameReaches (m : M) (die lane k : Nat) (x : Strm) : Prop where
  up : (getPort m (die * 16 + lane)).linkUp = true
  sdi : lanePers (img m) die lane = 4
  mode : laneMode m (die * 16 + lane) ≠ 3
  only : sdiStreams m (die * 16 + lane) = [(k, x)]
  live : ∃ l, getLeg m (strmLeg k) = some l ∧ l.state = 3

variable (h : SdiFrameReaches m die lane k x)
include h

theorem SdiFrameReaches.audio (hkind : x.kind = 7) (fmt id : Nat) (groups : List (Nat × List (List Int))) (marks : SdiMarks) :
    sdiFrame die lane fmt id groups marks m = sdiAudio k (getPort m (die * 16 + lane)).sdiRate x groups marks m := by
  obtain ⟨l, hleg, hlive⟩ := h.live
  simp [sdiFrame, h.up, h.sdi, h.mode, h.only, hleg, hkind, hlive, legCarries]

theorem SdiFrameReaches.video (hkind : x.kind = 6) (fmt id : Nat) (groups : List (Nat × List (List Int))) (marks : SdiMarks) :
    sdiFrame die lane fmt id groups marks m =
      if fmt = x.vfmt then sdiTake k [] (sdiFormat k fmt id m) else sdiFormat k fmt id m := by
  obtain ⟨l, hleg, hlive⟩ := h.live
  simp [sdiFrame, h.up, h.sdi, h.mode, h.only, hleg, hkind, hlive, legCarries]

end

/-- Settles O32: each clause is the equation of its row's meaning in the case that its hypotheses single out; a video frame goes by its
format. -/
theorem sdiRowsComplete : Obligations.SdiRowsComplete := by
  unfold Obligations.SdiRowsComplete
  refine ⟨?lost, ?gained, ?noStream, ?audio, ?sameFormat, ?otherFormat⟩
  case lost =>
    rintro s die lane p rfl hsdi hlane hdie hup
    exact lift_of_eq (sdiLock_lost hsdi hlane hdie hup)
  case gained =>
    rintro s die lane r frac id inv p rfl hsdi hlane hdie hdown hlow hhigh
    exact lift_of_eq (sdiLock_gained hsdi hlane hdie hdown hlow hhigh frac id inv)
  case noStream =>
    exact fun s die lane fmt id groups marks hnone => lift_of_eq (sdiFrame_of_noStream hnone fmt id groups marks)
  case audio =>
    intro s die lane fmt id groups marks k x l hup hsdi hmode honly hleg hkind hlive _
    exact lift_of_eq (SdiFrameReaches.audio ⟨hup, hsdi, hmode, honly, l, hleg, hlive⟩ hkind fmt id groups marks)
  case sameFormat =>
    rintro s die lane fmt id groups marks k x l hup hsdi hmode honly hleg hkind hlive _ hx rfl
    refine lift_of_eq ((SdiFrameReaches.video ⟨hup, hsdi, hmode, honly, l, hleg, hlive⟩ hkind _ id groups marks).trans ?_)
    rw [if_pos rfl, sdiFormat_of_same hx]
  case otherFormat =>
    intro s die lane fmt id groups marks k x l hup hsdi hmode honly hleg hkind hlive _ hx hother hfirst
    refine lift_of_eq ((SdiFrameReaches.video ⟨hup, hsdi, hmode, honly, l, hleg, hlive⟩ hkind fmt id groups marks).trans ?_)
    rw [if_neg hother, sdiFormat_of_other hx hother hfirst]

end Sys2Proof.Machine

/-!
Arrival (R134 to R140): one equation for each case of the meanings of the rows of frames, receive streams and their timers, and the
obligation of what arrives on a lane.
-/
namespace Sys2Proof.Machine

/-! ## A frame (R134, R135) -/

/-- A frame that passes the checks of stages 1 and 2 on its lane: the port is up in Run state and not in test mode 3 (R392), and FCS
and length are good. -/
structure FrameSound (f : Frame) (m : M) : Prop where
  lane : f.lane < 8
  eth : ethPort m (f.die * 16 + f.lane) = true
  die : dieRun m f.die = true
  ready : m.start.phase = .ready
  run : inRun m = true
  up : (getPort m (f.die * 16 + f.lane)).linkUp = true
  mode : laneMode m (f.die * 16 + f.lane) ≠ 3
  fcs : f.fcsOk = true
  long : 64 ≤ f.length
  fits : f.length ≤ (getPort m (f.die * 16 + f.lane)).mtu + 18 + (if f.vlan.isSome then 4 else 0)

/-- Stage 2: where a frame goes by its EtherType. -/
def byEtherType (port : Nat) (p : PortSt) (f : Frame) (m : M) : M :=
  match f.etype with
  | 0 | 1 => ipStages port p f m
  | 2 => m
  | 3 => if f.dst = p.ip4 then wireNet port 6 f.die f.lane [p.ip4, p.mac] m else m
  | 4 => if p.ip6en && f.dst == p.ip6 then wireNet port 7 f.die f.lane [p.ip6, p.mac] m else m
  | 5 => countPort port 4 m
  | _ => countPort port 0 m

section
variable {f : Frame} {m : M}

theorem FrameSound.receive (h : FrameSound f m) :
    frameReceive f m = byEtherType (f.die * 16 + f.lane) (getPort m (f.die * 16 + f.lane)) f m := by
  obtain ⟨hlane, heth, hdie, hready, hrun, hup, hmode, hfcs, hlong, hfits⟩ := h
  simp only [frameReceive, heth, hdie, hready, hrun, hup, hfcs, Nat.not_le.mpr hlane, Nat.not_lt.mpr hlong,
    Nat.not_lt.mpr hfits, beq_eq_false_iff_ne.mpr hmode]
  rfl

variable {port : Nat} {p : PortSt}

theorem byEtherType_ip (h : f.etype ≤ 1) : byEtherType port p f m = ipStages port p f m := by
  obtain h | h : f.etype = 0 ∨ f.etype = 1 := by omega
  all_goals simp only [byEtherType, h]

theorem byEtherType_ptp (h : f.etype = 2) : byEtherType port p f m = m := by
  simp only [byEtherType, h]

theorem byEtherType_arp (h : f.etype = 3) (hdst : f.dst = p.ip4) :
    byEtherType port p f m = wireNet port 6 f.die f.lane [(p.ip4 : Int), (p.mac : Int)] m := by
  simp only [byEtherType, h, if_pos hdst]

theorem byEtherType_neighbour (h : f.etype = 4) (hen : p.ip6en = true) (hdst : f.dst = p.ip6) :
    byEtherType port p f m = wireNet port 7 f.die f.lane [(p.ip6 : Int), (p.mac : Int)] m := by
  simp [byEtherType, h, hen, hdst]

theorem byEtherType_macsec (h : f.etype = 5) : byEtherType port p f m = countPort port 4 m := by
  simp only [byEtherType, h]

theorem byEtherType_other (h : 6 ≤ f.etype) : byEtherType port p f m = countPort port 0 m := by
  obtain ⟨n, hn⟩ := Nat.exists_eq_add_of_le' h
  simp only [byEtherType, hn]

end

/-! ## Ordered release and playout (R138, R139) -/

section
variable {m : M} {k die i : Nat} {x : Strm}

/-- With nothing to declare lost, ordered release is its loop. -/
theorem releaseAll_of_noneDue (hx : getStrm m k = some x)
    (hnone : (((liveHeld x).filter fun p => tickDue m p.playout).flatMap fun p => missingBelow x p.seq) = []) :
    releaseAll k m = releaseLoop k (x.held.length + x.lostAhead.length) m := by
  have hdeclare : declareDue k m = m := by simp only [declareDue, hx, hnone, List.foldl_nil]
  simp only [releaseAll, hdeclare, hx]

/-- Where the anchor `a` moves to: toward the least value seen, by at most `lim`. -/
def anchorMoved (lim a : Int) (least : Option Int) : Int :=
  match least with
  | none => a
  | some x => if a + lim < x then a + lim else if x < a - lim then a - lim else x

theorem anchorMoved_near {lim : Nat} (a : Int) (least : Option Int) : (anchorMoved lim a least - a).natAbs ≤ lim := by
  cases least with
  | none => simp [anchorMoved]
  | some x =>
    simp only [anchorMoved]
    split_ifs <;> omega

theorem anchorMoved_reaches {lim : Nat} {a x : Int} (h : (x - a).natAbs ≤ lim) : anchorMoved lim a (some x) = x := by
  simp only [anchorMoved]
  split_ifs <;> omega

theorem anchorAdjust_of_due {a : Int} (hx : getStrm m (mkKey die i) = some x) (ha : x.anchor = some a)
    (hdue : x.anchorAt + 1000000000 ≤ m.dev) :
    anchorAdjust die i m =
      noteOut (.anchor (mkKey die i) (anchorMoved (100000 * mediaClock x : Nat) a x.anchorMin))
        (updStream (mkKey die i)
          (fun y => { y with
            anchor := some (anchorMoved (100000 * mediaClock x : Nat) a x.anchorMin), anchorMin := none, anchorAt := m.dev }) m) := by
  simp only [anchorAdjust, hx, ha, nsPerS, Nat.not_lt.mpr hdue]
  rfl

/-! ## Silence, NACK and report times (R128, R139, R140) -/

theorem stallTimeout_of_due (hx : getStrm m (mkKey die i) = some x) (hrecv : x.state = 2)
    (hdue : tickDue m (x.lastRelease + x.stallMs * 1000000) = true) :
    stallTimeout die i m = stallStream (mkKey die i) m := by
  simp [stallTimeout, hx, hrecv, hdue]

theorem nackDelay_of_single {n : Nack} (hx : getStrm m (mkKey die i) = some x) (hone : x.nacks = [n]) (hunsent : n.sent = false)
    (hdue : tickDue m n.dueAt = true) :
    nackDelay die i m =
      updStream (mkKey die i) (fun y => { y with nacks := y.nacks.map fun q =>
          if q.seq = n.seq then { q with sent := true, repeatAt := m.dev + 20000000 } else q })
        (sendNack (mkKey die i) n.seq m) := by
  simp [nackDelay, hx, hone, hunsent, hdue]

theorem nackRepeat_of_single {n : Nack} (hx : getStrm m (mkKey die i) = some x) (hone : x.nacks = [n]) (hsent : n.sent = true)
    (hdue : tickDue m n.repeatAt = true) :
    nackRepeat die i m =
      updStream (mkKey die i) (fun y => { y with nacks := y.nacks.filter fun q => q.seq != n.seq })
        (sendNack (mkKey die i) n.seq m) := by
  simp [nackRepeat, hx, hone, hsent, hdue]

variable {l : Leg} (hl : getLeg m (mkKey die i) = some l)
include hl

theorem legSilence_of_due (hlive : l.state = 3) (hset : l.silenceS ≠ 0) (hfirst : l.silent = false)
    (hdue : tickDue m (l.lastRelease + l.silenceS * 1000000000) = true) :
    legSilence die i m =
      raise 0x0A02 3 (legOid (mkKey die i)) [.u 2 (legId (mkKey die i)), .u 2 l.silenceS]
        (updLeg (mkKey die i) (fun x => { x with silent := true }) m) := by
  simp [legSilence, hl, hlive, hset, hfirst, nsPerS, hdue]

/-- A part that follows draws the next interval and sends nothing. -/
theorem rtcpReport_of_following (hon : bit l.flags 2 = true) (hcarry : legCarries l = true)
    (hdue : tickDue m (l.rtcpAt + l.rtcpGap) = true) (hoff : feedbackOn m = false) :
    rtcpReport die i m =
      updLeg (mkKey die i) (fun x => { x with rtcpAt := m.dev, rtcpGap := drawGap l.rtcpMs m }) (draw m) := by
  simp [rtcpReport, hl, hon, hcarry, hdue, hoff]

end

/-- Settles O13: NET_PORT_SET is its spec's effect, a sound frame goes by its EtherType, and every other clause is the equation of its
row's meaning in the case that its hypotheses single out. -/
theorem arrivalRowsComplete : Obligations.ArrivalRowsComplete := by
  unfold Obligations.ArrivalRowsComplete
  refine ⟨?portSet, ?frame, ?refill, ?playout, ?anchor, ?path, ?stall, ?silence, ?nackDelay, ?nackRepeat, ?report, ?lock, ?video⟩
  case portSet => exact completes_of (fun _ _ => rfl) rfl fun _ _ => rfl
  case frame =>
    rintro s f p rfl hlane heth hdie hready hrun hup hmode hfcs hlong hfits
    have hsound : FrameSound f s.m := ⟨hlane, heth, hdie, hready, hrun, hup, hmode, hfcs, hlong, hfits⟩
    have hgo {m : M} (h : byEtherType _ _ f s.m = m) : exec (.ethFrameReceive f) s = .next (after s m) :=
      lift_of_eq (hsound.receive.trans h)
    exact ⟨fun h => hgo (byEtherType_ip h), fun h => hgo (byEtherType_ptp h), fun h hdst => hgo (byEtherType_arp h hdst),
      fun h hen hdst => hgo (byEtherType_neighbour h hen hdst), fun h => hgo (byEtherType_macsec h), fun h => hgo (byEtherType_other h)⟩
  case refill => exact fun s => lift_eq policerRefill s
  case playout => exact fun s die i x hx hnone => lift_of_eq (releaseAll_of_noneDue hx hnone)
  case anchor =>
    intro s die i x a hx ha hdue
    refine ⟨anchorMoved (100000 * mediaClock x : Nat) a x.anchorMin, anchorMoved_near a x.anchorMin, ?_, ?_,
      lift_of_eq (anchorAdjust_of_due hx ha hdue)⟩
    · intro b hb hnear
      rw [hb, anchorMoved_reaches hnear]
    · intro hnone
      rw [hnone]
      rfl
  case path => exact fun s die i => lift_eq (pathTimeout die i) s
  case stall => exact fun s die i x hx hrecv hdue => lift_of_eq (stallTimeout_of_due hx hrecv hdue)
  case silence => exact fun s die i l hl hlive hset hfirst hdue => lift_of_eq (legSilence_of_due hl hlive hset hfirst hdue)
  case nackDelay => exact fun s die i x n hx hone hunsent hdue => lift_of_eq (nackDelay_of_single hx hone hunsent hdue)
  case nackRepeat => exact fun s die i x n hx hone hsent hdue => lift_of_eq (nackRepeat_of_single hx hone hsent hdue)
  case report => exact fun s die i l hl hon hcarry hdue hoff => lift_of_eq (rtcpReport_of_following hl hon hcarry hdue hoff)
  case lock =>
    intro s die lane r frac id inv hsdi hlane hdie hdown hlow hhigh
    have hport (m : M) : getPort (after s m).m (die * 16 + lane) = getPort m (die * 16 + lane) := rfl
    refine ⟨_, lift_of_eq (sdiLock_gained hsdi hlane hdie hdown hlow hhigh frac id inv), rfl, ?_⟩
    rw [hport, getPort_raise, getPort_setPort_same]
    exact ⟨rfl, rfl, rfl, rfl⟩
  case video =>
    intro s die lane fmt id groups marks k x l hup hsdi hmode honly hleg hkind hlive _ _
    exact lift_of_eq (SdiFrameReaches.video ⟨hup, hsdi, hmode, honly, l, hleg, hlive⟩ hkind fmt id groups marks)

end Sys2Proof.Machine

/-!
Legs (R126 to R131): a leg that is gone is in no table of legs, the two ends of a drain, and the obligation of the leg commands.
-/
namespace Sys2Proof.Machine

@[simp] theorem announce_net (unit type level obj : Nat) (data : List Item) (old : Nat) (m : M) :
    (announce unit type level obj data old m).net = m.net :=
  (reports_announce ..).net_eq

/-! ## A leg becomes ABSENT (R130) -/

@[simp] theorem legEvent_net (k old new cause : Nat) (m : M) : (legEvent k old new cause m).net = m.net :=
  announce_net ..

theorem getLeg_legGone (k c : Nat) (m : M) : getLeg (legGone k c m) k = none := by
  simp only [legGone]
  cases h : getLeg m k with
  | none => exact h
  | some l =>
    simp only [getLeg, disown_net]
    split <;> simp

/-! ## The end of a drain (R129) -/

section
variable {m : M} {die i : Nat} {l : Leg} (hl : getLeg m (mkKey die i) = some l) (hdrain : l.state = 4)
include hl hdrain

theorem drainComplete_of_empty (hempty : legEmpty (mkKey die i) l m = true) : drainComplete die i m = legGone (mkKey die i) 2 m := by
  simp [drainComplete, hl, hdrain, hempty]

theorem drainLimit_of_due (hdue : l.drainAt + l.drainMs * 1000000 ≤ m.vault.mono) :
    drainLimit die i m =
      legGone (mkKey die i) 2 (queueDiscard (mkKey die i)
        ((legStreams m (mkKey die i)).foldl (fun x e => countStrm e.1 9 e.2.held.length x) m)) := by
  simp [drainLimit, hl, hdrain, Nat.not_lt.mpr hdue]

end

/-! ## The commands that place a leg (R126, R131) -/

theorem legDefine_of_free {d : Desc} {m : M} (hfree : (freeLeg m (legHome d)).isSome = true) :
    legDefine d m =
      let k := mkKey (legHome d) ((freeLeg m (legHome d)).getD 0)
      (raise 0x0A01 3 (legOid k) [.u 2 (legId k), .u 1 0, .u 1 1, .u 1 0]
        (own (legOid k) (pathFn m d.path) { m with net.legs := tset m.net.legs k (legOf d) }), okDetail (legOid k) 0 1) := by
  obtain ⟨i, hi⟩ := Option.isSome_iff_exists.mp hfree
  simp only [legDefine, hi, Option.getD_some]

theorem apply_legMove_of_free {d : Desc} {m : M} (hfree : (moveIdx d m).isSome = true) :
    legMoveSpec.apply d m =
      let v : Move := { old := legOfD d, new := mkKey (moveDie d) ((moveIdx d m).getD 0) }
      (legMove v m, .done { status := stOK, detail := legOid v.new, plain := some (legId v.old, legId v.new),
                            before := legState d m, after := legState d m }) := by
  obtain ⟨i, hi⟩ := Option.isSome_iff_exists.mp hfree
  simp only [legMoveSpec, hi, Option.getD_some]

/-- Settles O17: a leg is placed at the free index found, every other command is its spec's effect, and a drain ends when the leg is
empty or its limit passes. -/
theorem legRowsComplete : Obligations.LegRowsComplete := by
  unfold Obligations.LegRowsComplete
  refine ⟨?define, ?modify, ?delete, ?arm, ?disarm, ?drain, ?move, ?empty, ?limit, ?gone⟩
  case define => exact completesIf_of (fun _ _ => rfl) rfl fun _ _ hfree => legDefine_of_free hfree
  case modify => exact completes_of (fun _ _ => rfl) rfl fun _ _ => rfl
  case delete => exact completes_of (fun _ _ => rfl) rfl fun _ _ => rfl
  case arm => exact completes_of (fun _ _ => rfl) rfl fun _ _ => rfl
  case disarm => exact completes_of (fun _ _ => rfl) rfl fun _ _ => rfl
  case drain => exact completes_of (fun _ _ => rfl) rfl fun _ _ => rfl
  case move => exact completesIf_of (fun _ _ => rfl) rfl fun _ _ hfree => apply_legMove_of_free hfree
  case empty => exact fun s die i l hl hdrain hempty => lift_of_eq (drainComplete_of_empty hl hdrain hempty)
  case limit => exact fun s die i l hl hdrain hdue => lift_of_eq (drainLimit_of_due hl hdrain hdue)
  case gone => exact getLeg_legGone

end Sys2Proof.Machine

/-!
Receive streams and send streams (R132, R293 to R295): what a removal leaves alone, a modification that places a codec anew or not,
and the obligation of their commands.
-/
namespace Sys2Proof.Machine

/-! ## Departure leaves receive streams alone -/

theorem foldl_net {β : Type} (f : M → β → M) (hf : ∀ m b, (f m b).net = m.net) (l : List β) (m : M) : (l.foldl f m).net = m.net := by
  induction l generalizing m with
  | nil => rfl
  | cons b r ih => exact (ih _).trans (hf m b)

@[simp] theorem sendState_net (k new cause : Nat) (m : M) : (sendState k new cause m).net = m.net := by
  unfold sendState
  split
  · rfl
  · split
    · rfl
    · simp

@[simp] theorem memberLeft_net (k : Nat) (m : M) : (memberLeft k m).net = m.net := by
  unfold memberLeft
  split
  · rfl
  · split
    · simp
    · rfl

@[simp] theorem removeFwd_net (e : Nat) (m : M) : (removeFwd e m).net = m.net := by
  simp only [removeFwd]
  cases getFwd m e with
  | none => rfl
  | some f => exact foldl_net _ (fun m k => memberLeft_net k m) _ _

@[simp] theorem sourceGone_net (src : Nat) (m : M) : (sourceGone src m).net = m.net :=
  foldl_net _ (fun m e => by simp) _ _

/-! ## A stream becomes ABSENT (R130, R132, R294) -/

theorem getStrm_strmGone (k : Nat) (m : M) : getStrm (strmGone k m) k = none := by
  simp only [strmGone]
  cases h : getStrm m k with
  | none => exact h
  | some s =>
    simp only [getStrm, disown_net, sourceGone_net, foldl_net _ (fun m q => sendState_net q 1 0 m)]
    exact tget?_tdel_same ..

theorem getSend_sendGone (k : Nat) (m : M) : getSend (sendGone k m) k = none := by
  simp only [sendGone]
  cases h : getSend m k with
  | none => exact h
  | some s => simp [getSend]

/-! ## A modification that places a codec anew or not (R132, R294, R340) -/

section
variable {d : Desc} {m : M}

theorem apply_netStreamModify_stays {x : Strm} (hx : getStrm m (strmOfD d) = some x) (hstays : strmMovesInst d x = false) :
    netStreamModifySpec.apply d m =
      (updStream (strmOfD d) (fun _ => strmModify d x m) m,
        okDetail 0 x.state (streamSt (updStream (strmOfD d) (fun _ => strmModify d x m) m) (strmOfD d))) := by
  simp [netStreamModifySpec, hx, hstays]

theorem apply_netStreamModify_moves {x : Strm} (hx : getStrm m (strmOfD d) = some x) (hmoves : strmMovesInst d x = true) :
    netStreamModifySpec.apply d m =
      let g := instGone (strmOfD d) (updStream (strmOfD d) (fun _ => strmModify d x m) m)
      let m2 := if pay d 0 1 = 0 then instNew (strmOfD d) (pay d 2 1) g else g
      (m2, okDetail 0 x.state (streamSt m2 (strmOfD d))) := by
  simp [netStreamModifySpec, hx, hmoves]

theorem apply_netSendModify_stays {x : Send} (hx : getSend m (strmOfD d) = some x) (hstays : sendMovesInst d x = false) :
    netSendModifySpec.apply d m =
      (updSend (strmOfD d) (fun _ => sendModify d x m) (draw m),
        okDetail 0 x.state (streamSt (updSend (strmOfD d) (fun _ => sendModify d x m) (draw m)) (strmOfD d))) := by
  simp [netSendModifySpec, hx, hstays]

theorem apply_netSendModify_moves {x : Send} (hx : getSend m (strmOfD d) = some x) (hmoves : sendMovesInst d x = true) :
    netSendModifySpec.apply d m =
      let g := instGone (strmOfD d) (updSend (strmOfD d) (fun _ => sendModify d x m) (draw m))
      let m2 := if pay d 0 1 = 0 then instNew (strmOfD d) (pay d 2 1) g else g
      (m2, okDetail 0 x.state (streamSt m2 (strmOfD d))) := by
  simp [netSendModifySpec, hx, hmoves]

end

/-- Settles O18: a definition and a deletion are their specs' effects, a modification goes by whether its stream's codec is placed anew,
and a stream that is gone is in no table of streams. -/
theorem streamCommandsComplete : Obligations.StreamCommandsComplete := by
  unfold Obligations.StreamCommandsComplete
  refine ⟨?strmDefine, ?strmStays, ?strmMoves, ?strmDelete, ?strmGone, ?sendDefine, ?sendStays, ?sendMoves, ?sendDelete, ?sendGone⟩
  case strmDefine => exact completes_of (fun _ _ => rfl) rfl fun _ _ => rfl
  case strmStays => exact fun x => completesIf_of (fun _ _ => rfl) rfl fun _ _ ⟨hx, hstays⟩ => apply_netStreamModify_stays hx hstays
  case strmMoves => exact fun x => completesIf_of (fun _ _ => rfl) rfl fun _ _ ⟨hx, hmoves⟩ => apply_netStreamModify_moves hx hmoves
  case strmDelete => exact completes_of (fun _ _ => rfl) rfl fun _ _ => rfl
  case strmGone => exact getStrm_strmGone
  case sendDefine => exact completes_of (fun _ _ => rfl) rfl fun _ _ => rfl
  case sendStays => exact fun x => completesIf_of (fun _ _ => rfl) rfl fun _ _ ⟨hx, hstays⟩ => apply_netSendModify_stays hx hstays
  case sendMoves => exact fun x => completesIf_of (fun _ _ => rfl) rfl fun _ _ ⟨hx, hmoves⟩ => apply_netSendModify_moves hx hmoves
  case sendDelete => exact completes_of (fun _ _ => rfl) rfl fun _ _ => rfl
  case sendGone => exact getSend_sendGone

end Sys2Proof.Machine

/-!
The key store and the cipher fabric (R149 to R165): what a key write makes of its slot's generation, one equation for each case of
the rows of caches, graces, cipher work and authentication, and the obligation of the key rows.
-/
namespace Sys2Proof.Machine

/-! ## The generation of a key write (R151) -/

section
variable (d : Desc) (now : Nat) (k : KeySlot)

/-- The number of the written generation depends neither on whether the slot was empty nor on whether a grace begins. -/
theorem slotWrite_counter_cur :
    (slotWrite d now k).counter = nextGen k.counter ∧ (slotWrite d now k).cur = some (bufGen d (nextGen k.counter)) := by
  unfold slotWrite
  cases k.cur with
  | none => exact ⟨rfl, rfl⟩
  | some c =>
    by_cases hgrace : bufN d 4 2 = 0
    · simp only [hgrace, if_true, and_self]
    · simp only [hgrace, if_false, and_self]

@[simp] theorem slotWrite_counter : (slotWrite d now k).counter = nextGen k.counter :=
  (slotWrite_counter_cur d now k).1

@[simp] theorem slotWrite_cur : (slotWrite d now k).cur = some (bufGen d (nextGen k.counter)) :=
  (slotWrite_counter_cur d now k).2

end

/-! ## The erasure of one slot (R165) -/

theorem apply_keyErase_of_one {d : Desc} (hone : payBit d 0 0 = false) (m : M) :
    keyEraseSpec.apply d m =
      (eraseSlot (slotIdx d) m,
       .done { status := stOK, detail := 0, plain := some (slotPlain (getSlot m (slotIdx d)), 0),
               before := slotCode (getSlot m (slotIdx d)), after := 0 }) := by
  simp [keyEraseSpec, applyKeyErase, hone]

/-! ## Rows of the caches, the graces and the fabric -/

/-- R154: a generation the die needs is loaded, and the operations that waited for it are served. -/
theorem keyCacheLoaded_of_required {m : M} {die slot gen : Nat} (hreq : (required154 m die).contains (slot, gen) = true) :
    keyCacheLoaded die slot gen m =
      serveDie die { cacheLoad die slot gen m with
        key.ops := (cacheLoad die slot gen m).key.ops.map fun o =>
          if o.die == die && o.slot == slot && o.gen == gen then { o with waiting := false } else o } := by
  simp only [keyCacheLoaded, hreq, Bool.not_true, Bool.false_eq_true, if_false]

/-- R153: a grace whose time has come ends. -/
theorem graceEnd_of_due {m : M} {slot : Nat} {p : KeyGen × Nat} (hprev : (getSlot m slot).prev = some p)
    (hdue : p.2 ≤ m.vault.mono) :
    graceEnd slot m = sweepSlot slot (setSlot slot { getSlot m slot with prev := none, old := (getSlot m slot).old ++ [p.1] } m) := by
  simp only [graceEnd, hprev, Nat.not_lt.mpr hdue, if_false]

section
variable {m : M} {id : Nat} {o : CipOp} (hop : findOp m id = some o)
include hop

/-- R149: the cipher work of a packet to send ends; its flow hands it on in token order. -/
theorem cipherDone_of_sent {f : Nat} (hserved : o.st = 1) (hsend : o.rx = false) (hpacket : o.report = none)
    (hflow : flowOfOp m o.die o.id = some f) :
    cipherDone id m =
      endOp o (egressFlow o.die f (setFlow o.die f (flowMark (fun i => i.op == some o.id) 1 (getFlow m o.die f)) m)) := by
  simp [cipherDone, hop, hserved, hsend, hpacket, hflow]

/-- R158: with a receive half held, the verdict on a packet whose work has begun is the one brought. -/
theorem authResult_of_half {g : KeyGen} (hbegun : o.st ≠ 0) (hrx : o.rx = true) (hgen : opGen m o = some g)
    (hhalf : bit g.halves 0 = true) (ok prevOk : Bool) :
    authResult id ok prevOk m = releaseAll o.stream (authEnds o ok prevOk m) := by
  simp [authResult, hop, hbegun, hrx, hgen, hhalf]

end

/-- Settles O12: a command is its spec's effect, a write takes the next generation number, and a row is the equation of its meaning in
the case that its hypotheses single out. -/
theorem keyRowsComplete : Obligations.KeyRowsComplete := by
  unfold Obligations.KeyRowsComplete
  refine ⟨?write, ?generation, ?clear, ?erase, ?alarmSet, ?alarmClear, ?authSet, ?rocSet, ?cache, ?grace, ?cipher, ?auth⟩
  case write => exact completes_of (fun _ _ => rfl) rfl fun _ _ => rfl
  case generation =>
    intro d now k _
    simp [nextGen, bufGen]
  case clear => exact completes_of (fun _ _ => rfl) rfl fun _ _ => rfl
  case erase => exact completesIf_of (fun _ _ => rfl) rfl fun _ m hone => apply_keyErase_of_one hone m
  case alarmSet => exact completes_of (fun _ _ => rfl) rfl fun _ _ => rfl
  case alarmClear => exact completes_of (fun _ _ => rfl) rfl fun _ _ => rfl
  case authSet => exact completes_of (fun _ _ => rfl) rfl fun _ _ => rfl
  case rocSet => exact completes_of (fun _ _ => rfl) rfl fun _ _ => rfl
  case cache => exact fun s die slot gen hreq => lift_of_eq (keyCacheLoaded_of_required hreq)
  case grace => exact fun s slot p hprev hdue => lift_of_eq (graceEnd_of_due hprev hdue)
  case cipher => exact fun s id o f hop hserved hsend hpacket hflow => lift_of_eq (cipherDone_of_sent hop hserved hsend hpacket hflow)
  case auth => exact fun s id ok pok o g hop hbegun hrx hgen hhalf => lift_of_eq (authResult_of_half hop hbegun hrx hgen hhalf ok pok)

end Sys2Proof.Machine

/-!
The air-link modem (R167 to R186): where the word of a MOD_GAIN_SET goes, one equation for each case of the rows of lanes, receive
stages, transport stream, front end and symbols, and the obligation of the modem's rows.
-/
namespace Sys2Proof.Machine

/-! ## The word of a MOD_GAIN_SET (R180, R181) -/

/-- Where the word goes: kept without the claim (log 79), sent on a free wire, or behind the frame in progress. -/
def gainRouted (d : Desc) (x : Modem) (claim : Bool) (m : M) : M :=
  if !claim then updMod (modDie d) (modCh d) (fun y => { y with kept := some (pay d 0 4) }) m
  else if x.wire.isNone then spiStart (modDie d) (modCh d) (pay d 0 4) m
  else updMod (modDie d) (modCh d) (fun y => { y with queue := y.queue ++ [pay d 0 4] }) m

section
variable {d : Desc} {m : M} {x : Modem}

theorem gainRouted_unclaimed :
    gainRouted d x false m = updMod (modDie d) (modCh d) (fun y => { y with kept := some (pay d 0 4) }) m := rfl

theorem gainRouted_behind (hwire : x.wire.isSome) :
    gainRouted d x true m = updMod (modDie d) (modCh d) (fun y => { y with queue := y.queue ++ [pay d 0 4] }) m := by
  simp [gainRouted, Option.isSome_iff_ne_none.mp hwire]

theorem gainRouted_sent (hwire : x.wire.isNone) : gainRouted d x true m = spiStart (modDie d) (modCh d) (pay d 0 4) m :=
  if_pos hwire

theorem apply_modGainSet_of_channel (hx : modOf d m = some x) :
    modGainSetSpec.apply d m =
      (gainRouted d x (claimHeld m) (updMod (modDie d) (modCh d) (fun y => { y with word := pay d 0 4 }) m),
        .done { reply stOK 0 (modState d m) with plain := (modOf d m).map fun x => (x.word, pay d 0 4) }) := by
  simp only [modGainSetSpec, applyGainSet, gainRouted, modState, hx, Option.map_some]

end

/-! ## What befalls a lane (R168) -/

section
variable {m : M} {die lane c : Nat} {x : Modem} (hlane : laneChannel m die lane = some c) (hx : getMod m die c = some x)
include hlane hx

theorem jesdSync_gained (hoff : x.jesd = false) (inv : Bool) :
    jesdSync die lane { sync := true, inverted := inv } m =
      raise 0x0F03 1 (modOid die c) [.u 1 c, .u 1 1]
        (updMod die c (fun y => { y with jesd := true }) (laneSensed die lane inv m)) := by
  simp [jesdSync, hlane, hx, hoff, b2n]

/-- Without sync a receiving channel is at stage 0. -/
theorem jesdSync_lost (hon : x.jesd = true) (inv : Bool) :
    jesdSync die lane { sync := false, inverted := inv } m =
      let lost := raise 0x0F03 1 (modOid die c) [.u 1 c, .u 1 0] (updMod die c (fun y => { y with jesd := false }) m)
      if x.state = 2 then setStage die c 0 0 lost else lost := by
  simp [jesdSync, hlane, hx, hon, b2n]

theorem iqOverrun_of_channel :
    iqOverrun die lane m =
      if x.state = 2 then setStage die c 0 0 (countMod die c 6 1 m) else countMod die c 6 1 m := by
  simp only [iqOverrun, hlane, Option.getD_some, hx]

end

section
variable {m : M} {die c : Nat} {x : Modem}

/-! ## Receive stages (R173, R174) -/

section
variable {cfg : ModCfg} (hx : getMod m die c = some x) (hcfg : x.cfg = some cfg) (hrecv : x.state = 2)
include hx hcfg hrecv

theorem modStage_falls {new : Nat} (hsync : x.jesd = true) (hbelow : new < x.stage) (hlast : x.stage ≤ 5) (p : ModSync) :
    modStage die c new p m = setStage die c new 0 m := by
  have hknown : ¬ 5 < new := by omega
  simp [modStage, hx, hcfg, hrecv, hsync, hbelow, hknown]

theorem modStage_signal (hsync : x.jesd = true) (hnone : x.stage = 0) (p : ModSync) :
    modStage die c 1 p m = setStage die c 1 0 m := by
  simp [modStage, hx, hcfg, hrecv, hsync, hnone]

/-- The search ends with its time-out, so that it times out once (log 79). -/
theorem lockTimeout_of_due {t : Nat} (hsearch : x.searchAt = some t) (hstage : x.stage < 5)
    (hdue : t + cfg.lockTimeout * 1000000 ≤ m.vault.mono) :
    lockTimeout die c m =
      setStage die c 0 2 (countMod die c 3 1 (updMod die c (fun y => { y with searchAt := none }) m)) := by
  simp [lockTimeout, hx, hcfg, hrecv, hsearch, hstage, hdue]

end

/-! ## Transport stream output and measurement (R173, R179, R182) -/

section
variable (hx : getMod m die c = some x) (hrecv : x.state = 2) (hts : x.stage = 5)
include hx hrecv hts

theorem modTs_good (n : Nat) (media : Payload) :
    modTs die c n false media m =
      tsHand die c media (countMod die c 0 n (updMod die c (fun y => { y with badRun := 0 }) m)) := by
  simp [modTs, hx, hrecv, hts]

/-- The 32nd uncorrectable packet in a row. -/
theorem modTs_losesLock (hrun : x.badRun = 31) (n : Nat) (media : Payload) :
    modTs die c n true media m =
      setStage die c 4 0 (tsHand die c { media with tei := true }
        (countMod die c 1 1 (updMod die c (fun y => { y with badRun := y.badRun + 1 }) m))) := by
  simp [modTs, hx, hrecv, hts, hrun]

end

/-- A power between the floor and the register's top reads as it is. -/
theorem floored_satS_of_fits {v : Int} (hlow : -1000 ≤ v) (hhigh : v ≤ 32767) : (if v < -1000 then -1000 else satS 16 v) = v := by
  simp only [satS]
  split_ifs <;> omega

theorem modIq_of_open (hx : (getMod m die c).isSome) (hopen : tickOpen m (tkIq die c) 1000000 = true) {p q : Int}
    (hp : -1000 ≤ p ∧ p ≤ 32767) (hq : -1000 ≤ q ∧ q ≤ 32767) (n : Nat) :
    modIq die c p q n m =
      tickMark (tkIq die c) 1000000 (countMod die c 5 n (updMod die c (fun y => { y with power := p, peak := q }) m)) := by
  simp [modIq, Option.isSome_iff_ne_none.mp hx, hopen, floored_satS_of_fits hp.1 hp.2, floored_satS_of_fits hq.1 hq.2]

/-! ## The front end (R180) -/

section
variable (hx : getMod m die c = some x) (hwire : x.wire.isSome) (hset : x.spiNext = none)
include hx hwire hset

theorem spiDone_of_empty (hqueue : x.queue = []) (v : Nat) :
    spiDone die c v m = updMod die c (fun _ => { x with wire := none, feRx := v % 2 ^ x.spiBits }) m := by
  simp [spiDone, hx, Option.isSome_iff_ne_none.mp hwire, hset, hqueue]

theorem spiDone_of_next {w : Nat} {r : List Nat} (hqueue : x.queue = w :: r) (hclaim : claimHeld m = true) (v : Nat) :
    spiDone die c v m =
      spiStart die c w (updMod die c (fun _ => { x with wire := none, feRx := v % 2 ^ x.spiBits, queue := r }) m) := by
  simp [spiDone, hx, Option.isSome_iff_ne_none.mp hwire, hset, hqueue, hclaim]

end

/-! ## Transmission (R183, R184) -/

/-- A symbol within its mask, on a part that holds the claim. -/
theorem txSymbol_of_clean {x0 : Modem} {cfg : ModCfg} {bins : List (Int × Nat)} (hx0 : getMod m die c = some x0)
    (hstart : symbolStart x0 = x) (hcfg : x.cfg = some cfg) (hsends : x0.state = 3 ∨ x0.state = 4) (htx : x.state = 3)
    (hclean : maskWorst (halfBand cfg) (x.mask.getD []) bins = none) (hclaim : claimHeld m = true) :
    txSymbol die c bins m =
      let n := symbolSlots cfg x.slotAcc
      let a := takeSlots die c n.1 (updMod die c (fun _ => { x with slotAcc := n.2 }) m, [])
      updMod die c (fun y => { y with violRun := 0 }) (emit (.net 9 die c (txOut x cfg a.2)) a.1) := by
  have hgate : (x0.state == 3 || x0.state == 4) = true := by simpa using hsends
  simp only [txSymbol, hx0, hstart, hcfg, hgate, htx, hclean, hclaim, Bool.not_true, Bool.false_eq_true, ne_eq, not_true_eq_false,
    if_false, if_true]

end

/-- Settles O20: MOD_GAIN_SET goes by the claim and the wire, every other command is its spec's effect, and a row is the equation of its
meaning in the case that its hypotheses single out. -/
theorem modemRowsComplete : Obligations.ModemRowsComplete := by
  unfold Obligations.ModemRowsComplete
  refine ⟨?config, ?start, ?stop, ?feSet, ?gainKept, ?gainWaits, ?gainSent, ?firSet, ?maskSet, ?unmute, ?falls, ?signal, ?gained, ?lost,
    ?lostReceiving, ?overrunReceiving, ?overrun, ?lockTimeout, ?tsGood, ?tsLost, ?iq, ?spiEmpty, ?spiNext, ?symbol⟩
  case config => exact completes_of (fun _ _ => rfl) rfl fun _ _ => rfl
  case start => exact completes_of (fun _ _ => rfl) rfl fun _ _ => rfl
  case stop => exact completes_of (fun _ _ => rfl) rfl fun _ _ => rfl
  case feSet => exact completes_of (fun _ _ => rfl) rfl fun _ _ => rfl
  case gainKept =>
    refine completesIf_of (fun _ _ => rfl) rfl fun d m ⟨hchan, hclaim⟩ => ?_
    obtain ⟨x, hx⟩ := Option.isSome_iff_exists.mp hchan
    rw [apply_modGainSet_of_channel hx, hclaim, gainRouted_unclaimed]
  case gainWaits =>
    refine completesIf_of (fun _ _ => rfl) rfl fun d m ⟨hclaim, x, hx, hwire⟩ => ?_
    rw [apply_modGainSet_of_channel hx, hclaim, gainRouted_behind hwire]
  case gainSent =>
    refine completesIf_of (fun _ _ => rfl) rfl fun d m ⟨hclaim, x, hx, hwire⟩ => ?_
    rw [apply_modGainSet_of_channel hx, hclaim, gainRouted_sent hwire]
  case firSet => exact completes_of (fun _ _ => rfl) rfl fun _ _ => rfl
  case maskSet => exact completes_of (fun _ _ => rfl) rfl fun _ _ => rfl
  case unmute => exact completes_of (fun _ _ => rfl) rfl fun _ _ => rfl
  case falls =>
    exact fun s die c new p x cfg hx hcfg hrecv hsync hbelow hlast => lift_of_eq (modStage_falls hx hcfg hrecv hsync hbelow hlast p)
  case signal => exact fun s die c p x cfg hx hcfg hrecv hsync hnone => lift_of_eq (modStage_signal hx hcfg hrecv hsync hnone p)
  case gained => exact fun s die lane c x inv hlane hx hoff => lift_of_eq (jesdSync_gained hlane hx hoff inv)
  case lost =>
    exact fun s die lane c x inv hlane hx hon hidle => lift_of_eq ((jesdSync_lost hlane hx hon inv).trans (if_neg hidle))
  case lostReceiving =>
    exact fun s die lane c x inv hlane hx hon hrecv => lift_of_eq ((jesdSync_lost hlane hx hon inv).trans (if_pos hrecv))
  case overrunReceiving =>
    exact fun s die lane c x hlane hx hrecv => lift_of_eq ((iqOverrun_of_channel hlane hx).trans (if_pos hrecv))
  case overrun => exact fun s die lane c x hlane hx hidle => lift_of_eq ((iqOverrun_of_channel hlane hx).trans (if_neg hidle))
  case lockTimeout =>
    exact fun s die c x cfg t hx hcfg hsearch hrecv hstage hdue => lift_of_eq (lockTimeout_of_due hx hcfg hrecv hsearch hstage hdue)
  case tsGood => exact fun s die c n media x hx hrecv hts => lift_of_eq (modTs_good hx hrecv hts n media)
  case tsLost => exact fun s die c n media x hx hrecv hts hrun => lift_of_eq (modTs_losesLock hx hrecv hts hrun n media)
  case iq =>
    exact fun s die c p q n hx hopen hplow hphigh hqlow hqhigh =>
      lift_of_eq (modIq_of_open hx hopen ⟨hplow, hphigh⟩ ⟨hqlow, hqhigh⟩ n)
  case spiEmpty => exact fun s die c v x hx hwire hset hqueue => lift_of_eq (spiDone_of_empty hx hwire hset hqueue v)
  case spiNext =>
    exact fun s die c v x w r hx hwire hset hqueue hclaim => lift_of_eq (spiDone_of_next hx hwire hset hqueue hclaim v)
  case symbol =>
    exact fun s die c bins x x0 cfg hx0 hstart hcfg hsends htx hclean hclaim =>
      lift_of_eq (txSymbol_of_clean hx0 hstart hcfg hsends htx hclean hclaim)

end Sys2Proof.Machine

/-!
Reads of the memory behind BAR4 (R214): what a sparse table reads from its pieces, and a byte of the memory after a block is written.
-/
namespace Sys2Proof.Machine

/-! ## A table from its pieces -/

theorem tget?_append {α : Type} (s t : Tbl α) (i : Nat) : tget? (s ++ t) i = (tget? s i).or (tget? t i) := by
  induction s with
  | nil => rfl
  | cons p r ih =>
    obtain ⟨k, v⟩ := p
    by_cases hk : k = i
    · simp [tget?, hk]
    · simpa [tget?, hk] using ih

/-- A table cut down to some keys reads at those keys as before. -/
theorem tget?_filter {α : Type} (p : Nat → Bool) (t : Tbl α) (i : Nat) :
    tget? (t.filter fun c => p c.1) i = if p i then tget? t i else none := by
  induction t with
  | nil => simp
  | cons c r ih =>
    obtain ⟨k, v⟩ := c
    by_cases hk : k = i
    · subst hk
      cases hp : p k <;> simp [tget?, hp, ih]
    · cases hp : p k <;> simp [tget?, hp, hk, ih]

/-! ## A byte of a block -/

/-- The cells of a block, the first of its bytes at offset `n` from `a`: of no byte that reads as an unlisted one, 0. -/
def blockCells (a n : Nat) (l : List Nat) : List Host.Cell :=
  (l.zipIdx n).filterMap fun p => if BitVec.ofNat 8 p.1 = 0#8 then none else some (a + p.2, BitVec.ofNat 8 p.1)

theorem blockCells_cons (a n x : Nat) (l : List Nat) :
    blockCells a n (x :: l) =
      if BitVec.ofNat 8 x = 0#8 then blockCells a (n + 1) l else (a + n, BitVec.ofNat 8 x) :: blockCells a (n + 1) l := by
  by_cases hx : BitVec.ofNat 8 x = 0#8 <;> simp [blockCells, hx]

theorem tget?_blockCells_of_outside {a n i : Nat} {l : List Nat} (h : i < a + n ∨ a + n + l.length ≤ i) :
    tget? (blockCells a n l) i = none := by
  induction l generalizing n with
  | nil => rfl
  | cons x l ih =>
    rw [List.length_cons] at h
    have hrest : tget? (blockCells a (n + 1) l) i = none := ih (by omega)
    have hne : a + n ≠ i := by omega
    by_cases hx : BitVec.ofNat 8 x = 0#8 <;> simp [blockCells_cons, hx, tget?, hne, hrest]

/-- The byte at a place of a block, listed or 0. -/
theorem byte_blockCells (a n : Nat) (l : List Nat) {j : Nat} (hj : j < l.length) :
    Memory.byte (blockCells a n l) (a + n + j) = BitVec.ofNat 8 (l.getD j 0) := by
  induction l generalizing n j with
  | nil => cases hj
  | cons x l ih =>
    unfold Memory.byte tget at *
    rw [blockCells_cons]
    cases j with
    | zero =>
      have hrest : tget? (blockCells a (n + 1) l) (a + n) = none := tget?_blockCells_of_outside (.inl (by omega))
      by_cases hx : BitVec.ofNat 8 x = 0#8 <;> simp [hx, tget?, hrest]
    | succ j =>
      have hrest := ih (n + 1) (Nat.lt_of_succ_lt_succ hj)
      have hplace : a + (n + 1) + j = a + n + (j + 1) := by omega
      rw [hplace] at hrest
      by_cases hx : BitVec.ofNat 8 x = 0#8 <;> simpa [hx, tget?] using hrest

/-! ## A byte of the memory -/

theorem tget?_cellsBlock (a : Nat) (l : List Nat) (w : List Host.Cell) (i : Nat) :
    tget? (cellsBlock a l w) i =
      ((if i < a then tget? w i else none).or (tget? (blockCells a 0 l) i)).or
        (if a + l.length ≤ i then tget? w i else none) := by
  have hbelow := tget?_filter (fun k => decide (k < a)) w i
  have habove := tget?_filter (fun k => decide (a + l.length ≤ k)) w i
  simp only [decide_eq_true_eq] at hbelow habove
  rw [← hbelow, ← habove, ← tget?_append, ← tget?_append]
  rfl

theorem byte_cellsBlock (a : Nat) (l : List Nat) (w : List Host.Cell) (i : Nat) :
    Memory.byte (cellsBlock a l w) i =
      if a ≤ i ∧ i < a + l.length then BitVec.ofNat 8 (l.getD (i - a) 0) else Memory.byte w i := by
  unfold Memory.byte tget
  rw [tget?_cellsBlock]
  by_cases hbelow : i < a
  · have hout : ¬ (a ≤ i ∧ i < a + l.length) := by omega
    have habove : ¬ a + l.length ≤ i := by omega
    simp [hbelow, hout, habove, tget?_blockCells_of_outside (n := 0) (.inl hbelow)]
  · by_cases habove : a + l.length ≤ i
    · have hout : ¬ (a ≤ i ∧ i < a + l.length) := by omega
      simp [hbelow, hout, habove, tget?_blockCells_of_outside (n := 0) (.inr habove)]
    · have hin : a ≤ i ∧ i < a + l.length := by omega
      have hread := byte_blockCells a 0 l (j := i - a) (by omega)
      have hplace : a + 0 + (i - a) = i := by omega
      rw [hplace] at hread
      rw [if_neg hbelow, if_neg habove, if_pos hin, Option.none_or, Option.or_none]
      exact hread

end Sys2Proof.Machine

/-!
The decoder (R190 to R214): what each command makes of a context that it finds, one equation for each case of the rows of access units,
pictures, refresh and snapshots, and the obligation of the decoder's rows.
-/
namespace Sys2Proof.Machine

/-! ## COD_CONTEXT_OPEN (R194) -/

theorem apply_codContextOpen_of_place {d : Desc} {m : M} {k : Nat} (hk : codPlace d m = some k) :
    codContextOpenSpec.apply d m =
      (own (ctxOid k) (pathFn m d.path)
        (reserve (keyDie k) (ctxReserve (ctxOf d)).1 (ctxReserve (ctxOf d)).2 { m with cod.ctxs := tset m.cod.ctxs k (ctxOf d) }),
       okDetail (if pay d 2 1 = 0xFF || oidDie (oid d) = 0 then ctxOid k else 0) 0 1) := by
  simp only [codContextOpenSpec, hk]

/-! ## COD_CONTEXT_MODIFY and COD_CONTEXT_CLOSE (R195, R197) -/

/-- An OPEN context under the new settings `n`: what it has presented and still runs stays, its windows stay with their rate, and the
most recent picture stays with its stream (log 125). -/
def ctxRefitted (n x : Ctx) : Ctx :=
  { n with state := x.state, lastPli := x.lastPli, shown := x.shown, clean := x.clean, wasTainted := x.wasTainted, outNow := x.outNow,
           outLate := x.outLate, queue := x.queue, lateBy := x.lateBy, busy := x.busy, stopping := x.stopping,
           recent := if n.stream = x.stream then x.recent else none,
           window := if n.num = x.num && n.den = x.den then x.window else none, unsupSeen := x.unsupSeen }

section
variable {d : Desc} {m : M} {c : Ctx} (hc : getCtx m (codKey d) = some c)
include hc

theorem apply_codContextModify_of_ctx :
    codContextModifySpec.apply d m =
      if c.state = 2 then (updCtx (codKey d) (fun x => { x with pliMs := (ctxOf d).pliMs }) m, okReply 2)
      else
        (modReserve (oidDie (oid d)) (ctxReserve c) (ctxReserve (ctxOf d)) (updCtx (codKey d) (ctxRefitted (ctxOf d)) m),
         okReply 1) := by
  simp only [codContextModifySpec, hc]
  rfl

theorem applyCodClose_of_ctx :
    applyCodClose d m =
      if c.busy then (updCtx (codKey d) (fun x => { x with state := 3 }) (ctxStop (codKey d) m), okDetail 0 c.state 3)
      else (ctxGone (codKey d) (ctxStop (codKey d) m), okDetail 0 c.state 0) := by
  simp only [applyCodClose, hc]

end

/-! ## COD_LAYER_SELECT (R212) -/

/-- The lower of two target bytes, spatial and temporal field apart. -/
def targetLower (a b : Nat) : Nat := min (a % 16) (b % 16) + 16 * min (a / 16) (b / 16)

theorem targetLower_comm (a b : Nat) : targetLower a b = targetLower b a := by
  rw [targetLower, targetLower, Nat.min_comm (a % 16), Nat.min_comm (a / 16)]

theorem targetLower_of_le {a b : Nat} (hs : a % 16 ≤ b % 16) (ht : a / 16 ≤ b / 16) : targetLower a b = a := by
  rw [targetLower, Nat.min_eq_left hs, Nat.min_eq_left ht, Nat.mod_add_div]

section
variable {d : Desc} {m : M} {c : Ctx} (hc : getCtx m (codKey d) = some c)
include hc

/-- The target falls at once; what it does not reach waits for a switching point. -/
theorem applyLayerSelect_of_ctx {t : Nat} (ht : targetLower c.target (pay d 0 1) = t) :
    applyLayerSelect d m =
      (updCtx (codKey d) (fun x => { x with target := t, higher := if t = pay d 0 1 then none else some (pay d 0 1) }) m,
       .done { reply stOK 0 c.state with plain := some (c.higher.getD c.target, pay d 0 1) }) := by
  subst ht
  simp only [applyLayerSelect, hc, targetLower, min_def_lt]

theorem applyLayerSelect_rises (hs : c.target % 16 ≤ pay d 0 1 % 16) (ht : c.target / 16 ≤ pay d 0 1 / 16)
    (hne : c.target ≠ pay d 0 1) :
    applyLayerSelect d m =
      (updCtx (codKey d) (fun x => { x with target := c.target, higher := some (pay d 0 1) }) m,
       .done { reply stOK 0 c.state with plain := some (c.higher.getD c.target, pay d 0 1) }) := by
  rw [applyLayerSelect_of_ctx hc (targetLower_of_le hs ht), if_neg hne]

theorem applyLayerSelect_falls (hs : pay d 0 1 % 16 ≤ c.target % 16) (ht : pay d 0 1 / 16 ≤ c.target / 16) :
    applyLayerSelect d m =
      (updCtx (codKey d) (fun x => { x with target := pay d 0 1, higher := none }) m,
       .done { reply stOK 0 c.state with plain := some (c.higher.getD c.target, pay d 0 1) }) := by
  rw [applyLayerSelect_of_ctx hc ((targetLower_comm ..).trans (targetLower_of_le hs ht)), if_pos rfl]

end

/-! ## A need for a PLI (R211) -/

section
variable {m : M} {k : Nat} {c : Ctx} (hc : getCtx m k = some c)
include hc

theorem pliNow_of_ctx :
    pliNow k m =
      sendPli c.stream (countCod k 10 1 (updCtx k (fun x => { x with lastPli := some m.dev, pliWait := false }) m)) := by
  simp only [pliNow, hc]

section
variable (hfeed : ctxFeedback m c = true)
include hfeed

theorem pliNeed_of_open (hopen : pliOpen c m = true) : pliNeed k m = pliNow k m := by
  simp [pliNeed, hc, hfeed, hopen]

/-- Within the interval of the last PLI the first need waits for its end. -/
theorem pliNeed_of_closed (hclosed : pliOpen c m = false) (hfirst : c.pliWait = false) (hroom : eventRoom m (keyDie k) = true) :
    pliNeed k m = countCod k 11 1 (updCtx k (fun x => { x with pliWait := true }) m) := by
  simp [pliNeed, hc, hfeed, hclosed, hfirst, hroom]

end

end

theorem pliExpiry_of_waiting {m : M} {die idx : Nat} {c : Ctx} (hc : getCtx m (mkKey die idx) = some c) (hrun : c.state = 2)
    (hwait : c.pliWait = true) (hlast : c.lastPli.isSome) (hopen : pliOpen c m = true) (hfeed : ctxFeedback m c = true) :
    pliExpiry die idx m = pliNow (mkKey die idx) m := by
  simp [pliExpiry, hc, hrun, hwait, hlast, hopen, hfeed]

/-! ## COD_REFRESH (R211) -/

section
variable {d : Desc} {m : M}

theorem apply_codRefresh_unforced (hforce : isForce d = false) :
    codRefreshSpec.apply d m = (pliNeed (codKey d) m, .done (reply stOK 0 2)) := by
  simp [codRefreshSpec, hforce, okReply]

/-- A forced PLI goes out inside the interval too. -/
theorem apply_codRefresh_forced {c : Ctx} (hc : getCtx m (codKey d) = some c) (hfeed : ctxFeedback m c = true)
    (hforce : isForce d = true) (hnone : c.pliWait = false) :
    codRefreshSpec.apply d m = (pliNow (codKey d) m, .done (reply stOK 0 2)) := by
  simp [codRefreshSpec, hc, hfeed, hforce, hnone, okReply]

end

/-! ## Snapshots (R214) -/

/-- A snapshot of descriptor `n` runs: the picture is held until the copy is complete. -/
def snapBegun (d : Desc) (n : Nat) (m : M) : M :=
  let die := oidDie (oid d)
  setPool die { getPool (cmpHold (die, n) m) die with snap := some (d, n, pay d 0 8, snapBytes d m) } (cmpHold (die, n) m)

theorem apply_fbpSnapshot_of_pic {d : Desc} {m : M} {n : Nat} {b : Buf} (hpic : snapPic d m = some (n, b)) :
    fbpSnapshotSpec.apply d m = (snapBegun d n m, .later) := by
  simp only [fbpSnapshotSpec, hpic, snapBegun]

theorem snapshotDone_of_running {m : M} {die n at_ len : Nat} {d : Desc} (hsnap : (getPool m die).snap = some (d, n, at_, len)) :
    snapshotDone die m =
      let m1 := cmpDrop (die, n) (setPool die { getPool m die with snap := none } (copyPicture die n at_ m))
      finish d false (reply stOK len (codState d m1)) m1 := by
  simp only [snapshotDone, hsnap]

theorem copyPicture_of_buf {m : M} {die n : Nat} {b : Buf} (hb : getBuf m die n = some b) (at_ : Nat) :
    copyPicture die n at_ m = draw { m with host.backing := cellsBlock at_ (pictureBytes b m.drawn) m.host.backing } := by
  simp only [copyPicture, hb]

/-! ## Access units (R198) -/

theorem auArrived_of_waiting {m : M} {k : Nat} {c : Ctx} {i : AuInfo} (hc : getCtx m k = some c) (hwait : c.waitingRap = true)
    (hother : i.rap = false) : auArrived k i m = countCod k 8 1 m := by
  simp [auArrived, hc, hwait, hother]

/-- A unit of an RTP stream of codec 16 that no loss touches arrives as its bitstream says. -/
theorem auComplete_of_whole {m : M} {die idx n : Nat} {c : Ctx} {x : Strm} {info : AuInfo}
    (hc : getCtx m (mkKey die idx) = some c) (hrun : c.state = 2) (hx : getStrm m c.stream = some x) (hkind : x.kind ≠ 8)
    (hlen : auLen false none c.inbox = some n) (hwhole : auLost info.headLost (c.inbox.take n) = false) (hsaid : info.lost = false)
    (hcodec : c.codec = 16) :
    auComplete die idx info m =
      auArrived (mkKey die idx) info
        (countCod (mkKey die idx) 6 info.badNal (updCtx (mkKey die idx) (fun y => { y with inbox := y.inbox.drop n }) m)) := by
  have hpes : (x.kind == 8) = false := by simp [hkind]
  have hinfo : { info with lost := false } = info := by rw [← hsaid]
  simp [auComplete, hc, hrun, hx, hpes, hlen, hwhole, hsaid, hcodec, hinfo]

/-! ## Pictures (R199, R200) -/

/-- The picture on the engine is decoded, and a descriptor is free for it. -/
theorem pictureDone_of_running {m : M} {die idx n : Nat} {c : Ctx} {q : Nat × Nat × AuInfo} {r : List (Nat × Nat × AuInfo)}
    (hc : getCtx m (mkKey die idx) = some c) (hqueue : c.queue = q :: r) (hbusy : c.busy = true)
    (hengine : onEngine m (mkKey die idx) = true) (hfree : freeDesc (decodeStrobe (mkKey die idx) m) die = some n) (pic : PicInfo) :
    pictureDone die idx pic m =
      engineFree (mkKey die idx) (pictureEnds (mkKey die idx) q
        (storePicture (mkKey die idx) n q.2.2 (decide (q.2.1 ≤ m.dev)) pic (decodeStrobe (mkKey die idx) m))) := by
  simp [pictureDone, hc, hqueue, hbusy, hengine, hfree]

/-- Settles O21: a command is its spec's effect on the context that it finds, in the case that its hypotheses single out, a row is the
equation of its meaning, and the copy of a snapshot reads back byte for byte. -/
theorem decoderRowsComplete : Obligations.DecoderRowsComplete := by
  unfold Obligations.DecoderRowsComplete
  refine ⟨?opened, ?modifyRunning, ?modifyOpen, ?start, ?stop, ?close, ?closing, ?rises, ?falls, ?refreshOpen, ?refreshForced,
    ?refreshWaits, ?snapshot, ?snapshotDone, ?copy, ?readBack, ?pliExpiry, ?unit, ?waitsForRap, ?picture⟩
  case opened =>
    refine completesIf_of (fun _ _ => rfl) rfl fun d m hplace => ?_
    obtain ⟨k, hk⟩ := Option.isSome_iff_exists.mp hplace
    rw [apply_codContextOpen_of_place hk, hk]
    rfl
  case modifyRunning =>
    exact fun c => completesIf_of (fun _ _ => rfl) rfl fun _ _ ⟨hc, hrun⟩ => (apply_codContextModify_of_ctx hc).trans (if_pos hrun)
  case modifyOpen =>
    exact fun c => completesIf_of (fun _ _ => rfl) rfl fun _ _ ⟨hc, hopen⟩ =>
      (apply_codContextModify_of_ctx hc).trans (if_neg (by omega))
  case start => exact completes_of (fun _ _ => rfl) rfl fun _ _ => rfl
  case stop => exact completes_of (fun _ _ => rfl) rfl fun _ _ => rfl
  case close =>
    exact fun c => completesIf_of (fun _ _ => rfl) rfl fun _ _ ⟨hc, hidle⟩ =>
      (applyCodClose_of_ctx hc).trans (if_neg (ne_true_of_eq_false hidle))
  case closing =>
    exact fun c => completesIf_of (fun _ _ => rfl) rfl fun _ _ ⟨hc, hbusy⟩ => (applyCodClose_of_ctx hc).trans (if_pos hbusy)
  case rises =>
    exact fun c => completesIf_of (fun _ _ => rfl) rfl fun _ _ ⟨hc, hs, ht, hne⟩ => applyLayerSelect_rises hc hs ht hne
  case falls => exact fun c => completesIf_of (fun _ _ => rfl) rfl fun _ _ ⟨hc, hs, ht⟩ => applyLayerSelect_falls hc hs ht
  case refreshOpen =>
    refine fun c => completesIf_of (fun _ _ => rfl) rfl fun d m ⟨hc, hfeed, hforce, hopen⟩ => ?_
    rw [apply_codRefresh_unforced hforce, pliNeed_of_open hc hfeed hopen, pliNow_of_ctx hc]
  case refreshForced =>
    refine fun c => completesIf_of (fun _ _ => rfl) rfl fun d m ⟨hc, hfeed, hforce, hnone⟩ => ?_
    rw [apply_codRefresh_forced hc hfeed hforce hnone, pliNow_of_ctx hc]
  case refreshWaits =>
    refine fun c => completesIf_of (fun _ _ => rfl) rfl fun d m ⟨hc, hfeed, hforce, hclosed, hfirst, hroom⟩ => ?_
    rw [apply_codRefresh_unforced hforce, pliNeed_of_closed hc hfeed hclosed hfirst hroom]
  case snapshot =>
    exact fun n b => actsIf_of (fun _ _ => rfl) rfl fun _ late _ hpic => applyCmd_of_later (apply_fbpSnapshot_of_pic hpic) rfl late
  case snapshotDone => exact fun s die d n at_ len hsnap => lift_of_eq (snapshotDone_of_running hsnap)
  case copy => exact fun m die n at_ b hb => copyPicture_of_buf hb at_
  case readBack => exact fun a l w i _ => byte_cellsBlock a l w i
  case pliExpiry =>
    exact fun s die idx c hc hrun hwait hlast hopen hfeed => lift_of_eq (pliExpiry_of_waiting hc hrun hwait hlast hopen hfeed)
  case unit =>
    exact fun s die idx info c x n hc hrun hx hkind hlen hwhole hsaid hcodec =>
      lift_of_eq (auComplete_of_whole hc hrun hx hkind hlen hwhole hsaid hcodec)
  case waitsForRap => exact fun k i m c hc hwait hother => auArrived_of_waiting hc hwait hother
  case picture =>
    exact fun s die idx pic c q r n hc hqueue hbusy hengine hfree =>
      lift_of_eq (pictureDone_of_running hc hqueue hbusy hengine hfree pic)

end Sys2Proof.Machine

/-!
Ramps (R229): the bisection that finds a code, the n-th root that it takes for the decibel form, and the obligation of the two forms of a
ramp.
-/
namespace Sys2Proof.Machine

/-! ## The bisection -/

/-- Halving keeps a test that holds at the lower end and fails just above the upper one, so that it ends where the test changes. -/
theorem largest_boundary {p : Nat → Bool} {n lo hi : Nat} (hle : lo ≤ hi) (hfuel : hi - lo < 2 ^ n) (hlo : p lo = true)
    (hhi : p (hi + 1) = false) : p (largest p n lo hi) = true ∧ p (largest p n lo hi + 1) = false := by
  induction n generalizing lo hi with
  | zero =>
    obtain rfl : lo = hi := by omega
    exact ⟨hlo, hhi⟩
  | succ n ih =>
    simp only [largest]
    by_cases hend : hi ≤ lo
    · obtain rfl : lo = hi := by omega
      simpa using ⟨hlo, hhi⟩
    · rw [if_neg hend]
      cases hmid : p ((lo + hi + 1) / 2) with
      | true => exact ih (by omega) (by omega) hmid hhi
      | false => exact ih (by omega) (by omega) hlo (by rwa [Nat.sub_add_cancel (by omega)])

/-- The greatest number whose `n`-th power is at most `v`. -/
theorem largest_root {n v f hi : Nat} (hfuel : hi < 2 ^ f) (hn : n ≠ 0) (hv : v < (hi + 1) ^ n) :
    largest (fun c => decide (c ^ n ≤ v)) f 0 hi ^ n ≤ v ∧ v < (largest (fun c => decide (c ^ n ≤ v)) f 0 hi + 1) ^ n := by
  simpa using largest_boundary (p := fun c => decide (c ^ n ≤ v)) (Nat.zero_le hi) hfuel (by simp [hn]) (by simpa using hv)

/-! ## The two forms -/

/-- Codes of 20 bits, mixed in `n` factors, stay below the `n`-th power of 2^20. -/
theorem pow_mul_pow_lt_of_codes {a b k n : Nat} (ha : a < 2 ^ 20) (hb : b < 2 ^ 20) (hk : k ≤ n) (hn : n ≠ 0) :
    a ^ (n - k) * b ^ k < (1048575 + 1) ^ n := by
  calc a ^ (n - k) * b ^ k
      ≤ 1048575 ^ (n - k) * 1048575 ^ k := Nat.mul_le_mul (Nat.pow_le_pow_left (by omega) _) (Nat.pow_le_pow_left (by omega) _)
    _ = 1048575 ^ n := by rw [← Nat.pow_add, Nat.sub_add_cancel hk]
    _ < (1048575 + 1) ^ n := Nat.pow_lt_pow_left (by omega) hn

/-- The model takes the root with k / n in lowest terms; the powers with `k` and `n` themselves compare alike. -/
theorem dbCode_bounds {a b k n : Nat} (ha : a < 2 ^ 20) (hb : b < 2 ^ 20) (hk : k ≤ n) (hn : 0 < n) :
    dbCode a b k n ^ n ≤ a ^ (n - k) * b ^ k ∧ a ^ (n - k) * b ^ k < (dbCode a b k n + 1) ^ n := by
  have hg : 0 < Nat.gcd k n := Nat.gcd_pos_of_pos_right k hn
  obtain ⟨k1, hk1⟩ := Nat.gcd_dvd_left k n
  obtain ⟨n1, hn1⟩ := Nat.gcd_dvd_right k n
  have hkdiv : k / Nat.gcd k n = k1 := Nat.div_eq_of_eq_mul_right hg hk1
  have hndiv : n / Nat.gcd k n = n1 := Nat.div_eq_of_eq_mul_right hg hn1
  have hk1n1 : k1 ≤ n1 := hkdiv ▸ hndiv ▸ Nat.div_le_div_right hk
  have hn10 : n1 ≠ 0 := by rintro rfl; omega
  have hcode : dbCode a b k n = largest (fun c => decide (c ^ n1 ≤ a ^ (n1 - k1) * b ^ k1)) 21 0 1048575 := by
    simp only [dbCode, hkdiv, hndiv]
  obtain ⟨hlow, hhigh⟩ := largest_root (f := 21) (by omega) hn10 (pow_mul_pow_lt_of_codes ha hb hk1n1 hn10)
  have hprod : a ^ (n - k) * b ^ k = (a ^ (n1 - k1) * b ^ k1) ^ Nat.gcd k n := by
    rw [Nat.mul_pow, ← Nat.pow_mul, ← Nat.pow_mul, Nat.sub_mul, Nat.mul_comm n1, Nat.mul_comm k1, ← hk1, ← hn1]
  have hpow (c : Nat) : c ^ n = (c ^ n1) ^ Nat.gcd k n := by
    rw [← Nat.pow_mul, Nat.mul_comm, ← hn1]
  rw [hpow, hpow, hprod, hcode]
  exact ⟨Nat.pow_le_pow_left hlow _, Nat.pow_lt_pow_left hhigh hg.ne'⟩

/-- The linear form never falls below 0. -/
theorem linearCode_nonneg {a b k n : Nat} (hk : k ≤ n) (hn : 0 < n) : 0 ≤ (a : Int) + ((b : Int) - a) * k / (n : Int) := by
  have hfall : -(a : Int) ≤ ((b : Int) - a) * k / (n : Int) := by
    rw [Int.le_ediv_iff_mul_le (by omega)]
    have hdown : (a : Int) * k ≤ a * n := by exact_mod_cast Nat.mul_le_mul_left a hk
    have hup : (0 : Int) ≤ b * k := by positivity
    linarith
  omega

section
variable {r : Ramp} {k : Nat} (hk : k ≤ r.n) (hn : 0 < r.n)
include hk hn

theorem rampCode_of_linear (hends : r.a ≤ 65 ∨ r.b ≤ 65) :
    (rampCode r k : Int) = (r.a : Int) + ((r.b : Int) - r.a) * k / (r.n : Int) := by
  have hform : rampCode r k = ((r.a : Int) + ((r.b : Int) - r.a) * k / (r.n : Int)).toNat := by
    simp [rampCode, hn.ne', Nat.not_lt.mpr hk, hends]
  rw [hform, Int.toNat_of_nonneg (linearCode_nonneg hk hn)]

theorem rampCode_of_decibel (ha : 65 < r.a) (hb : 65 < r.b) : rampCode r k = dbCode r.a r.b k r.n := by
  simp [rampCode, hn.ne', Nat.not_lt.mpr hk, Nat.not_le.mpr ha, Nat.not_le.mpr hb]

end

theorem rampCode_of_ended {r : Ramp} {k : Nat} (h : r.n = 0 ∨ r.n < k) : rampCode r k = r.b := by
  simp [rampCode, h]

/-- Settles O60: each form is an equation of the code, and the decibel form's code is the root that the bisection finds. -/
theorem rampsFollowTheirForm : Obligations.RampsFollowTheirForm := by
  unfold Obligations.RampsFollowTheirForm
  refine ⟨?zero, ?ended, ?linear, ?decibel⟩
  case zero => exact fun r k h => rampCode_of_ended (.inl h)
  case ended => exact fun r k h => rampCode_of_ended (.inr h)
  case linear => exact fun r k hstart hk hends => rampCode_of_linear hk (by omega) hends
  case decibel =>
    intro r k hstart hk ha hb ha20 hb20
    have hn : 0 < r.n := by omega
    rw [rampCode_of_decibel hk hn ha hb]
    exact dbCode_bounds ha20 hb20 hk hn

end Sys2Proof.Machine

/-!
The mixer (R217 to R238): one equation for each case of its commands and of its window's rows, what an addition makes of the mixer's
state, and the obligation of the mixer's rows.
-/
namespace Sys2Proof.Machine

/-! ## What reports and removals leave of the mixer -/

theorem Reports.mix_eq {a b : M} (h : Reports a b) : b.mix = a.mix := by
  rw [h]

@[simp] theorem noteOut_mix (o : Outcome) (m : M) : (noteOut o m).mix = m.mix := by
  simp only [noteOut]
  split <;> rfl

theorem reports_partialLate (b cause die w : Nat) (m : M) : Reports m (partialLate b cause die w m) :=
  reports_limited _ _ _ (fun _ => reports_raise ..) _

theorem getBus_dropBus (b : Nat) (m : M) : getBus (dropBus b m) b = none :=
  tget?_tdel_same ..

/-! ## The commands (R217, R219, R231) -/

theorem apply_mixBusDefine_of_die {d : Desc} {m : M} {die : Nat} (hdie : placeDie d (freeBuses m) m = some die) :
    mixBusDefineSpec.apply d m =
      let b := busNo die ((placeIdx d (fun i => (getBus m (busNo die i)).isSome) 256).getD 0)
      (own (busOid b) (pathFn m d.path)
        { m with mix.buses := tset m.mix.buses b { short := pay d 0 1 == 1, lastMask := 0, lastAdd := none, meter := meterReset } },
       okDetail (placedDetail d (busOid b)) 0 1) := by
  simp only [mixBusDefineSpec, hdie]

/-- The parameters that a MIX_XP_SET gives the inactive bank. -/
def xpParOf (d : Desc) : XpPar := { gain := pay d 4 4, rampMs := pay d 8 2, owner := xpOwner d }

/-- A crosspoint that a MIX_XP_SET makes, of the inactive bank alone. -/
def xpNew (d : Desc) : Xp :=
  { source := pay d 0 4, bus := busOf (oid d), act := none, ina := some (xpParOf d), ramp := rampAt 0, since := 0 }

section
variable {d : Desc} {m : M}

section
variable {k : Nat} {x : Xp} (hx : findXp m (pay d 0 4) (busOf (oid d)) = some (k, x))
include hx

theorem applyXpSet_of_present (hset : payBit d 12 0 = false) :
    applyXpSet d m =
      ({ m with mix.xps := tset m.mix.xps k { x with ina := some (xpParOf d) } },
       .done { status := stOK, detail := k % 16384, plain := some (xpPlain x.ina, xpPlain (some (xpParOf d))), before := 1,
               after := 1 }) := by
  simp only [applyXpSet, hx, hset, Bool.false_eq_true, if_false, xpParOf]

/-- A crosspoint of the inactive bank alone goes with its removal. -/
theorem applyXpSet_of_removed (hremove : payBit d 12 0 = true) (hinactive : x.act.isNone) :
    applyXpSet d m =
      ({ m with mix.xps := tdel m.mix.xps k },
       .done { status := stOK, detail := k % 16384, plain := some (xpPlain x.ina, 0), before := 1, after := 1 }) := by
  simp only [applyXpSet, hx, hremove, hinactive, if_true]

end

theorem applyXpSet_of_absent (hset : payBit d 12 0 = false) (hnone : findXp m (pay d 0 4) (busOf (oid d)) = none) :
    applyXpSet d m =
      let i := (firstBelow (fun i => (tget? m.mix.xps (xpKey (srcDie (pay d 0 4)) i)).isNone) 16384).getD 0
      (srcReady (pay d 0 4) { m with mix.xps := tset m.mix.xps (xpKey (srcDie (pay d 0 4)) i) (xpNew d) },
       .done { status := stOK, detail := i, plain := some (0, xpPlain (some (xpParOf d))), before := 1, after := 1 }) := by
  simp only [applyXpSet, hnone, hset, Bool.false_eq_true, if_false, xpNew, xpParOf]

theorem applyMixCommit_of_revert (hrevert : payBit d 0 0 = true) (late : Bool) :
    applyMixCommit late d m =
      (draw (bankRevert (oidDie (oid d)) m),
       .done { status := stOK, detail := 0, plain := commitStands d m, before := 0xFF, after := 0xFF }) :=
  if_pos hrevert

/-- A swap at its sample boundary, counted when its commit time had passed. -/
theorem applyMixCommit_of_swap (hswap : payBit d 0 0 = false) (late : Bool) :
    applyMixCommit late d m =
      let die := oidDie (oid d)
      let n := boundaryNo .sample m.dev
      let old := b2n (getMixer m die).bankB
      (raise 0x1202 5 (infraOid die) [.u 1 die, .u 1 (1 - old), .u 4 (n % 2 ^ 32), .u 1 (b2n late)]
        (if late then count .mixCnt die 0 1 (bankSwap die n m) else bankSwap die n m),
       .done { status := stOK, detail := 0, plain := some (old, n), before := 0xFF, after := 0xFF }) :=
  if_neg (ne_true_of_eq_false hswap)

/-- A swap completes as OK at its boundary, and as OK_LATE when its commit time had passed. -/
theorem applyCmd_mixCommit_of_swap (hswap : payBit d 0 0 = false) (late : Bool) :
    applyCmd mixCommitSpec d late m =
      let die := oidDie (oid d)
      let n := boundaryNo .sample m.dev
      let old := b2n (getMixer m die).bankB
      finish d false
        { status := if late then stLate else stOK, detail := 0, plain := some (old, n), before := 0xFF, after := 0xFF }
        (raise 0x1202 5 (infraOid die) [.u 1 die, .u 1 (1 - old), .u 4 (n % 2 ^ 32), .u 1 (b2n late)]
          (if late then count .mixCnt die 0 1 (bankSwap die n m) else bankSwap die n m)) := by
  have hact : (if late then mixCommitSpec.applyLate.getD mixCommitSpec.apply else mixCommitSpec.apply) = applyMixCommit late := by
    cases late <;> rfl
  have hptr : mixCommitSpec.ptr = false := rfl
  simp only [applyCmd, hact, applyMixCommit_of_swap hswap, hptr]
  cases late <;> rfl

end

/-! ## Windows (R236, R237) -/

section
variable {m : M}

/-- The job of the window that runs ends for the first time. -/
theorem mixJobDone_of_running {die : Nat} (hruns : (getMixer (mixOverrun die m) die).window.isSome)
    (hfirst : (getMixer (mixOverrun die m) die).done = false) :
    mixJobDone die m =
      reportSlack die 47 (((getMixer (mixOverrun die m) die).deadline : Int) - m.dev) (getMixer (mixOverrun die m) die).len
        (setMixer die { getMixer (mixOverrun die m) die with done := true } (mixOverrun die m)) := by
  simp [mixJobDone, Option.isSome_iff_ne_none.mp hruns, hfirst]

theorem overlayHold_of_leg {die i : Nat} (hleg : (getLegOut m (mkKey die i)).isSome) :
    overlayHold die i m = mixAdvance die (sampleNow m die) m :=
  if_pos hleg

theorem meterEnd_of_due {die : Nat} (hrun : dieRun m die = true)
    (hdue : (getMixer m die).meterAt + (getMixer m die).meterMs * 1000000 ≤ m.dev) :
    meterEnd die m = { m with
      mix.mixers := tset m.mix.mixers die { getMixer m die with meterAt := m.dev, meterMs := (getMixer m die).meterNext },
      mix.srcs := tmap m.mix.srcs fun r x => if srcDie r = die then { x with meter := meterClose x.meter } else x,
      mix.buses := tmap m.mix.buses fun b x => if busDie b = die then { x with meter := meterClose x.meter } else x,
      mix.legs := tmap m.mix.legs fun l x => if keyDie l = die then { x with meter := meterClose x.meter } else x } :=
  if_neg (by simp [hrun, hdue])

/-! ## The exchange (R223, R224) -/

/-- Before a bus's first addition no partial sum of it is late. -/
theorem partialArrival_of_noAddition {b : Nat} {x : Bus} (hx : getBus m b = some x) (hfirst : x.lastAdd = none) (die : Nat) :
    partialArrival b die m = { m with
      mix.partials := m.mix.partials.map fun p =>
        if p.bus == b && p.die == die && p.sums.length == busN x && decide ((p.window + 1) * busE x ≤ m.dev)
        then { p with arrived := true } else p } := by
  simp [partialArrival, hx, hfirst]

theorem totalArrival_of_new {b die : Nat} {u : Total} (hu : (m.mix.totals.find? fun t => t.bus == b) = some u)
    (hleg : (busLegDies m b).contains die = true) (hrun : dieRun m die = true) (hnew : u.at_.contains die = false) :
    totalArrival b die m = { m with
      mix.totals := m.mix.totals.map fun t =>
        if t.bus = b && t.window = u.window then { t with at_ := die :: t.at_ } else t } := by
  simp only [totalArrival, hu, hleg, hrun, hnew, Bool.not_true, Bool.or_self, Bool.false_eq_true, if_false]

/-- The exchange window whose sums a bus adds at a device time. -/
def addedWindow (x : Bus) (dev : Nat) : Nat := (dev - busE x / 2) / busE x - 1

/-- The partial sums that an addition takes in: arrived, of dies that take part. -/
def addedPartials (m : M) (b w : Nat) : List Partial :=
  (m.mix.partials.filter fun p => p.bus == b && p.window == w).filter fun p => p.arrived && dieAdds m p.die

/-- The total that an addition forms, at its home die. -/
def addedTotal (m : M) (b : Nat) (x : Bus) : Total :=
  totalOf b (addedWindow x m.dev) (busN x) (addedPartials m b (addedWindow x m.dev)) [busDie b]

/-- What an addition makes of the mixer: its total comes first, its bus holds it, and the sums of the windows before are dropped. -/
def additionMade (b : Nat) (x : Bus) (m : M) : M :=
  updBus b (fun y =>
      { y with lastMask := (addedTotal m b x).mask, lastAdd := some (addedWindow x m.dev),
               meter := meterAdd (addedTotal m b x).sums y.meter })
    (noteOut (.busMask b (addedWindow x m.dev) (addedTotal m b x).mask) { m with
      mix.partials := m.mix.partials.filter fun p => !(p.bus == b && decide (p.window < addedWindow x m.dev)),
      mix.totals := addedTotal m b x :: m.mix.totals.filter fun u => u.bus != b || decide (addedWindow x m.dev < u.window + 4) })

section
variable {b : Nat} {x : Bus}

theorem getBus_additionMade (hx : getBus m b = some x) :
    getBus (additionMade b x m) b = some { x with
      lastMask := (addedTotal m b x).mask, lastAdd := some (addedWindow x m.dev), meter := meterAdd (addedTotal m b x).sums x.meter } := by
  have hbus : tget? m.mix.buses b = some x := hx
  simp [getBus, additionMade, updBus, tupd, hbus]

theorem addedTotal_mem_additionMade : addedTotal m b x ∈ (additionMade b x m).mix.totals := by
  simp [additionMade, updBus]

/-- A bus's first addition counts and reports the dies that its total leaves out, and changes nothing else. -/
theorem additionPoint_of_first (hx : getBus m b = some x) (hfirst : x.lastAdd = none) (hdue : busE x / 2 + busE x ≤ m.dev) :
    Reports (additionMade b x m) (additionPoint b m) := by
  have hcounted (p : Prop) [Decidable p] :
      Reports (additionMade b x m)
        (if p then count .mixBus (busDie b) (b % 256) 0 (additionMade b x m) else additionMade b x m) :=
    .ite p (reports_cntAdd ..) (.refl _)
  simp only [additionPoint, hx, hfirst, Nat.not_lt.mpr hdue, decide_false, Bool.or_self, Bool.false_eq_true, if_false]
  split
  · exact (hcounted _).trans (reports_partialLate ..)
  · exact hcounted _

end

end

/-- Settles O19: a command is its spec's effect in the case that its hypotheses single out, an addition's total and its bus are read from
the mixer that it leaves, and any other row is the equation of its meaning. -/
theorem mixerRowsComplete : Obligations.MixerRowsComplete := by
  unfold Obligations.MixerRowsComplete
  refine ⟨?define, ?delete, ?gone, ?xpChanged, ?xpRemoved, ?xpMade, ?legSet, ?overlay, ?revert, ?swapNow, ?swap, ?meterSet, ?job,
    ?partialSums, ?addition, ?total, ?hold, ?meter⟩
  case define =>
    refine completesIf_of (fun _ _ => rfl) rfl fun d m hplace => ?_
    obtain ⟨die, hdie⟩ := Option.isSome_iff_exists.mp hplace
    rw [apply_mixBusDefine_of_die hdie, hdie]
    rfl
  case delete => exact completes_of (fun _ _ => rfl) rfl fun _ _ => rfl
  case gone => exact getBus_dropBus
  case xpChanged =>
    refine completesIf_of (fun _ _ => rfl) rfl fun d m ⟨hset, k, x, hx⟩ => ?_
    rw [hx]
    exact applyXpSet_of_present hx hset
  case xpRemoved =>
    refine completesIf_of (fun _ _ => rfl) rfl fun d m ⟨hremove, k, x, hx, hinactive⟩ => ?_
    rw [hx]
    exact applyXpSet_of_removed hx hremove hinactive
  case xpMade => exact completesIf_of (fun _ _ => rfl) rfl fun _ _ ⟨hset, hnone⟩ => applyXpSet_of_absent hset hnone
  case legSet => exact completes_of (fun _ _ => rfl) rfl fun _ _ => rfl
  case overlay => exact completes_of (fun _ _ => rfl) rfl fun _ _ => rfl
  case revert => exact completesIf_of (fun _ _ => rfl) rfl fun _ _ hrevert => applyMixCommit_of_revert hrevert false
  case swapNow => exact completesIf_of (fun _ _ => rfl) rfl fun _ _ ⟨hswap, _⟩ => applyMixCommit_of_swap hswap false
  case swap => exact actsIf_of (fun _ _ => rfl) rfl fun _ late _ hswap => applyCmd_mixCommit_of_swap hswap late
  case meterSet => exact completes_of (fun _ _ => rfl) rfl fun _ _ => rfl
  case job => exact fun s die hruns hfirst => lift_of_eq (mixJobDone_of_running hruns hfirst)
  case partialSums => exact fun s b die x hx hfirst => lift_of_eq (partialArrival_of_noAddition hx hfirst die)
  case addition =>
    rintro s b x ps hx hfirst hdue rfl
    have hmix : (additionPoint b s.m).mix = (additionMade b x s.m).mix := (additionPoint_of_first hx hfirst hdue).mix_eq
    have hbus : getBus (additionPoint b s.m) b = getBus (additionMade b x s.m) b := by rw [getBus, hmix, getBus]
    rw [getBus_additionMade hx] at hbus
    have hmem : addedTotal s.m b x ∈ (additionPoint b s.m).mix.totals := hmix ▸ addedTotal_mem_additionMade
    exact ⟨after s (additionPoint b s.m), lift_of_eq rfl, congrArg (Option.map Bus.lastAdd) hbus,
      congrArg (Option.map Bus.lastMask) hbus, addedTotal s.m b x, hmem, rfl, rfl, rfl⟩
  case total => exact fun s b die u hu hleg hrun hnew => lift_of_eq (totalArrival_of_new hu hleg hrun hnew)
  case hold => exact fun s die idx hleg => lift_of_eq (overlayHold_of_leg hleg)
  case meter => exact fun s die hrun hdue => lift_of_eq (meterEnd_of_due hrun hdue)

end Sys2Proof.Machine

/-!
Steps, ticks, reports and counts: a step answers a next state, what a tick of the clock and a second of authentication failures touch, and
what a counter reads after it is counted, cleared or another one is; and the obligations of the step, the tick, the reports and the read.
-/
namespace Sys2Proof.Machine

/-! ## A step (log 5 and 6) -/

theorem exec_next (c : Instr) (s : State) : ∃ t, exec c s = .next t := by
  rcases exec_cases c s with rfl | ⟨f, hf⟩ | ⟨opcode, f, hf⟩
  · exact ⟨_, rfl⟩
  · exact ⟨_, hf⟩
  · exact ⟨_, hf⟩

theorem idle_next (s : State) : ∃ t, idle s = .next t := by
  rcases idle_cases s with ⟨f, hf⟩ | ⟨d, m1, -, hd⟩
  · exact ⟨_, hf⟩
  · exact ⟨_, hd⟩

theorem step_next (s : State) : ∃ t, step s = .next t := by
  cases hp : s.pending with
  | nil => exact step_of_empty hp ▸ idle_next s
  | cons c rest => exact step_of_front hp ▸ exec_next c _

/-- Settles O35: the two equations of a step. -/
theorem stepRunsTheFrontCommand : Obligations.StepRunsTheFrontCommand := by
  unfold Obligations.StepRunsTheFrontCommand
  exact ⟨fun _ _ _ => step_of_front rfl, fun _ => step_of_empty⟩

/-- Settles O36: every row and every idle step answers a next state, and a step takes at most the front of the queue. -/
theorem everyStepHasANextState : Obligations.EveryStepHasANextState := by
  unfold Obligations.EveryStepHasANextState
  intro s
  obtain ⟨t, ht⟩ := step_next s
  exact ⟨t, ht, step_pending ht⟩

/-! ## What the end of a command reports -/

theorem reports_action (unit code obj old new : Nat) (m : M) : Reports m (action unit code obj old new m) :=
  reports_jrnAppend ..

theorem reports_finishQuiet (d : Desc) (r : Reply) (m : M) : Reports m (finishQuiet d r m) :=
  (reports_draw m).trans (reports_post ..)

theorem reports_noteApplied (d : Desc) (order seq : Nat) (m : M) : Reports m (noteApplied d order seq m) := by
  unfold noteApplied
  split
  · rfl
  · exact .refl m

/-- Settles O43: each operation is a chain of reports. -/
theorem reportsTouchOnlyReports : Obligations.ReportsTouchOnlyReports := by
  unfold Obligations.ReportsTouchOnlyReports
  exact ⟨reports_raise, reports_jrnAppend, reports_action, reports_announce, reports_finish, reports_finishQuiet, reports_noteApplied,
    fun _ _ _ _ _ => reports_cntAdd ..⟩

/-! ## A tick of the clock (R37, R40, R42) -/

/-- In holdover the frequency moves device time by at most one nanosecond either way. -/
theorem freqTick_moves (m : M) :
    ∃ dev tim, freqTick m = { m with dev := dev, tim := tim } ∧ m.dev - 1 ≤ dev ∧ dev ≤ m.dev + 1 := by
  simp only [freqTick]
  split_ifs <;> exact ⟨_, _, rfl, by omega, by omega⟩

/-- Out of holdover the frequency takes and gives no nanosecond while less than one has gathered. -/
theorem freqTick_dev_of_near {m : M} (hq : m.tim.quality ≠ 1) (hnear : m.tim.freqAcc.natAbs < 1000000000) :
    (freqTick m).dev = m.dev := by
  have hppb : freqPpb m.tim = 0 := if_pos hq
  have hup : ¬ 1000000000 ≤ m.tim.freqAcc := by omega
  have hdown : ¬ m.tim.freqAcc ≤ -1000000000 := by omega
  simp [freqTick, hppb, hup, hdown]

/-- A tick moves MONO by one nanosecond and device time by none to two, and touches nothing else but the time base. -/
theorem clockTick_moves (m : M) :
    ∃ dev tim, clockTick m = { m with dev := dev, tim := tim, vault.mono := m.vault.mono + 1 } ∧ m.dev ≤ dev ∧ dev ≤ m.dev + 2 := by
  simp only [clockTick]
  split_ifs
  case pos =>
    obtain ⟨dev, tim, h, hlow, hhigh⟩ := freqTick_moves
      { m with vault.mono := m.vault.mono + 1, dev := m.dev + 1, tim.slewAcc := 0 }
    exact ⟨dev, tim, h, hlow, hhigh⟩
  all_goals exact ⟨_, _, rfl, by omega, by omega⟩

theorem clockTick_dev_of_steady {m : M} (hslew : m.tim.slewLeft = 0) (hq : m.tim.quality ≠ 1)
    (hnear : m.tim.freqAcc.natAbs < 1000000000) : (clockTick m).dev = m.dev + 1 := by
  simp only [clockTick, hslew, if_true]
  exact freqTick_dev_of_near hq hnear

/-! ## Seconds of authentication failures (R159) -/

theorem Reports.setAuth {a b : M} (h : Reports a b) (l : Tbl AuthSt) : Reports { a with auth := l } { b with auth := l } := by
  unfold Reports at *
  rw [h]

/-- The record of such a second touches only reports and the seconds that run. -/
theorem authRecord_moves (leg : Nat) (m : M) : ∃ l, Reports { m with auth := l } (authRecord leg m) := by
  unfold authRecord
  split
  · exact ⟨_, .refl m⟩
  · exact ⟨_, reports_action ..⟩

theorem authSeconds_moves (m : M) : ∃ l, Reports { m with auth := l } (authSeconds m) :=
  List.foldlRecOn (motive := fun x : M => ∃ l, Reports { m with auth := l } x) _ _ ⟨m.auth, .refl m⟩ fun x ⟨_, hx⟩ a _ =>
    (authRecord_moves a.1 x).imp fun l h => (hx.setAuth l).trans h

/-- With no second ended nothing is recorded. -/
theorem authSeconds_of_open {m : M} (h : ∀ a ∈ m.auth, ∀ b n, a.2.second = some (b, n) → m.vault.mono < b + nsPerS) :
    authSeconds m = m := by
  simp only [authSeconds]
  rw [List.filter_eq_nil_iff.mpr]
  · rfl
  · intro a ha
    split
    next b n hsecond => simpa using h a ha b n hsecond
    next => simp

/-- An idle step out of Comma state, with no descriptor to take, is one tick and the record of what has ended with it. -/
theorem idle_of_none {s : State} (hawake : s.m.pwr.state < 3) (hnone : nextDesc s.m = none) :
    idle s = liftMono (fun m => authSeconds (clockTick m)) s := by
  simp only [idle, Nat.not_le.mpr hawake, if_false, hnone]

theorem idle_of_some {s : State} {d : Desc} {m1 : M} (hawake : s.m.pwr.state < 3) (hnext : nextDesc s.m = some (d, m1)) :
    idle s = liftOp d.opcode (runDesc specOf d) { s with m := m1 } := by
  simp only [idle, Nat.not_le.mpr hawake, if_false, hnext]

theorem liftMono_of_ownerKey {f : M → M} {s : State} (h : (f s.m).vault.ownerKey = s.m.vault.ownerKey) :
    liftMono f s = .next { s with m := f s.m } := by
  simp only [liftMono, ← h]

section
variable {m : M}

/-- What a tick and the record of an ended second make of the machine. -/
theorem ticked_reports : Reports
    { m with dev := (authSeconds (clockTick m)).dev, tim := (authSeconds (clockTick m)).tim,
             vault := { m.vault with mono := m.vault.mono + 1 }, auth := (authSeconds (clockTick m)).auth }
    (authSeconds (clockTick m)) := by
  obtain ⟨dev, tim, hc, -, -⟩ := clockTick_moves m
  obtain ⟨l, hr⟩ := authSeconds_moves (clockTick m)
  rw [hc] at hr ⊢
  rw [hr]
  rfl

theorem authSeconds_dev (m : M) : (authSeconds m).dev = m.dev := by
  obtain ⟨l, hr⟩ := authSeconds_moves m
  rw [hr]

/-- With no second ended a tick changes nothing but the time base and MONO. -/
theorem ticked_of_open (h : ∀ a ∈ m.auth, ∀ b n, a.2.second = some (b, n) → m.vault.mono + 1 < b + nsPerS) :
    authSeconds (clockTick m) =
      { m with dev := (authSeconds (clockTick m)).dev, tim := (authSeconds (clockTick m)).tim,
               vault := { m.vault with mono := m.vault.mono + 1 } } := by
  obtain ⟨dev, tim, hc, -, -⟩ := clockTick_moves m
  have hopen : authSeconds (clockTick m) = clockTick m := by
    rw [hc]
    exact authSeconds_of_open h
  rw [hopen, hc]

end

/-- Settles O42: an idle step is a tick and the record of the second that ends with it, or the descriptor that comes next; each is
framed by the operations it is made of. -/
theorem idleStepsAreTicks : Obligations.IdleStepsAreTicks := by
  unfold Obligations.IdleStepsAreTicks
  refine ⟨?tick, ?descriptor⟩
  case tick =>
    intro s hp hawake hnone
    have hvault : (authSeconds (clockTick s.m)).vault = { s.m.vault with mono := s.m.vault.mono + 1 } := ticked_reports.vault_eq
    have hstep : step s = .next { s with m := authSeconds (clockTick s.m) } := by
      rw [step_of_empty hp, idle_of_none hawake hnone]
      exact liftMono_of_ownerKey (by rw [hvault])
    have hdev := authSeconds_dev (clockTick s.m)
    obtain ⟨dev, tim, hc, hlow, hhigh⟩ := clockTick_moves s.m
    have hmoved : (clockTick s.m).dev = dev := by rw [hc]
    refine ⟨_, hstep, hp, hvault, ?low, ?high, ?steady, ?reports, ?quiet⟩
    case low => exact (hdev.trans hmoved).symm ▸ hlow
    case high => exact (hdev.trans hmoved).symm ▸ hhigh
    case steady => exact fun hslew hq hnear => hdev.trans (clockTick_dev_of_steady hslew hq hnear)
    case reports =>
      rw [hvault]
      exact ticked_reports
    case quiet =>
      intro hopen
      rw [hvault]
      exact ticked_of_open hopen
  case descriptor =>
    intro s d m1 hp hawake hnext hop
    have hvault := nextDesc_vault hnext
    rw [step_of_empty hp, idle_of_some hawake hnext, liftOp_of_eq hop rfl, ← hvault]
    rfl

/-! ## Counts (R466) -/

theorem cntFind_cntPut_other (c : List (CntId × Nat)) {id j : CntId} (n : Nat) (h : j ≠ id) :
    cntFind (cntPut c id n) j = cntFind c j := by
  induction c with
  | nil => simp [cntPut, cntFind, h.symm]
  | cons p r ih =>
    by_cases hid : p.1 = id
    · simp [cntPut, cntFind, hid, h.symm]
    · simp [cntPut, cntFind, hid, ih]

@[simp] theorem cntGet_cntAdd_same (id : CntId) (n : Nat) (m : M) :
    cntGet (cntAdd id n m) id = hold (cntTop id.reg) (cntGet m id + n) :=
  cntFind_cntPut_same ..

@[simp] theorem cntGet_cntClear_same (id : CntId) (m : M) : cntGet (cntClear id m) id = 0 :=
  cntFind_cntPut_same ..

theorem cntGet_cntAdd_other {id j : CntId} (n : Nat) (m : M) (h : j ≠ id) : cntGet (cntAdd id n m) j = cntGet m j :=
  cntFind_cntPut_other _ _ h

theorem cntGet_cntClear_other {id j : CntId} (m : M) (h : j ≠ id) : cntGet (cntClear id m) j = cntGet m j :=
  cntFind_cntPut_other _ _ h

/-- Settles O54: the row reads the count after the increment, and counts of other fields are other entries. -/
theorem readClearsTheCount : Obligations.ReadClearsTheCount := by
  unfold Obligations.ReadClearsTheCount
  refine ⟨?read, ?cleared, ?others⟩
  case read =>
    intro s id n hawake hphase hlit
    refine (lift_of_eq (s := { s with m := cntAdd id n s.m }) (rcRead_of_lit hawake hphase hlit)).trans ?_
    rw [cntGet_cntAdd_same]
    rfl
  case cleared => exact fun m id => cntGet_cntClear_same id m
  case others => exact fun m id j n h => ⟨cntGet_cntClear_other m h, cntGet_cntAdd_other n m h⟩

end Sys2Proof.Machine

/-!
Signal engines (R343 to R348, R356): what X and Y memory read after a store, the exact values of products, accumulations and extractions,
what a form A word without moves leaves of its registers, and the obligations about them.
-/
namespace Sys2Proof.Machine

/-! ## X and Y memory (R343, R356) -/

theorem tget_wordSet_same (t : Tbl Word) (a : Nat) (v : Word) : tget (wordSet t a v) a 0 = v := by
  unfold wordSet
  split
  next hv => rw [tget, tget?_tdel_same, hv]; rfl
  next => exact tget_tset_same ..

theorem tget_wordSet_other (t : Tbl Word) {a b : Nat} (v : Word) (h : b ≠ a) : tget (wordSet t a v) b 0 = tget t b 0 := by
  unfold wordSet
  split
  · rw [tget, tget?_tdel_other t h, tget]
  · exact tget_tset_other t v 0 h

/-- Keys strictly rising and no zero word listed: the canonical form of a memory. -/
theorem wordSet_canonical {t : Tbl Word} (a : Nat) (v : Word) (hsorted : tSorted t = true) (hnonzero : ∀ p ∈ t, p.2 ≠ 0) :
    tSorted (wordSet t a v) = true ∧ ∀ p ∈ wordSet t a v, p.2 ≠ 0 := by
  unfold wordSet
  split
  · exact ⟨tdel_sorted a hsorted, fun p hp => hnonzero p (mem_tdel hp).1⟩
  · rename_i hv
    refine ⟨tset_sorted a v hsorted, fun p hp => ?_⟩
    rcases mem_tset hp with rfl | hp
    · exact hv
    · exact hnonzero p hp

/-- One of the four memories of an engine: Y or X, of lane 1 or 0. -/
def memOn (e : Dsp) (yMem odd : Bool) : Tbl Word :=
  match yMem, odd with
  | true, false => e.y0
  | true, true => e.y1
  | false, false => e.x0
  | false, true => e.x1

/-- The memory that an address of a lane reaches is that of the odd lane. -/
def memOdd (e : Dsp) (l a : Nat) : Bool := decide (memLane e l a ≠ 0)

theorem memGet_eq (e : Dsp) (yMem : Bool) (l a : Nat) : memGet e yMem l a = tget (memOn e yMem (memOdd e l a)) (a % 16384) 0 := by
  by_cases hl : memLane e l a = 0 <;> cases yMem <;> simp [memGet, memOn, memOdd, hl]

@[simp] theorem memPut_wide (yMem : Bool) (l a : Nat) (v : Word) (e : Dsp) : (memPut yMem l a v e).wide = e.wide := by
  simp only [memPut]
  split_ifs <;> rfl

@[simp] theorem memOdd_memPut (yMem : Bool) (l a : Nat) (v : Word) (e : Dsp) (l' a' : Nat) :
    memOdd (memPut yMem l a v e) l' a' = memOdd e l' a' := by
  simp [memOdd, memLane]

theorem memOn_memPut (yMem : Bool) (l a : Nat) (v : Word) (e : Dsp) (y odd : Bool) :
    memOn (memPut yMem l a v e) y odd =
      if y = yMem ∧ odd = memOdd e l a then wordSet (memOn e y odd) (a % 16384) v else memOn e y odd := by
  by_cases hl : memLane e l a = 0 <;> cases yMem <;> cases y <;> cases odd <;> simp [memPut, memOn, memOdd, hl]

theorem memLane_le {e : Dsp} {l : Nat} (a : Nat) (h : l ≤ 1) : memLane e l a ≤ 1 := by
  unfold memLane
  split_ifs <;> omega

theorem memOdd_eq_iff {e : Dsp} {l l' : Nat} (a a' : Nat) (h : l ≤ 1) (h' : l' ≤ 1) :
    memOdd e l' a' = memOdd e l a ↔ memLane e l' a' = memLane e l a := by
  have hlane := memLane_le (e := e) a h
  have hlane' := memLane_le (e := e) a' h'
  rw [memOdd, memOdd, decide_eq_decide]
  omega

theorem memGet_memPut_same (e : Dsp) (yMem : Bool) (l a : Nat) (v : Word) : memGet (memPut yMem l a v e) yMem l a = v := by
  rw [memGet_eq, memOn_memPut, memOdd_memPut, if_pos ⟨rfl, rfl⟩, tget_wordSet_same]

theorem memGet_memPut_other {e : Dsp} {y y' : Bool} {l l' a a' : Nat} (v : Word)
    (h : ¬ (y' = y ∧ memOdd e l' a' = memOdd e l a ∧ a' % 16384 = a % 16384)) :
    memGet (memPut y l a v e) y' l' a' = memGet e y' l' a' := by
  rw [memGet_eq, memGet_eq, memOn_memPut, memOdd_memPut]
  split
  next hplace => exact tget_wordSet_other _ v fun ha => h ⟨hplace.1, hplace.2, ha⟩
  next => rfl

/-- Settles O55: a store writes one of the four memories, by the laws of sparse tables. -/
theorem dspMemoryReadsBack : Obligations.DspMemoryReadsBack := by
  unfold Obligations.DspMemoryReadsBack
  refine ⟨?same, ?other, ?canonical⟩
  case same => exact fun e y l a v _ => memGet_memPut_same e y l a v
  case other =>
    intro e y l a v y' l' a' hl hl' h
    rw [← memOdd_eq_iff a a' hl hl'] at h
    exact memGet_memPut_other v h
  case canonical => exact fun t a v hsorted hnonzero => wordSet_canonical a v hsorted hnonzero

/-! ## Patterns of integers -/

theorem ofNat_tc (w : Nat) (i : Int) : BitVec.ofNat w (tc w i) = BitVec.ofInt w i := by
  rw [tc, ← BitVec.toNat_ofInt, BitVec.ofNat_toNat, BitVec.setWidth_eq]

theorem toInt_ofNat_tc {i : Int} (hlow : accMin ≤ i) (hhigh : i ≤ accMax) : (BitVec.ofNat 72 (tc 72 i)).toInt = i := by
  unfold accMin at hlow
  unfold accMax at hhigh
  rw [ofNat_tc, BitVec.toInt_ofInt_eq_self (by decide)] <;> omega

/-! ## Products (R346) -/

theorem prod63_fits (x y : Word) : accMin ≤ prod63 x y ∧ prod63 x y ≤ accMax := by
  have hx := BitVec.le_toInt x
  have hx' := BitVec.toInt_lt (x := x)
  have hy := BitVec.le_toInt y
  have hy' := BitVec.toInt_lt (x := y)
  norm_num at hx hx' hy hy'
  unfold accMin accMax prod63
  constructor <;> nlinarith

/-! ## Form A words without moves -/

/-- A form A word that carries no move. -/
structure NoMoves (w : Nat) : Prop where
  p : pMove w = 0
  x : xMove w = 0
  y : yMove w = 0

theorem movesA_of_none {w : Nat} (h : NoMoves w) (src e : Dsp) : movesA w src e = e := by
  obtain ⟨hp, hx, hy⟩ := h
  simp [movesA, movesA.xMoveDo, movesA.yMoveDo, pMoveDo, xyMove, hp, hx, hy, bit]

/-- On a narrow engine it is its operation on lane 0. -/
theorem aluA_of_narrow {w : Nat} {e : Dsp} (h : NoMoves w) (hnarrow : e.wide = false) (f : Nat → Dsp → Dsp) : aluA f w e = (f 0 e, none) := by
  simp [aluA, movesA_of_none h, laneList, hnarrow]

/-! ## Lane 0 after a result -/

@[simp] theorem getLane_updLane_same {e : Dsp} {l : Nat} (f : DLane → DLane) (h : l < e.lanes.length) :
    getLane (updLane l f e) l = f (getLane e l) := by
  simp [getLane, updLane, h]

@[simp] theorem lanes_length_updLane (l : Nat) (f : DLane → DLane) (e : Dsp) : (updLane l f e).lanes.length = e.lanes.length := by
  simp [updLane]

section
variable {e : Dsp} {l : Nat} (hl : l < e.lanes.length)
include hl

theorem getLane_accNow (i : Nat) (v : BitVec 72) : getLane (accNow l i v e) l = { getLane e l with a := (getLane e l).a.set i v } :=
  getLane_updLane_same _ hl

theorem getLane_writeNow {i : Nat} (hi : i < 16) (v : Nat) :
    getLane (writeNow l i v e) l = { getLane e l with d := (getLane e l).d.set i (BitVec.ofNat 32 v) } := by
  rw [writeNow, regWrite, if_pos hi]
  exact getLane_updLane_same _ hl

theorem getLane_stickNow (r : Arith) : getLane (stickNow l r e) l = stick r (getLane e l) :=
  getLane_updLane_same _ hl

theorem getLane_putAcc (i : Nat) (r : Arith) :
    getLane (putAcc l i r e) l = stick r { getLane e l with a := (getLane e l).a.set i (BitVec.ofNat 72 r.val) } := by
  have hl' : l < (accNow l i (BitVec.ofNat 72 r.val) e).lanes.length := (lanes_length_updLane ..).symm ▸ hl
  rw [putAcc, getLane_stickNow hl', getLane_accNow hl]

theorem getLane_putD {i : Nat} (hi : i < 16) (r : Arith) :
    getLane (putD l i r e) l = stick r { getLane e l with d := (getLane e l).d.set i (BitVec.ofNat 32 r.val) } := by
  have hl' : l < (writeNow l i r.val e).lanes.length := by
    rw [writeNow, regWrite, if_pos hi]
    exact (lanes_length_updLane ..).symm ▸ hl
  rw [putD, getLane_stickNow hl', getLane_writeNow hl hi]

end

theorem adOf_lt (w : Nat) : adOf w < 4 := Nat.mod_lt _ (by decide)
theorem dOf_lt (w : Nat) : dOf w < 16 := Nat.mod_lt _ (by decide)

/-- What a multiply makes of its operands: the product, or R347 of the accumulator and the product with a sign. -/
def macResult (mul : Bool) (sign : Int) (w : Nat) (e : Dsp) : Arith :=
  let p := prod63 (dReg e 0 (xOf w)) (dReg e 0 (yOf w))
  if mul then { val := tc 72 p, gv := false, sv := false, ov := false }
  else accumulate (sOf w) (acc2i (accFwd e 0 (adOf w)) + sign * p)

section
variable {w : Nat} {e : Dsp} (h : NoMoves w) (hnarrow : e.wide = false)
include h hnarrow

/-- An accumulating operation leaves the value of R347 in its accumulator, and its flags stick. -/
theorem getLane_accBody (hlane : 0 < e.lanes.length) (f : Nat → Dsp → Nat → Int) :
    getLane (accBody f w e).1 0 =
      stick (accumulate (sOf w) (f w e 0))
        { getLane e 0 with a := (getLane e 0).a.set (adOf w) (BitVec.ofNat 72 (accumulate (sOf w) (f w e 0)).val) } := by
  rw [accBody, aluA_of_narrow h hnarrow]
  exact getLane_putAcc hlane _ _

theorem accBody_result (hlane : 0 < e.lanes.length) (hregs : (getLane e 0).a.length = 4) {f : Nat → Dsp → Nat → Int} {i : Int}
    (hi : f w e 0 = i) :
    aReg (accBody f w e).1 0 (adOf w) = BitVec.ofNat 72 (accumulate (sOf w) i).val ∧
      (getLane (accBody f w e).1 0).gv = ((getLane e 0).gv || (accumulate (sOf w) i).gv) ∧
      (getLane (accBody f w e).1 0).sv = ((getLane e 0).sv || (accumulate (sOf w) i).sv) := by
  subst hi
  have hreg : adOf w < (getLane e 0).a.length := hregs ▸ adOf_lt w
  rw [aReg, getLane_accBody h hnarrow hlane]
  exact ⟨by simp [stick, hreg], rfl, rfl⟩

theorem dReg_putD_of_narrow (hlane : 0 < e.lanes.length) (hregs : (getLane e 0).d.length = 16) (r : Nat → Arith) :
    dReg (aluA (fun l x => putD l (dOf w) (r l) x) w e).1 0 (dOf w) = BitVec.ofNat 32 (r 0).val := by
  have hreg : dOf w < (getLane e 0).d.length := hregs ▸ dOf_lt w
  rw [aluA_of_narrow h hnarrow, dReg, getLane_putD hlane (dOf_lt w)]
  simp [stick, hreg]

/-- ASR is a floor division by a power of two. -/
theorem aReg_asrBody (hlane : 0 < e.lanes.length) (hregs : (getLane e 0).a.length = 4) :
    (aReg (asrBody w e).1 0 (adOf w)).toInt = (aReg e 0 (adOf w)).toInt / 2 ^ (yOf w + 1) := by
  have hreg : adOf w < (getLane e 0).a.length := hregs ▸ adOf_lt w
  have hread : aReg (asrBody w e).1 0 (adOf w) = BitVec.ofInt 72 ((aReg e 0 (adOf w)).toInt / 2 ^ (yOf w + 1)) := by
    rw [asrBody, aluA_of_narrow h hnarrow, aReg, getLane_accNow hlane]
    simp [hreg, acc2i]
  have hlow := BitVec.le_toInt (aReg e 0 (adOf w))
  have hhigh := BitVec.toInt_lt (x := aReg e 0 (adOf w))
  have hpos : (0 : Int) < 2 ^ (yOf w + 1) := by positivity
  rw [hread, BitVec.toInt_ofInt_eq_self (by decide)]
  · exact Int.le_ediv_of_mul_le hpos (by nlinarith)
  · exact Int.ediv_lt_of_lt_mul hpos (by nlinarith)

/-- A multiply puts its result in flight to its accumulator. -/
theorem flight_macBody (mul : Bool) (sign : Int) :
    (macBody mul sign w e).1.flight = (putMac e 0 (adOf w) (macResult mul sign w e) e).flight := by
  simp only [macBody, aluA_of_narrow h hnarrow, macResult]

end

theorem mem_flight_putMac (src : Dsp) (l i : Nat) (r : Arith) (e : Dsp) :
    { due := src.slot + 3, lane := l, tgt := .acc i, val := r.val, mac := true } ∈ (putMac src l i r e).flight := by
  cases hgv : r.gv <;> cases hsv : r.sv <;> simp [putMac, later, hgv, hsv]

/-- Settles O56: a product is exact and fits an accumulator, and MPY's body sends it there. -/
theorem dspMultiply : Obligations.DspMultiply := by
  unfold Obligations.DspMultiply
  refine ⟨?exact_, ?fits, ?reads, ?minusOne, ?mpy⟩
  case exact_ => exact fun _ _ => rfl
  case fits => exact prod63_fits
  case reads => exact fun x y => toInt_ofNat_tc (prod63_fits x y).1 (prod63_fits x y).2
  case minusOne => decide
  case mpy =>
    intro w e hp hx hy hnarrow
    exact flight_macBody ⟨hp, hx, hy⟩ hnarrow true 1

/-! ## Accumulations (R347) -/

theorem accumulate_of_fits (s : Bool) {i : Int} (hlow : accMin ≤ i) (hhigh : i ≤ accMax) :
    accumulate s i = { val := tc 72 i, gv := false, sv := false, ov := false } := by
  simp [accumulate, hlow, hhigh]

section
variable {i : Int} (hout : i < accMin ∨ accMax < i)
include hout

theorem accumulate_wraps : accumulate false i = { val := tc 72 i, gv := true, sv := false, ov := false } := by
  have hno : ¬ (accMin ≤ i ∧ i ≤ accMax) := by omega
  simp [accumulate, hno]

theorem accumulate_clamps :
    accumulate true i = { val := tc 72 (if i < accMin then accMin else accMax), gv := false, sv := true, ov := false } := by
  have hno : ¬ (accMin ≤ i ∧ i ≤ accMax) := by omega
  simp [accumulate, hno]

end

/-- With S clear a result is the true one modulo 2 to the 72, whether it fits or wraps. -/
theorem val_accumulate_false (i : Int) : BitVec.ofNat 72 (accumulate false i).val = BitVec.ofInt 72 i := by
  rw [← ofNat_tc]
  by_cases h : accMin ≤ i ∧ i ≤ accMax
  · rw [accumulate_of_fits false h.1 h.2]
  · rw [accumulate_wraps (by omega)]

/-- Sums modulo 2 to the 72 may wrap between. -/
theorem foldl_accumulate (xs : List Int) (a : BitVec 72) :
    xs.foldl (fun v x => BitVec.ofNat 72 (accumulate false (acc2i v + x)).val) a = BitVec.ofInt 72 (acc2i a + xs.sum) := by
  induction xs generalizing a with
  | nil => simp [acc2i]
  | cons x xs ih =>
    rw [List.foldl_cons, ih, val_accumulate_false, List.sum_cons]
    simp only [acc2i, BitVec.ofInt_add, BitVec.ofInt_toInt, BitVec.add_assoc]

/-- Settles O57: a result by whether it fits and by S, sums modulo 2 to the 72, and each body as an accumulating operation on its
exact value. -/
theorem dspAccumulate : Obligations.DspAccumulate := by
  unfold Obligations.DspAccumulate
  refine ⟨?fits, ?wraps, ?clamps, ?sums, ?bodies, ?mac⟩
  case fits =>
    intro b i hlow hhigh
    rw [accumulate_of_fits b hlow hhigh]
    exact ⟨toInt_ofNat_tc hlow hhigh, rfl, rfl⟩
  case wraps => exact fun i hout => ⟨val_accumulate_false i, by rw [accumulate_wraps hout], by rw [accumulate_wraps hout]⟩
  case clamps =>
    intro i hout
    rw [accumulate_clamps hout]
    exact ⟨toInt_ofNat_tc (by split_ifs <;> decide) (by split_ifs <;> decide), rfl, rfl⟩
  case sums =>
    intro xs a hlow hhigh
    rw [foldl_accumulate, ← ofNat_tc]
    exact toInt_ofNat_tc hlow hhigh
  case bodies =>
    intro w e body i hp hx hy hnarrow hlane hregs hbody
    have hw : NoMoves w := ⟨hp, hx, hy⟩
    rcases hbody with ⟨rfl, rfl⟩ | ⟨rfl, rfl⟩ | ⟨rfl, rfl⟩ | ⟨rfl, rfl⟩ | ⟨rfl, rfl⟩ | ⟨rfl, rfl⟩
    case inl => exact accBody_result hw hnarrow hlane hregs (by ring)
    case inr.inl => exact accBody_result hw hnarrow hlane hregs (by ring)
    all_goals exact accBody_result hw hnarrow hlane hregs rfl
  case mac =>
    intro w e sign hp hx hy hnarrow
    rw [flight_macBody ⟨hp, hx, hy⟩ hnarrow]
    exact mem_flight_putMac ..

/-! ## Extraction and 32-bit results (R348) -/

/-- Bits 71 to 63 + k are all equal. -/
def TopEqual (a : BitVec 72) (k : Nat) : Prop := bits a.toNat (63 + k) (9 - k) = 0 ∨ bits a.toNat (63 + k) (9 - k) = 2 ^ (9 - k) - 1

theorem extract_of_topEqual (s : Bool) {a : BitVec 72} {k : Nat} (h : TopEqual a k) :
    extract s a k = { val := bits a.toNat (32 + k) 32, gv := false, sv := false, ov := false } := by
  unfold TopEqual at h
  simp [extract, h]

/-- A floor division of an accumulator by a power of two, by its pattern: the quotient keeps 32 bits and a power `p` above them. -/
theorem toInt_ediv_of_pattern (a : BitVec 72) {j p : Nat} (hp : 2 ^ j * p = 2 ^ 40) :
    a.toInt / 2 ^ j = if a.toNat / 2 ^ j < 2 ^ 31 * p then ((a.toNat / 2 ^ j : Nat) : Int) else (a.toNat / 2 ^ j : Nat) - 2 ^ 32 * p := by
  have hsmall : 2 * a.toNat < 2 ^ 72 ↔ a.toNat / 2 ^ j < 2 ^ 31 * p := by
    rw [Nat.div_lt_iff_lt_mul (by positivity), mul_assoc, mul_comm p, hp]
    omega
  have hwrap : ((a.toNat : Int) - 2 ^ 72) / 2 ^ j = (a.toNat / 2 ^ j : Nat) - 2 ^ 32 * p := by
    have hmul : (a.toNat : Int) - 2 ^ 72 = a.toNat + -(2 ^ 32 * p) * 2 ^ j := by
      have hcast : (2 : Int) ^ j * p = 2 ^ 40 := by exact_mod_cast hp
      linarith
    rw [hmul, Int.add_mul_ediv_right _ _ (by positivity)]
    push_cast
    ring
  rw [BitVec.toInt_eq_toNat_cond]
  split_ifs with hlt hq hq
  · push_cast
    rfl
  · exact absurd (hsmall.mp hlt) hq
  · exact absurd (hsmall.mpr hq) hlt
  · exact hwrap

/-- With its top bits equal, an extraction is the floor division by 2 to the 32 + k. -/
theorem sext_bits_of_topEqual {a : BitVec 72} {k : Nat} (hk : k ≤ 8) (h : TopEqual a k) :
    sext 32 (bits a.toNat (32 + k) 32) = a.toInt / 2 ^ (32 + k) := by
  obtain ⟨p, hp⟩ : ∃ p, p = 2 ^ (8 - k) := ⟨_, rfl⟩
  have hsplit : 2 ^ (32 + k) * p = 2 ^ 40 := by rw [hp, ← pow_add, show 32 + k + (8 - k) = 40 by omega]
  have htop : 2 ^ (9 - k) = 2 * p := by rw [hp, ← pow_succ', show 9 - k = 8 - k + 1 by omega]
  have hpos : 0 < p := hp ▸ Nat.two_pow_pos _
  have hrange : a.toNat / 2 ^ (32 + k) < 2 ^ 32 * p := by
    rw [Nat.div_lt_iff_lt_mul (by positivity), mul_assoc, mul_comm p, hsplit]
    exact a.isLt
  have hhigh : a.toNat / 2 ^ (63 + k) = a.toNat / 2 ^ (32 + k) / 2 ^ 31 := by
    rw [Nat.div_div_eq_div_mul, ← pow_add, show 32 + k + 31 = 63 + k by omega]
  rw [toInt_ediv_of_pattern a hsplit]
  unfold TopEqual at h
  simp only [bits, Nat.shiftRight_eq_div_pow, hhigh, htop] at h ⊢
  generalize a.toNat / 2 ^ (32 + k) = q at hrange h ⊢
  rw [Nat.mod_eq_of_lt (by omega)] at h
  simp only [sext]
  split_ifs <;> omega

section
variable {i : Int} (hout : i < -(2 ^ 31) ∨ 2 ^ 31 - 1 < i)
include hout

theorem result32_wraps : result32 false i = { val := tc 32 i, gv := false, sv := false, ov := true } := by
  have hno : ¬ (-(2 ^ 31) ≤ i ∧ i ≤ 2 ^ 31 - 1) := by omega
  rw [result32, if_neg (by simpa using hno), if_neg Bool.false_ne_true]

theorem result32_clamps :
    result32 true i = { val := tc 32 (if i < 0 then -(2 ^ 31) else 2 ^ 31 - 1), gv := false, sv := true, ov := false } := by
  have hno : ¬ (-(2 ^ 31) ≤ i ∧ i ≤ 2 ^ 31 - 1) := by omega
  rw [result32, if_neg (by simpa using hno), if_pos rfl]

end

/-- Settles O58: an extraction by its top bits and S, and each body as its result on lane 0. -/
theorem dspExtract : Obligations.DspExtract := by
  unfold Obligations.DspExtract
  refine ⟨?equal, ?unequal, ?floor, ?ext, ?asr, ?arith, ?out⟩
  case equal => exact fun s a k _ h => extract_of_topEqual s h
  case unequal => exact fun a k _ hzero hones => ⟨by simp [extract, hzero, hones], by simp [extract, hzero, hones]⟩
  case floor =>
    intro a k hk h
    rw [extract_of_topEqual false h]
    exact sext_bits_of_topEqual hk h
  case ext =>
    exact fun w e hp hx hy hnarrow hlane hregs =>
      dReg_putD_of_narrow ⟨hp, hx, hy⟩ hnarrow hlane hregs fun l => extract (sOf w) (aReg e l (asOf w)) (yOf w)
  case asr => exact fun w e hp hx hy hnarrow hlane hregs => aReg_asrBody ⟨hp, hx, hy⟩ hnarrow hlane hregs
  case arith =>
    exact fun w e sign hp hx hy hnarrow hlane hregs =>
      dReg_putD_of_narrow ⟨hp, hx, hy⟩ hnarrow hlane hregs fun l =>
        result32 (sOf w) (word2i (dReg e l (xOf w)) + sign * word2i (dReg e l (yOf w)))
  case out =>
    intro i hout
    rw [result32_wraps hout, result32_clamps hout]
    refine ⟨ofNat_tc 32 i, rfl, ?_, rfl⟩
    rw [ofNat_tc]
    split_ifs <;> decide

end Sys2Proof.Machine

/-!
The rows of the signal engines (R344 to R364): what an engine keeps through writes in flight and the end of an instruction, one equation
for each case of an instruction, a task, an interrupt and a fault, and the obligation of the instruction rows.
-/
namespace Sys2Proof.Machine

/-! ## What an engine keeps -/

/-- What no write of registers or memory and no change of the place of execution touches: the shadow mode, whether the engine waits, and
its tasks in hand. -/
def engineKeeps (e : Dsp) : Bool × Nat × List (Nat × DTask) := (e.c3, e.idle, e.hand)

/-- A choice between two engines that keep it keeps it. -/
theorem engineKeeps_ite {e a b : Dsp} (p : Prop) [Decidable p] (ha : engineKeeps a = engineKeeps e) (hb : engineKeeps b = engineKeeps e) :
    engineKeeps (if p then a else b) = engineKeeps e := by
  split
  · exact ha
  · exact hb

theorem engineKeeps_stWrite (l v : Nat) (e : Dsp) : engineKeeps (stWrite l v e) = engineKeeps e := engineKeeps_ite _ rfl rfl

theorem engineKeeps_regWrite (l c v : Nat) (e : Dsp) : engineKeeps (regWrite l c v e) = engineKeeps e :=
  engineKeeps_ite _ rfl <| engineKeeps_ite _ (engineKeeps_stWrite ..) <| engineKeeps_ite _ rfl <| engineKeeps_ite _ rfl <|
    engineKeeps_ite _ rfl <| engineKeeps_ite _ rfl <| engineKeeps_ite _ rfl <| engineKeeps_ite _ rfl <| engineKeeps_ite _ rfl <|
    engineKeeps_ite _ rfl rfl

theorem engineKeeps_writeNow (l c v : Nat) (e : Dsp) : engineKeeps (writeNow l c v e) = engineKeeps e := engineKeeps_regWrite ..

theorem engineKeeps_memPut (yMem : Bool) (l a : Nat) (v : Word) (e : Dsp) : engineKeeps (memPut yMem l a v e) = engineKeeps e :=
  engineKeeps_ite _ (engineKeeps_ite _ rfl rfl) (engineKeeps_ite _ rfl rfl)

/-! ## Writes in flight (R351, R353) -/

theorem engineKeeps_land (w : DWr) (e : Dsp) : engineKeeps (land w e) = engineKeeps e := by
  cases h : w.tgt with
  | reg c => simpa only [land, h] using engineKeeps_regWrite ..
  | _ => simp only [land, h]; rfl

theorem engineKeeps_foldl {β : Type} (f : Dsp → β → Dsp) (hf : ∀ e b, engineKeeps (f e b) = engineKeeps e) (l : List β) (e : Dsp) :
    engineKeeps (l.foldl f e) = engineKeeps e :=
  List.foldlRecOn (motive := fun x => engineKeeps x = engineKeeps e) _ _ rfl fun x hx b _ => (hf x b).trans hx

theorem engineKeeps_landSpan (first n : Nat) (e : Dsp) : engineKeeps (landSpan first n e) = engineKeeps e :=
  engineKeeps_foldl _ (fun x k => (engineKeeps_foldl _ (fun _ _ => engineKeeps_land ..) _
    { x with flight := x.flight.filter fun w => w.due != first + k }).trans rfl) _ _

theorem engineKeeps_commitAll (e : Dsp) : engineKeeps (commitAll e) = engineKeeps e := engineKeeps_landSpan ..

/-! ## The end of an instruction (R349, R352) -/

theorem engineKeeps_popLoop (e : Dsp) : engineKeeps (popLoop e) = engineKeeps e := by
  cases h : e.lstk <;> simp only [popLoop, h] <;> rfl

theorem engineKeeps_sequence (pc : Nat) (e : Dsp) : engineKeeps (sequence pc e) = engineKeeps e :=
  engineKeeps_ite _ (engineKeeps_ite _ rfl (engineKeeps_ite _ (engineKeeps_popLoop (loopNow e)) rfl)) rfl

theorem engineKeeps_rtiEnd (e : Dsp) : engineKeeps (rtiEnd e) = engineKeeps e := by
  cases h : e.pcstk with
  | nil => simp only [rtiEnd, h]
  | cons p r =>
    simp only [rtiEnd, h]
    have hst : engineKeeps (stWrite 0 p.2 { e with pc := p.1, pcstk := r }) = engineKeeps e := engineKeeps_stWrite ..
    exact engineKeeps_ite _ hst hst

theorem engineKeeps_complete (old : Dsp) (w : Nat) (e : Dsp) (next : Option Nat) :
    engineKeeps (complete old w e next) = engineKeeps e := by
  have hslot (e2 : Dsp) (n : Nat) : engineKeeps { e2 with slot := n } = engineKeeps e2 := rfl
  refine (hslot _ _).trans (engineKeeps_ite _ (engineKeeps_rtiEnd _) ?_)
  cases (if old.delay then old.target else none) with
  | some t => rfl
  | none =>
    cases next with
    | some n => rfl
    | none => exact engineKeeps_sequence ..

/-! ## The next instruction -/

/-- The row of an opcode finds it as the engine's next instruction. -/
structure NextIs (m : M) (die n op : Nat) (e0 : Dsp) : Prop where
  engine : getDsp m die n = some e0
  issues : mayIssue e0 op = true
  opcode : opOf (progAt (commit e0) (commit e0).pc) = op

@[simp] theorem getDsp_setDsp_same (die n : Nat) (e : Dsp) (m : M) : getDsp (setDsp die n e m) die n = some e :=
  tget?_tset_same ..

section
variable {m : M} {die n op : Nat} {e0 : Dsp}

/-- An instruction that does not fault acts by its body. -/
theorem dspDo_of_sound (h : NextIs m die n op e0) (hsound : wordFault (commit e0) (progAt (commit e0) (commit e0).pc) = none)
    (body : DBody) :
    dspDo op body die n m =
      setDsp die n (complete (commit e0) (progAt (commit e0) (commit e0).pc)
        (body (progAt (commit e0) (commit e0).pc) { commit e0 with delay := false, target := none, rti := false }).1
        (body (progAt (commit e0) (commit e0).pc) { commit e0 with delay := false, target := none, rti := false }).2) m := by
  obtain ⟨he, hissue, hop⟩ := h
  simp only [dspDo, he, hissue, hop, hsound, Bool.not_true, Bool.false_eq_true, if_false, ne_eq, not_true_eq_false]

theorem issues_of_exec {row : Nat → Nat → Instr} {op : Nat} {body : DBody}
    (hrow : ∀ die n s, exec (row die n) s = lift (dspDo op body die n) s) : Issues row op body :=
  fun s die n _ he hissue hop hsound => (hrow die n s).trans (lift_of_eq (dspDo_of_sound ⟨he, hissue, hop⟩ hsound body))

theorem dspFault_of_fault {c : Nat} (he : getDsp m die n = some e0)
    (hissue : mayIssue e0 (opOf (progAt (commit e0) (commit e0).pc)) = true)
    (hfault : wordFault (commit e0) (progAt (commit e0) (commit e0).pc) = some c) :
    dspFault die n m = dspHalt die n c (setDsp die n (commit e0) m) := by
  simp only [dspFault, he, hissue, hfault, Bool.not_true, Bool.false_eq_true, if_false]

/-! ## Tasks (R321, R364) -/

/-- The engine that a GETT with a task leaves before its instruction completes. -/
def taskGot (m : M) (t : DTask) (e : Dsp) : Dsp :=
  writeNow 0 (rsOf (progAt e e.pc)) (Config.freeNat m.drawn % 2 ^ 32)
    ((List.range 8).foldl (fun x i => memPut false 0 i (BitVec.ofNat 32 (Config.freeNat (m.drawn + 1 + i))) x)
      { e with delay := false, target := none, rti := false, idle := 0, hand := e.hand ++ [(Config.freeNat m.drawn % 2 ^ 32, t)] })

theorem engineKeeps_taskGot (t : DTask) (e : Dsp) :
    engineKeeps (taskGot m t e) = (e.c3, 0, e.hand ++ [(Config.freeNat m.drawn % 2 ^ 32, t)]) := by
  rw [taskGot, engineKeeps_writeNow, engineKeeps_foldl _ fun _ _ => engineKeeps_memPut ..]
  rfl

section
variable (h : NextIs m die n 0x39 e0) (hsound : wordFault (commit e0) (progAt (commit e0) (commit e0).pc) = none)
include h hsound

theorem dspGett_of_none (hnone : nextTask m die n = none) : dspGett die n m = setDsp die n { commit e0 with idle := 2 } m := by
  obtain ⟨he, hissue, hop⟩ := h
  simp only [dspGett, he, hissue, hop, hsound, hnone, Bool.not_true, Bool.false_eq_true, if_false, ne_eq, not_true_eq_false]

theorem dspGett_of_task {t : DTask} (ht : nextTask m die n = some t) :
    dspGett die n m =
      setDsp die n (complete (commit e0) (progAt (commit e0) (commit e0).pc) (taskGot m t (commit e0)) none)
        { m with drawn := m.drawn + 9, tsk.ready := tset m.tsk.ready die ((tget m.tsk.ready die []).erase t) } := by
  obtain ⟨he, hissue, hop⟩ := h
  simp only [dspGett, he, hissue, hop, hsound, ht, Bool.not_true, Bool.false_eq_true, if_false, ne_eq, not_true_eq_false, taskGot]

end

theorem dspPutt_of_hand {h : Nat × DTask} (hnext : NextIs m die n 0x3A e0)
    (hsound : wordFault (commit e0) (progAt (commit e0) (commit e0).pc) = none)
    (hfind : ((commit e0).hand.find? fun h => h.1 == (dReg (commit e0) 0 (rsOf (progAt (commit e0) (commit e0).pc))).toNat) = some h) :
    dspPutt die n m =
      taskDone die n h.2 (setDsp die n (complete (commit e0) (progAt (commit e0) (commit e0).pc)
        { commit e0 with delay := false, target := none, rti := false, hand := (commit e0).hand.erase h } none) m) := by
  obtain ⟨he, hissue, hop⟩ := hnext
  simp only [dspPutt, he, hissue, hop, hsound, hfind, Bool.not_true, Bool.false_eq_true, if_false, ne_eq, not_true_eq_false]

/-! ## Interrupts (R353, R355) -/

/-- An interrupt is taken at once, on an engine without a shadow set: all that is in flight lands, and PC and ST are saved. -/
theorem dspInterrupt_of_open (he : getDsp m die n = some e0) (hrun : e0.state = 1) (hstart : e0.started = true)
    (hdelay : e0.delay = false) (hie : e0.ie = true) (hdue : (e0.winEn && e0.winDue || e0.parEn && e0.parDue) = true)
    (hc3 : e0.c3 = false) (hroom : (commitAll e0).pcstk.length < 16) :
    dspInterrupt die n m =
      let win := e0.winEn && e0.winDue
      setDsp die n { commitAll e0 with
        pcstk := ((commitAll e0).pc, stWord (commitAll e0) 0) :: (commitAll e0).pcstk, ie := false, pc := if win then 2 else 4,
        winDue := if win then false else (commitAll e0).winDue, parDue := if win then (commitAll e0).parDue else false, idle := 0,
        slot := (commitAll e0).slot + 3 } m := by
  have hc3' : (commitAll e0).c3 = false := (congrArg Prod.fst (engineKeeps_commitAll e0)).trans hc3
  simp only [dspInterrupt, he, hrun, hstart, hdelay, hie, hdue, hc3, hc3', Nat.not_le.mpr hroom, ne_eq, not_true_eq_false, decide_false,
    Bool.not_true, Bool.or_self, Bool.false_and, Bool.false_eq_true, if_false]

end

/-- Settles O25: an instruction's row is its body on the engine's next instruction, and each other row is the equation of its case. -/
theorem dspInstructionsIssue : Obligations.DspInstructionsIssue := by
  unfold Obligations.DspInstructionsIssue
  refine ⟨?formA, ?moves, ?control, ?gettWaits, ?gett, ?putt, ?window, ?parameter, ?fault⟩
  case formA => and_intros <;> exact issues_of_exec fun _ _ _ => rfl
  case moves => and_intros <;> exact issues_of_exec fun _ _ _ => rfl
  case control => and_intros <;> exact issues_of_exec fun _ _ _ => rfl
  case gettWaits =>
    exact fun s die n e0 he hissue hop hsound hnone => lift_of_eq (dspGett_of_none ⟨he, hissue, hop⟩ hsound hnone)
  case gett =>
    intro s die n e0 t he hissue hop hsound ht
    refine ⟨_, lift_of_eq (dspGett_of_task ⟨he, hissue, hop⟩ hsound ht), rfl, ?_⟩
    have hkeeps : engineKeeps (complete (commit e0) (progAt (commit e0) (commit e0).pc) (taskGot s.m t (commit e0)) none) =
        ((commit e0).c3, 0, (commit e0).hand ++ [(Config.freeNat s.m.drawn % 2 ^ 32, t)]) :=
      (engineKeeps_complete ..).trans (engineKeeps_taskGot ..)
    obtain ⟨-, hrest⟩ := Prod.ext_iff.mp hkeeps
    obtain ⟨hidle, hhand⟩ := Prod.ext_iff.mp hrest
    have hget : getDsp (after s (setDsp die n _ _)).m die n = some _ := getDsp_setDsp_same die n
      (complete (commit e0) (progAt (commit e0) (commit e0).pc) (taskGot s.m t (commit e0)) none) _
    exact ⟨(congrArg (Option.map Dsp.idle) hget).trans (congrArg some hidle),
      (congrArg (Option.map Dsp.hand) hget).trans (congrArg some hhand)⟩
  case putt =>
    exact fun s die n e0 h he hissue hop hsound hfind => lift_of_eq (dspPutt_of_hand ⟨he, hissue, hop⟩ hsound hfind)
  case window =>
    intro s die n e0 he hrun hstart hdelay hie hdue hc3 hroom
    refine lift_of_eq ((dspInterrupt_of_open he hrun hstart hdelay hie (by rw [hdue, Bool.true_or]) hc3 hroom).trans ?_)
    simp only [hdue, if_true]
  case parameter =>
    intro s die n e0 he hrun hstart hdelay hie hnot hdue hc3 hroom
    refine lift_of_eq ((dspInterrupt_of_open he hrun hstart hdelay hie (by rw [hdue, Bool.or_true]) hc3 hroom).trans ?_)
    simp only [hnot, Bool.false_eq_true, if_false]
  case fault => exact fun s die n e0 c he hissue hfault => lift_of_eq (dspFault_of_fault he hissue hfault)

end Sys2Proof.Machine

/-!
Egress scheduling's commands (R306 to R317), ordered flows (R326) and the memory (R374 to R382): the split of a flow, one equation for each
case of the memory's rows, and the obligations of the three.
-/
namespace Sys2Proof.Machine

/-! ## Egress scheduling -/

/-- Settles O14: each command's effect is its spec's. -/
theorem trafficCommandsComplete : Obligations.TrafficCommandsComplete := by
  unfold Obligations.TrafficCommandsComplete
  refine ⟨?port, ?cls, ?queue, ?profile, ?line, ?sample⟩ <;> exact completes_of (fun _ _ => rfl) rfl fun _ _ => rfl

/-! ## Ordered flows (R326) -/

theorem flowSplit_append (l : List FItem) : (flowSplit l).1 ++ (flowSplit l).2 = l := by
  induction l with
  | nil => rfl
  | cons i r ih =>
    simp only [flowSplit]
    split
    · rfl
    · exact congrArg (i :: ·) ih

theorem flowSplit_front (l : List FItem) : ∀ i ∈ (flowSplit l).1, i.st ≠ 0 := by
  induction l with
  | nil => simp [flowSplit]
  | cons i r ih =>
    simp only [flowSplit]
    split
    next => simp
    next hst => exact List.forall_mem_cons.mpr ⟨hst, ih⟩

theorem flowSplit_rest (l : List FItem) : ∀ i, (flowSplit l).2.head? = some i → i.st = 0 := by
  induction l with
  | nil => simp [flowSplit]
  | cons i r ih =>
    simp only [flowSplit]
    split
    next hst =>
      intro j hj
      cases hj
      exact hst
    next => exact ih

/-- What stays of a flow is the rest of its items, whose first is marked as the lowest. -/
theorem flowHand_items (now : Nat) (f : OFlow) :
    (flowHand now f).1.items = (flowSplit f.items).2.modifyHead fun i => if i.low.isSome then i else { i with low := some now } := by
  simp only [flowHand]
  cases (flowSplit f.items).2 with
  | nil => rfl
  | cons i r => by_cases hlow : i.low.isSome <;> simp [hlow]

theorem map_modifyHead_of_keeps {α β : Type} (g : α → β) {f : α → α} (h : ∀ a, g (f a) = g a) (l : List α) :
    (l.modifyHead f).map g = l.map g := by
  cases l <;> simp [h]

/-- Settles O59: a flow hands on the front of its split, and marks the first of the rest. -/
theorem orderedFlowsHandOnInOrder : Obligations.OrderedFlowsHandOnInOrder := by
  unfold Obligations.OrderedFlowsHandOnInOrder
  intro now f
  refine ⟨(flowSplit f.items).1, (flowSplit f.items).2, (flowSplit_append _).symm, flowSplit_front _, flowSplit_rest _, rfl, ?_, ?_⟩
  · rw [flowHand_items]
    exact map_modifyHead_of_keeps _ (fun i => by split <;> rfl) _
  · rw [flowHand_items]
    exact map_modifyHead_of_keeps _ (fun i => by split <;> rfl) _

/-! ## Refresh and temperature (R377) -/

theorem tupd_congr {α : Type} {t : Tbl α} {i : Nat} {f g : α → α} (h : ∀ a, tget? t i = some a → f a = g a) :
    tupd t i f = tupd t i g := by
  unfold tupd
  cases hi : tget? t i with
  | none => rfl
  | some a => simp only [h a hi]

theorem tget?_tupd_other {α : Type} (t : Tbl α) {i j : Nat} (f : α → α) (h : j ≠ i) : tget? (tupd t i f) j = tget? t j := by
  unfold tupd
  split
  · exact tget?_tset_other t _ h
  · rfl

theorem memRefresh_of_usable {m : M} {die ch : Nat} (h : ∀ c, tget? m.mem.chans (memKey die ch) = some c → c.state = 2) :
    memRefresh die ch m =
      updChan (memKey die ch) (fun c => { c with rotor := (c.rotor + 1) % 16, lastRefresh := m.vault.mono }) m := by
  unfold memRefresh updChan
  rw [tupd_congr fun c hc => if_pos (h c hc)]

/-- The second channel of a device, which is read with the first. -/
theorem memTemp_odd {m : M} {die dev : Nat} {t : Int} {c : MemChan} (hopen : tickOpen m (tkTemp die dev) 10000000 = true)
    (hc : tget? m.mem.chans (memKey die (2 * dev + 1)) = some c) (huse : c.state = 2) :
    tget? (memTemp die dev t m).mem.chans (memKey die (2 * dev + 1)) = some { c with temp := hold 255 t.toNat, hot := decide (95 < t) } := by
  have hne : memKey die (2 * dev + 1) ≠ memKey die (2 * dev) := by
    unfold memKey
    omega
  simp only [memTemp, hopen, Bool.not_true, Bool.false_eq_true, if_false, updChan, tget?_tupd_same, tget?_tupd_other _ _ hne, tickMark, hc,
    Option.map_some, huse, if_true]

/-! ## Activation tracking (R378, R379) -/

theorem actWindow_of_due {m : M} {die ch bank : Nat} {c : MemChan} (hc : getChan m (memKey die ch) = some c)
    (hdue : (getTracker m (trackKey die ch bank)).since + trackNs ≤ m.vault.mono) :
    actWindow die ch bank m = { m with
      mem.trackers := tset m.mem.trackers (trackKey die ch bank) { rows := [], since := m.vault.mono, threshold := dieThreshold m die },
      mem.throttles := m.mem.throttles.filter fun t => t.1 != memKey die ch || decide (m.vault.mono < t.2.2.2) } := by
  simp [actWindow, hc, Nat.not_lt.mpr hdue]

/-- A bank's tracker with the samples of a row's operand counted. -/
def trackCounted (m : M) (k : Nat) (act : RowAct) : Tracker :=
  let t0 := getTracker m k
  { t0 with rows := act.sampled.foldl trackRun t0.rows }

section
variable {m : M} {die ch bank : Nat} {act : RowAct} {c : MemChan} (hc : getChan m (memKey die ch) = some c) (huse : c.state = 2)
include hc huse

/-- Below its threshold a row only adds to its count. -/
theorem rowThreshold_below (hlow : rowEstimate (trackCounted m (trackKey die ch bank) act).rows act.row <
    (trackCounted m (trackKey die ch bank) act).threshold) (rd ru : Nat) :
    rowThreshold die ch bank act rd ru m =
      { m with mem.trackers := tset m.mem.trackers (trackKey die ch bank) (trackCounted m (trackKey die ch bank) act) } := by
  unfold trackCounted at hlow ⊢
  simp only [rowThreshold, hc, huse, ne_eq, not_true_eq_false, if_false, if_pos hlow]

/-- At its threshold a row's entry clears and its requester is throttled; the rest is reported. -/
theorem rowThreshold_reached (hhigh : (trackCounted m (trackKey die ch bank) act).threshold ≤
    rowEstimate (trackCounted m (trackKey die ch bank) act).rows act.row) (rd ru : Nat) :
    Reports { m with
        mem.trackers := tset m.mem.trackers (trackKey die ch bank)
          { trackCounted m (trackKey die ch bank) act with
            rows := (trackCounted m (trackKey die ch bank) act).rows.filter fun r => r.1 != act.row },
        mem.throttles := (m.mem.throttles.filter fun x => !(x.1 == memKey die ch && x.2.1 == rd && x.2.2.1 == ru)) ++
          [(memKey die ch, rd, ru, (trackCounted m (trackKey die ch bank) act).since + 2 * trackNs)] }
      (rowThreshold die ch bank act rd ru m) := by
  unfold trackCounted at hhigh ⊢
  simp only [rowThreshold, hc, huse, ne_eq, not_true_eq_false, if_false, if_neg (Nat.not_lt.mpr hhigh)]
  refine Reports.trans ?_ (reports_limited _ _ _ (fun _ => reports_raise ..) _)
  exact ((reports_cntAdd ..).trans (reports_cntAdd ..)).trans (reports_action ..)

end

/-! ## Uncorrectable reads (R374 to R376) -/

/-- The uncorrectable reads of a channel within a second, with one more now. -/
def eccLog (m : M) (k : Nat) : List Nat :=
  m.vault.mono :: (tget m.mem.eccSince k []).filter fun t => decide (m.vault.mono < t + nsPerS)

/-- A read that counts has the outcome of its region on a machine that has reported and logged it. -/
theorem eccUncorrectable_of_usable {m : M} {die ch : Nat} {link : Bool} {w : MemData} {c : MemChan} (hc : getChan m (memKey die ch) = some c)
    (huse : c.state = 2) (hrun : die = 0 ∨ dieRun m die = true) (hread : link = true ∨ memProtected m die w = true)
    (hregion : die = 0 ↔ memRegion w = 3) (hhub : hubHolds m ch w = true) :
    ∃ m3 log, eccUncorrectable die ch link w m = memOutcome die w m3 ∧
      Reports { m with mem.eccSince := tset m.mem.eccSince (memKey die ch) log } m3 := by
  have hrun' : (die != 0 && !dieRun m die) = false := by
    rcases hrun with h | h <;> simp [h]
  have hread' : (link || memProtected m die w) = true := by
    rcases hread with h | h <;> simp [h]
  have hregion' : (die == 0) = (memRegion w == 3) := by rw [Bool.eq_iff_iff, beq_iff_eq, beq_iff_eq, hregion]
  simp only [eccUncorrectable, hc, huse, hrun', hread', hregion', hhub, ne_eq, not_true_eq_false, decide_false, Bool.not_true, Bool.or_self,
    Bool.false_eq_true, if_false, bne_self_eq_false]
  refine ⟨_, eccLog m (memKey die ch), rfl, ?_⟩
  refine Reports.trans ?_ (reports_limited _ _ _ (fun _ => reports_raise ..) _)
  cases link <;> rfl

/-- Settles O26: a command's effect is its spec's, and a row the equation of its case; what a threshold and an uncorrectable read report
is a chain of reports. -/
theorem memoryRowsComplete : Obligations.MemoryRowsComplete := by
  unfold Obligations.MemoryRowsComplete
  refine ⟨?rate, ?ecc, ?act, ?refresh, ?temp, ?window, ?reached, ?below, ?uncorrectable⟩
  case rate => exact completes_of (fun _ _ => rfl) rfl fun _ _ => rfl
  case ecc => exact completes_of (fun _ _ => rfl) rfl fun _ _ => rfl
  case act => exact completes_of (fun _ _ => rfl) rfl fun _ _ => rfl
  case refresh => exact fun s die ch h => lift_of_eq (memRefresh_of_usable h)
  case temp =>
    exact fun s die dev t hopen => ⟨after s (memTemp die dev t s.m), lift_of_eq rfl, fun c hc huse => memTemp_odd hopen hc huse⟩
  case window => exact fun s die ch bank c hc hdue => lift_of_eq (actWindow_of_due hc hdue)
  case reached =>
    rintro s die ch bank row rd ru c t hc huse rfl hhigh
    exact ⟨_, _, lift_of_eq rfl, rowThreshold_reached hc huse hhigh rd ru, rfl⟩
  case below =>
    rintro s die ch bank row rd ru c t hc huse rfl hlow
    exact lift_of_eq (rowThreshold_below hc huse hlow rd ru)
  case uncorrectable =>
    intro s die ch link w c hc huse hrun hread hregion hhub
    obtain ⟨m3, log, hm3, hreports⟩ := eccUncorrectable_of_usable hc huse hrun hread hregion hhub
    exact ⟨m3, log, lift_of_eq hm3, hreports⟩

end Sys2Proof.Machine

/-!
Forwarding (R299 to R305) and the signal engines' commands (R336, R357, R362 to R365, R389): one equation for each case of a command or a
row, and the obligations of the two.
-/
namespace Sys2Proof.Machine

/-! ## FWD_SET and FWD_MEMBER_ADD (R299) -/

/-- The entry that a FWD_SET makes. -/
def fwdOfD (d : Desc) : Fwd := { source := pay d 0 4, layer := pay d 4 1, pliMs := pay d 6 2, members := [], lastPli := none }

section
variable {d : Desc} {m : M}

theorem apply_fwdSet_of_absent (hnone : getFwd m (fwdIdx d) = none) (hstate : fwdState d m = 0) :
    fwdSetSpec.apply d m =
      (own (oid d) (pathFn m d.path) { m with snd.fwds := tset m.snd.fwds (fwdIdx d) (fwdOfD d) },
       .done { reply stOK 0 1 with before := 0 }) := by
  simp only [fwdSetSpec, hnone, hstate, if_true, fwdOfD]

theorem apply_fwdSet_of_present {f : Fwd} (hf : getFwd m (fwdIdx d) = some f) (hstate : fwdState d m = 1) :
    fwdSetSpec.apply d m =
      (updFwd (fwdIdx d) (fun f => { f with pliMs := pay d 6 2 }) m, .done { reply stOK 0 1 with before := 1 }) := by
  have hget : tget? m.snd.fwds (fwdIdx d) = some f := hf
  simp only [fwdSetSpec, hf, hstate, updFwd, tupd, hget, Nat.one_ne_zero, if_false]

theorem apply_fwdMemberAdd_of_new (hnew : isMember d m = false) :
    fwdMemberAddSpec.apply d m =
      let m1 := updSend (memberKey d) (fun s => { s with state := 2 })
        (updFwd (fwdIdx d) (fun f => { f with members := f.members ++ [memberKey d] }) m)
      (if streamSt m (memberKey d) = 1 then joinWait (memberKey d) m1 else m1, .done (reply stOK 0 1)) := by
  simp only [fwdMemberAddSpec, hnew, Bool.false_eq_true, if_false]
  rfl

end

/-! ## Packets of a source, waits and holds (R300, R304, R305) -/

section
variable {m : M} {die i : Nat}

theorem sourceForward_of_received {x : Strm} {p : Handed} {r : List Handed} (hi : i < 4096)
    (hx : tget? m.net.streams (mkKey die i) = some x) (hwaits : x.forward = p :: r) :
    sourceForward die i m =
      forwardPacket (strmOid (mkKey die i)) p
        { m with net.streams := tupd m.net.streams (mkKey die i) fun x => { x with forward := r } } := by
  simp only [sourceForward, if_pos hi, hx, hwaits]

theorem sourceForward_of_origin {x : Send} {p : Handed} {r : List Handed} (hi : 4096 ≤ i) (hx : getSend m (mkKey die i) = some x)
    (hwaits : x.srcq = p :: r) :
    sourceForward die i m =
      forwardPacket (sendOid (mkKey die i)) p (updSend (mkKey die i) (fun x => { x with srcq := r }) m) := by
  simp only [sourceForward, if_neg (Nat.not_lt.mpr hi), hx, hwaits]

theorem upWait_of_due {x : Send} {l : Leg} {t : Nat} (hx : getSend m (mkKey die i) = some x) (hl : getLeg m (sendLeg (mkKey die i)) = some l)
    (ht : x.upSince = some t) (hdue : tickDue m (t + (getProfile m l.profile).upWait * 1000000) = true) (hcarry : legCarries l = true) :
    upWait die i m =
      refreshReq (mkKey die i) x.ts_ (updSend (mkKey die i) (fun y => { y with upSince := some m.dev }) m) := by
  simp only [upWait, hx, hl, ht, hdue, hcarry, Bool.and_self, if_true]

theorem rtxExpire_of_leg {l : Leg} (hl : getLeg m (sendLeg (mkKey die i)) = some l) :
    rtxExpire die i m =
      updSend (mkKey die i) (fun x => { x with
        rtx := x.rtx.filter fun r => !tickDue m (r.sentAt + (getProfile m l.profile).rtx * 1000000) }) m := by
  simp only [rtxExpire, hl]

end

/-- Settles O15: a command is its spec's effect in the case that its hypotheses single out, and a row the equation of its meaning. -/
theorem forwardingRowsComplete : Obligations.ForwardingRowsComplete := by
  unfold Obligations.ForwardingRowsComplete
  refine ⟨?made, ?changed, ?deleted, ?added, ?removed, ?received, ?origin, ?upWait, ?hold⟩
  case made => exact completesIf_of (fun _ _ => rfl) rfl fun _ _ ⟨hnone, hstate⟩ => apply_fwdSet_of_absent hnone hstate
  case changed => exact completesIf_of (fun _ _ => rfl) rfl fun _ _ ⟨⟨_, hf⟩, hstate⟩ => apply_fwdSet_of_present hf hstate
  case deleted => exact completes_of (fun _ _ => rfl) rfl fun _ _ => rfl
  case added => exact completesIf_of (fun _ _ => rfl) rfl fun _ _ hnew => apply_fwdMemberAdd_of_new hnew
  case removed => exact completes_of (fun _ _ => rfl) rfl fun _ _ => rfl
  case received => exact fun s die i x p r hi hx hwaits => lift_of_eq (sourceForward_of_received hi hx hwaits)
  case origin => exact fun s die i x p r hi hx hwaits => lift_of_eq (sourceForward_of_origin hi hx hwaits)
  case upWait => exact fun s die i x l t hx hl ht hdue hcarry => lift_of_eq (upWait_of_due hx hl ht hdue hcarry)
  case hold => exact fun s die i l hl => lift_of_eq (rtxExpire_of_leg hl)

/-! ## DSP_RESTART (R365) -/

section
variable {d : Desc} {m : M}

theorem apply_dspRestart_of_halted (hstate : dspCode d m = 2) :
    dspRestartSpec.apply d m =
      (dspState (oidDie (oid d)) (dspNo d) 2 1 0 (dspReload (oidDie (oid d)) (dspNo d) m), .later) := by
  simp only [dspRestartSpec, hstate, if_true]

theorem apply_dspRestart_of_running (hstate : dspCode d m = 1) :
    dspRestartSpec.apply d m = (dspReload (oidDie (oid d)) (dspNo d) m, .later) := by
  simp [dspRestartSpec, hstate]

/-! ## DSP_PAIR (R389) -/

/-- The machine after the join or the split that a DSP_PAIR asks for. -/
def dspPairMade (d : Desc) (m m1 : M) : Prop :=
  (wantJoin d = true ∧ ∃ b, wideBlob m (oidDie (oid d)) (pay d 2 2) = some b ∧ m1 = dspJoin (oidDie (oid d)) (dspNo d) b m) ∨
  (wantJoin d = false ∧ m1 = dspSplit (oidDie (oid d)) (dspNo d) m)

/-- Both engines of the pair have begun. -/
def pairBegun (d : Desc) (m : M) : Bool :=
  engineBegun m (oidDie (oid d)) (dspNo d) && engineBegun m (oidDie (oid d)) (dspNo d + 1)

theorem apply_dspPair {m1 : M} (hmade : dspPairMade d m m1) :
    dspPairSpec.apply d m =
      if pairBegun d m1 then (m1, plainDone (dspCode d m) (dspCode d m1))
      else ({ m1 with join.waits := m1.join.waits ++ [(d, dspCode d m)] }, .later) := by
  rcases hmade with ⟨hjoin, b, hb, rfl⟩ | ⟨hsplit, rfl⟩
  · simp only [dspPairSpec, hjoin, hb, if_true]
    rfl
  · simp only [dspPairSpec, hsplit, Bool.false_eq_true, if_false]
    rfl

theorem pairBegun_of_either (h : engineBegun m (oidDie (oid d)) (dspNo d) = false ∨ engineBegun m (oidDie (oid d)) (dspNo d + 1) = false) :
    pairBegun d m = false := by
  rcases h with h | h <;> simp [pairBegun, h]

/-- An engine that has not begun completes the command later. -/
theorem applyCmd_dspPair_later {m1 : M} (hmade : dspPairMade d m m1)
    (h : engineBegun m1 (oidDie (oid d)) (dspNo d) = false ∨ engineBegun m1 (oidDie (oid d)) (dspNo d + 1) = false) (late : Bool) :
    applyCmd dspPairSpec d late m =
      { m1 with join.waits := m1.join.waits ++ [(d, dspCode d m)], deferred := m1.deferred ++ [d] } := by
  have happly : dspPairSpec.apply d m = ({ m1 with join.waits := m1.join.waits ++ [(d, dspCode d m)] }, .later) := by
    rw [apply_dspPair hmade, pairBegun_of_either h, if_neg Bool.false_ne_true]
  exact applyCmd_of_later happly rfl late

end

/-- Settles O24: a command is its spec's effect in the case that its hypotheses single out; one that waits for an engine is owed. -/
theorem dspCommandsComplete : Obligations.DspCommandsComplete := by
  unfold Obligations.DspCommandsComplete
  refine ⟨?portSet, ?portClear, ?paramSet, ?halt, ?restartHalted, ?restartRunning, ?joined, ?joins, ?splits⟩
  case portSet => exact completes_of (fun _ _ => rfl) rfl fun _ _ => rfl
  case portClear => exact completes_of (fun _ _ => rfl) rfl fun _ _ => rfl
  case paramSet => exact completes_of (fun _ _ => rfl) rfl fun _ _ => rfl
  case halt => exact completes_of (fun _ _ => rfl) rfl fun _ _ => rfl
  case restartHalted =>
    exact actsIf_of (fun _ _ => rfl) rfl fun _ late _ hstate => applyCmd_of_later (apply_dspRestart_of_halted hstate) rfl late
  case restartRunning =>
    exact actsIf_of (fun _ _ => rfl) rfl fun _ late _ hstate => applyCmd_of_later (apply_dspRestart_of_running hstate) rfl late
  case joined =>
    refine fun b => completesIf_of (fun _ _ => rfl) rfl fun d m ⟨hjoin, hb, heven, hodd⟩ => ?_
    rw [apply_dspPair (.inl ⟨hjoin, b, hb, rfl⟩), pairBegun, heven, hodd]
    rfl
  case joins =>
    exact fun b => actsIf_of (fun _ _ => rfl) rfl fun _ late _ ⟨hjoin, hb, hwait⟩ =>
      applyCmd_dspPair_later (.inl ⟨hjoin, b, hb, rfl⟩) hwait late
  case splits =>
    exact actsIf_of (fun _ _ => rfl) rfl fun _ late _ ⟨hsplit, hwait⟩ => applyCmd_dspPair_later (.inr ⟨hsplit, rfl⟩) hwait late

end Sys2Proof.Machine

/-!
The compositor (R243 to R264): one equation for each case of its commands and of the end of a composition, and the obligation of its
rows.
-/
namespace Sys2Proof.Machine

/-! ## CMP_DEFINE (R243, R244) -/

/-- Only a compositor that was ABSENT passes to the one that defines it. -/
theorem apply_cmpDefine_of_place {d : Desc} {m : M} {k : Nat} (hk : cmpPlace d m = some k) :
    cmpDefineSpec.apply d m =
      (if cmpCode m k = 0 then own (cmpOid k) (pathFn m d.path) (defineComp k d m) else defineComp k d m,
       .done { reply (if 1000 < defineLoad d m k then stDegraded else stOK)
                 (if oidDie (oid d) = 0 then cmpOid k else b2n (decide (1000 < defineLoad d m k))) 1 with before := cmpCode m k }) := by
  simp only [cmpDefineSpec, hk, decide_eq_true_eq]

/-! ## The staged set (R246, R262) -/

/-- What a staged command makes of a compositor's staged set, and its reply. -/
def stagedBy (d : Desc) (f : CmpSet → CmpSet) (m : M) : M × Applied := (updStaged (cmpKey d) f m, okReply (cmpState d m))

section
variable {d : Desc} {m : M}

theorem apply_cmpOutputSet_of_bound {o : Nat × Nat} (ho : outputOf d = some o) :
    cmpOutputSetSpec.apply d m = stagedBy d (fun x => { x with outputs := tset x.outputs (pay d 0 1) o }) m := by
  simp only [cmpOutputSetSpec, ho, stagedBy]

theorem apply_cmpOutputSet_of_unbound (ho : outputOf d = none) :
    cmpOutputSetSpec.apply d m = stagedBy d (fun x => { x with outputs := tdel x.outputs (pay d 0 1) }) m := by
  simp only [cmpOutputSetSpec, ho, stagedBy]

theorem apply_cmpLayerSet_of_absent (hkind : pay d 1 1 = 0) :
    cmpLayerSetSpec.apply d m = stagedBy d (fun x => { x with layers := tdel x.layers (pay d 0 1) }) m := by
  simp only [cmpLayerSetSpec, hkind, if_true, stagedBy]

theorem apply_cmpLayerSet_of_present (hkind : pay d 1 1 ≠ 0) :
    cmpLayerSetSpec.apply d m =
      stagedBy d (fun x => { x with layers := tset x.layers (pay d 0 1) (layerOf d (tget? x.layers (pay d 0 1))) }) m := by
  simp only [cmpLayerSetSpec, hkind, if_false, stagedBy]

end

/-! ## CMP_COMMIT (R257) -/

section
variable {d : Desc} {m : M} {c : Comp} (hc : getComp m (cmpKey d) = some c)
include hc

theorem applyCommit_of_revert (hrevert : payBit d 0 0 = true) (late : Bool) :
    applyCommit late d m =
      (draw (updComp (cmpKey d) (fun y => { y with staged := y.force }) m),
       .done { reply stOK 0 c.state with plain := some (0, Config.freeNat m.drawn % 2 ^ 64) }) := by
  simp only [applyCommit, hc, hrevert, if_true]

section
variable {x : CmpSet} {y : Comp} (hset : payBit d 0 0 = false) (hx : c.captured = some x)
  (hwhole : splitLayers (cmpWidth m (cmpKey d)) x = []) (hy : getComp (applySet (cmpKey d) x m) (cmpKey d) = some y)
  (hload : y.load ≤ 1000)
include hset hx hwhole hy hload

/-- A captured set that splits no layer and stays within pace comes into force as it is. -/
theorem applyCommit_of_whole (late : Bool) :
    applyCommit late d m =
      (raise 0x1303 5 (cmpOid (cmpKey d)) [.u 4 (boundaryNo (cmpGrid c) m.dev % 2 ^ 32), .u 1 (b2n late), .u 4 0]
         (applySet (cmpKey d) x m),
       .done { reply stOK 0 c.state with plain := some (0, boundaryNo (cmpGrid c) m.dev) }) := by
  simp only [applyCommit, hc, hset, hx, hwhole, hy, Option.getD_some, Nat.not_lt.mpr hload, decide_false, List.isEmpty_nil,
    Bool.not_true, Bool.false_eq_true, if_false]
  rfl

/-- It completes as OK at its boundary, and as OK_LATE when its commit time had passed. -/
theorem applyCmd_cmpCommit_of_whole (late : Bool) :
    applyCmd cmpCommitSpec d late m =
      finish d false { reply (if late then stLate else stOK) 0 c.state with plain := some (0, boundaryNo (cmpGrid c) m.dev) }
        (raise 0x1303 5 (cmpOid (cmpKey d)) [.u 4 (boundaryNo (cmpGrid c) m.dev % 2 ^ 32), .u 1 (b2n late), .u 4 0]
          (applySet (cmpKey d) x m)) := by
  have hact : (if late then cmpCommitSpec.applyLate.getD cmpCommitSpec.apply else cmpCommitSpec.apply) = applyCommit late := by
    cases late <;> rfl
  have hptr : cmpCommitSpec.ptr = false := rfl
  simp only [applyCmd, hact, applyCommit_of_whole hc hset hx hwhole hy hload, hptr]
  cases late <;> rfl

end

/-! ## The cursor (R256, R264) -/

theorem applyCursor_of_shown
    (hshown : ¬ (payBit d 4 0 = c.cursor.visible ∧ pay d 5 1 = c.cursor.hotX ∧ pay d 6 1 = c.cursor.hotY)) :
    applyCursor d m =
      (updComp (cmpKey d) (fun x => { x with cursor := { c.cursor with
          x := payS d 0 2, y := payS d 2 2, visible := payBit d 4 0, hotX := pay d 5 1, hotY := pay d 6 1 } }) m,
       .done (reply stOK 0 c.state)) := by
  have hmoved : (payBit d 4 0 == c.cursor.visible && pay d 5 1 == c.cursor.hotX && pay d 6 1 == c.cursor.hotY) = false := by
    simpa [and_assoc] using hshown
  simp only [applyCursor, hc, hmoved, Bool.false_eq_true, if_false]

/-- A cursor that only moves writes no record. -/
theorem applyCursor_of_moved (hvisible : payBit d 4 0 = c.cursor.visible) (hhotX : pay d 5 1 = c.cursor.hotX)
    (hhotY : pay d 6 1 = c.cursor.hotY) :
    applyCursor d m =
      (updComp (cmpKey d) (fun x => { x with cursor := { c.cursor with x := payS d 0 2, y := payS d 2 2 } }) m,
       .quiet (reply stOK 0 c.state)) := by
  simp only [applyCursor, hc, hvisible, hhotX, hhotY, beq_self_eq_true, Bool.and_self, if_true]

end

theorem applyCmd_of_quiet {sp : CmdSpec} {d : Desc} {m m1 : M} {r : Reply} (h : sp.apply d m = (m1, .quiet r))
    (hsame : sp.applyLate = none) (late : Bool) : applyCmd sp d late m = finishQuiet d (lateReply late r) m1 := by
  cases late <;> simp [applyCmd, hsame, h]

/-! ## Glyphs and the guarded layer (R253, R258) -/

theorem apply_cmpGlyphLoad_of_atlas {d : Desc} {m : M} {l : List Glyph} (hl : atlasOf d = .ok l) :
    cmpGlyphLoadSpec.apply d m = ({ m with cmp.atlas := tset m.cmp.atlas (oidDie (oid d)) l }, okReply 0xFF) := by
  simp only [cmpGlyphLoadSpec, hl]

theorem apply_cmpGuardSet_of_comp {d : Desc} {m : M} {c : Comp} (hc : getComp m (cmpKey d) = some c) :
    cmpGuardSetSpec.apply d m =
      (updComp (cmpKey d) (fun x =>
        { x with guard := some { guardOfBuf d with crc := guardRef (guardOfBuf d) (formatSize c.format).1 (formatSize c.format).2 },
                 guardSet := true }) m, okReply c.state) := by
  simp only [cmpGuardSetSpec, hc]

theorem apply_cmpGuardClear_of_last {d : Desc} {m : M}
    (hlast : (m.pend.any fun p => p.d.opcode == 0x130F && oid p.d == oid d) = false) :
    cmpGuardClearSpec.apply d m =
      (updComp (cmpKey d) (fun c => { c with guard := none, guardSet := false, good := none }) m, okReply (cmpState d m)) := by
  simp only [cmpGuardClearSpec, hlast]

/-! ## The end of a composition (R47, R260, R261) -/

/-- The counts and the slack of a composition that ends in time. -/
def compTimely (die idx dl : Nat) (c : Comp) (f : CFrame) (m : M) : M :=
  countCmp (mkKey die idx) 0 1 (reportSlack die (44 + idx) ((dl : Int) - m.dev) (winLen (cmpGrid c) f.window) m)

section
variable {m : M} {die idx dl : Nat} {c : Comp} {f : CFrame} (hc : getComp m (mkKey die idx) = some c) (hjob : c.job = some (f, dl))
include hc hjob

theorem compDone_of_late (hlate : dl ≤ m.dev) (crc : Option Nat) : compDone die idx crc m = cmpAbort (mkKey die idx) m := by
  simp only [compDone, hc, hjob, if_pos hlate]

section
variable (htime : m.dev < dl)
include htime

theorem compDone_of_unguarded (hnone : f.guard = none) (crc : Option Nat) :
    compDone die idx crc m =
      frameComplete (mkKey die idx) f false (updComp (mkKey die idx) (fun x => { x with guardLast := 0 }) (compTimely die idx dl c f m)) := by
  simp only [compDone, hc, hjob, if_neg (Nat.not_le.mpr htime), hnone, compTimely]

/-- The blend stage saw the guarded layer as its reference has it. -/
theorem compDone_of_guarded {g : Guard} (hg : f.guard = some g) :
    compDone die idx none m =
      frameComplete (mkKey die idx) f true
        (updComp (mkKey die idx) (fun x => { x with guardLast := g.crc }) (compTimely die idx dl c f m)) := by
  simp only [compDone, hc, hjob, if_neg (Nat.not_le.mpr htime), hg, Option.getD_none, if_true, compTimely]

end

end

/-- Settles O22: a command is its spec's effect on the compositor that it finds, in the case that its hypotheses single out, and the end of
a composition the equation of its meaning. -/
theorem compositorRowsComplete : Obligations.CompositorRowsComplete := by
  unfold Obligations.CompositorRowsComplete
  refine ⟨?redefine, ?define, ?start, ?stop, ?delete, ?outputBound, ?outputUnbound, ?layerAbsent, ?layerPresent, ?colour, ?style, ?zlist,
    ?lut, ?revert, ?commitNow, ?commit, ?cursorShown, ?cursorMoved, ?cursorImage, ?glyphs, ?guardSet, ?guardClear, ?late, ?unguarded,
    ?guarded⟩
  case redefine =>
    refine fun k => completesIf_of (fun _ _ => rfl) rfl fun d m ⟨hk, hcode⟩ => ?_
    rw [apply_cmpDefine_of_place hk, hcode]
    rfl
  case define =>
    refine fun k => completesIf_of (fun _ _ => rfl) rfl fun d m ⟨hk, hcode⟩ => ?_
    rw [apply_cmpDefine_of_place hk, hcode]
    rfl
  case start => exact completes_of (fun _ _ => rfl) rfl fun _ _ => rfl
  case stop => exact completes_of (fun _ _ => rfl) rfl fun _ _ => rfl
  case delete => exact completes_of (fun _ _ => rfl) rfl fun _ _ => rfl
  case outputBound => exact fun o => completesIf_of (fun _ _ => rfl) rfl fun _ _ ho => apply_cmpOutputSet_of_bound ho
  case outputUnbound => exact completesIf_of (fun _ _ => rfl) rfl fun _ _ ho => apply_cmpOutputSet_of_unbound ho
  case layerAbsent => exact completesIf_of (fun _ _ => rfl) rfl fun _ _ hkind => apply_cmpLayerSet_of_absent hkind
  case layerPresent => exact completesIf_of (fun _ _ => rfl) rfl fun _ _ hkind => apply_cmpLayerSet_of_present hkind
  case colour => exact completes_of (fun _ _ => rfl) rfl fun _ _ => rfl
  case style => exact completes_of (fun _ _ => rfl) rfl fun _ _ => rfl
  case zlist => exact completes_of (fun _ _ => rfl) rfl fun _ _ => rfl
  case lut => exact completes_of (fun _ _ => rfl) rfl fun _ _ => rfl
  case revert =>
    exact fun c => completesIf_of (fun _ _ => rfl) rfl fun _ _ ⟨hc, hrevert⟩ => applyCommit_of_revert hc hrevert false
  case commitNow =>
    exact fun c x y => completesIf_of (fun _ _ => rfl) rfl fun _ _ ⟨hc, hset, hx, hwhole, hy, hload⟩ =>
      applyCommit_of_whole hc hset hx hwhole hy hload false
  case commit =>
    exact fun c x y => actsIf_of (fun _ _ => rfl) rfl fun _ late _ ⟨hc, hset, hx, hwhole, hy, hload⟩ =>
      applyCmd_cmpCommit_of_whole hc hset hx hwhole hy hload late
  case cursorShown =>
    exact fun c => completesIf_of (fun _ _ => rfl) rfl fun _ _ ⟨hc, hshown⟩ => applyCursor_of_shown hc hshown
  case cursorMoved =>
    exact fun c => actsIf_of (fun _ _ => rfl) rfl fun _ late _ ⟨hc, hvisible, hhotX, hhotY⟩ =>
      applyCmd_of_quiet (applyCursor_of_moved hc hvisible hhotX hhotY) rfl late
  case cursorImage => exact completes_of (fun _ _ => rfl) rfl fun _ _ => rfl
  case glyphs => exact fun l => completesIf_of (fun _ _ => rfl) rfl fun _ _ hl => apply_cmpGlyphLoad_of_atlas hl
  case guardSet => exact fun c => completesIf_of (fun _ _ => rfl) rfl fun _ _ hc => apply_cmpGuardSet_of_comp hc
  case guardClear => exact completesIf_of (fun _ _ => rfl) rfl fun _ _ hlast => apply_cmpGuardClear_of_last hlast
  case late => exact fun s die idx crc c f dl hc hjob hlate => lift_of_eq (compDone_of_late hc hjob hlate crc)
  case unguarded =>
    exact fun s die idx crc c f dl hc hjob htime hnone => lift_of_eq (compDone_of_unguarded hc hjob htime hnone crc)
  case guarded => exact fun s die idx c f g dl hc hjob htime hg => lift_of_eq (compDone_of_guarded hc hjob htime hg)

end Sys2Proof.Machine

/-!
The encoder (R272 to R291): one equation for each case of its commands and of the end of a frame, and the obligation of its rows.
-/
namespace Sys2Proof.Machine

/-! ## Contexts (R272, R273, R290) -/

theorem apply_encContextOpen_of_place {d : Desc} {m : M} {k : Nat} (hk : encPlace d m = .ok k) :
    encContextOpenSpec.apply d m =
      (own (encOid k) (pathFn m d.path) (encBind k (encOf_ d) m),
       okDetail (if pay d 2 1 = 0xFF || oidDie (oid d) = 0 then encOid k else 0) 0 1) := by
  simp only [encContextOpenSpec, hk]

section
variable {d : Desc} {m : M} {e : Enc} (he : getEnc m (encKey d) = some e)
include he

theorem apply_encContextModify_of_running (hrun : e.state = 2) :
    encContextModifySpec.apply d m =
      (updEnc (encKey d) (fun x =>
        { x with keyInt := (encOf_ d).keyInt, swInt := (encOf_ d).swInt, mergeMs := (encOf_ d).mergeMs }) m, okReply 2) := by
  simp only [encContextModifySpec, he, hrun, if_true]

/-- An OPEN context binds anew; its rates, its frame and its last QP stay. -/
theorem apply_encContextModify_of_open (hopen : e.state = 1) :
    encContextModifySpec.apply d m =
      (encBind (encKey d) { encOf_ d with rate := e.rate, rateNext := e.rateNext, job := e.job, qpLast := e.qpLast }
        (encUnbind (encKey d) e (encOf_ d).send m), okReply 1) := by
  simp only [encContextModifySpec, he, hopen, OfNat.one_ne_ofNat, if_false]

theorem applyEncClose_of_context :
    applyEncClose d m =
      if e.job.isSome && onEngine m (encKey d) then
        (updEnc (encKey d) (fun x => { x with state := 3, job := x.job.map fun j => { j with discard := true } }) m,
         okDetail 0 e.state 3)
      else (encGone (encKey d) m, okDetail 0 e.state 0) := by
  simp only [applyEncClose, he]

/-! ## Rates and key frames (R281 to R283) -/

theorem apply_encRateSet_of_first (hnone : e.rateNext = none) :
    encRateSetSpec.apply d m =
      (updEnc (encKey d) (fun x => { x with rateNext := some (rateOfD d, payBit d 19 0) }) m, okReply (encState d m)) := by
  simp only [encRateSetSpec, he, hnone, Bool.or_false]

/-- A restart that still waits stays with the settings that replace its own. -/
theorem apply_encRateSet_of_restart {r : EncRate} (hnext : e.rateNext = some (r, true)) :
    encRateSetSpec.apply d m =
      (updEnc (encKey d) (fun x => { x with rateNext := some (rateOfD d, true) }) m, okReply (encState d m)) := by
  simp only [encRateSetSpec, he, hnext, Bool.or_true]

end

section
variable {m : M} {k : Nat} {e : Enc} (he : getEnc m k = some e)
include he

theorem encRequest_of_first (hnone : e.req = none) (scope s : Nat) (force : Bool) :
    encRequest k scope s force m =
      updEnc k (fun x => { x with req := some { scope := scope, s := s, merged := 0, at_ := m.vault.mono, force := force } }) m := by
  simp only [encRequest, he, hnone]

/-- Two requests for a switching point merge into the lower layer's. -/
theorem encRequest_of_switches {r : KeyReq} {scope : Nat} (hreq : e.req = some r) (hnew : scope = 1) (hold : r.scope = 1) (s : Nat)
    (force : Bool) :
    encRequest k scope s force m =
      countEnc k 5 1 (updEnc k (fun x => { x with
        req := some { r with scope := 1, s := min s r.s, merged := r.merged + 1, force := r.force || force } }) m) := by
  simp only [encRequest, he, hreq, hnew, hold, min_def_lt]
  rfl

end

/-! ## The end of a frame (R47, R279, R290) -/

section
variable {m : M} {die idx : Nat} {e : Enc} {j : EncJob} (hengine : onEngine m (mkKey die idx) = true)
  (he : getEnc m (mkKey die idx) = some e) (hjob : e.job = some j)
include hengine he hjob

theorem encodeComplete_of_timely (htime : m.dev < j.deadline) (rows : List (List RowIn)) :
    encodeComplete die idx rows m = encFinish (mkKey die idx) rows m := by
  simp only [encodeComplete, hengine, he, hjob, Bool.not_true, Bool.false_eq_true, if_false, if_neg (Nat.not_le.mpr htime)]

/-- The strobe has won. -/
theorem encodeComplete_of_late (hlate : j.deadline ≤ m.dev) (rows : List (List RowIn)) :
    encodeComplete die idx rows m = encStrobe (mkKey die idx) m := by
  simp only [encodeComplete, hengine, he, hjob, Bool.not_true, Bool.false_eq_true, if_false, if_pos hlate]

end

/-- The frame of a context that closes is handed to nobody. -/
theorem encFinish_of_discarded {m : M} {k : Nat} {e : Enc} {j : EncJob} (he : getEnc m k = some e) (hjob : e.job = some j)
    (hdiscard : j.discard = true) (hsrc : j.src = none) (hengine : onEngine m k = true) (rows : List (List RowIn)) :
    encFinish k rows m = engineFree k (encGone k (updEnc k (fun y => { y with job := none }) m)) := by
  simp only [encFinish, he, hjob, hdiscard, hsrc, hengine, if_true]

/-- Settles O23: a command is its spec's effect on the context that it finds, in the case that its hypotheses single out, and the end of a
frame the equation of its meaning. -/
theorem encoderRowsComplete : Obligations.EncoderRowsComplete := by
  unfold Obligations.EncoderRowsComplete
  refine ⟨?opened, ?modifyRunning, ?modifyOpen, ?start, ?stop, ?close, ?closing, ?rateFirst, ?rateAgain, ?keyFirst, ?keyMerged, ?timely,
    ?late, ?discarded⟩
  case opened => exact fun k => completesIf_of (fun _ _ => rfl) rfl fun _ _ hk => apply_encContextOpen_of_place hk
  case modifyRunning =>
    exact fun c => completesIf_of (fun _ _ => rfl) rfl fun _ _ ⟨hc, hrun⟩ => apply_encContextModify_of_running hc hrun
  case modifyOpen =>
    exact fun c => completesIf_of (fun _ _ => rfl) rfl fun _ _ ⟨hc, hopen⟩ => apply_encContextModify_of_open hc hopen
  case start => exact completes_of (fun _ _ => rfl) rfl fun _ _ => rfl
  case stop => exact completes_of (fun _ _ => rfl) rfl fun _ _ => rfl
  case close =>
    exact fun e => completesIf_of (fun _ _ => rfl) rfl fun _ _ ⟨he, hidle⟩ =>
      (applyEncClose_of_context he).trans (if_neg (ne_true_of_eq_false hidle))
  case closing =>
    exact fun e => completesIf_of (fun _ _ => rfl) rfl fun _ _ ⟨he, hbusy⟩ => (applyEncClose_of_context he).trans (if_pos hbusy)
  case rateFirst =>
    exact fun e => completesIf_of (fun _ _ => rfl) rfl fun _ _ ⟨he, hnone⟩ => apply_encRateSet_of_first he hnone
  case rateAgain =>
    exact fun e r => completesIf_of (fun _ _ => rfl) rfl fun _ _ ⟨he, hnext⟩ => apply_encRateSet_of_restart he hnext
  case keyFirst =>
    exact fun e => completesIf_of (fun _ _ => rfl) rfl fun _ _ ⟨he, hnone⟩ =>
      congrArg (·, okReply 2) (encRequest_of_first he hnone ..)
  case keyMerged =>
    exact fun e r => completesIf_of (fun _ _ => rfl) rfl fun _ _ ⟨he, hreq, hnew, hold⟩ =>
      congrArg (·, okReply 2) (encRequest_of_switches he hreq hnew hold ..)
  case timely =>
    exact fun s die idx rows e j hengine he hjob htime => lift_of_eq (encodeComplete_of_timely hengine he hjob htime rows)
  case late =>
    exact fun s die idx rows e j hengine he hjob hlate => lift_of_eq (encodeComplete_of_late hengine he hjob hlate rows)
  case discarded =>
    exact fun k rows m e j he hjob hdiscard hsrc hengine => encFinish_of_discarded he hjob hdiscard hsrc hengine rows

end Sys2Proof.Machine
